-- ==== Sys2Proof/Word.lean ====
section
/-! DEFINITION. Bit-vector widths of the module, the numbering of its units, and sparse maps as plain data. -/
namespace Sys2Proof

abbrev Byte := BitVec 8
abbrev W16 := BitVec 16
abbrev W32 := BitVec 32
abbrev W64 := BitVec 64

/-- Sparse data by natural-number key: pairs in strictly rising key order, with no pair that holds the default. -/
abbrev SMap (V : Type) := List (Nat × V)

/-- Cluster `idx` (0 to 79) of tile `tile` (0 to 7): R13 to R18, R430. -/
structure ClusterId where
  tile : Fin 8
  idx : Fin 80
  deriving DecidableEq, Repr

/-- Core `core` (0 to 15) of a cluster. -/
structure CoreId where
  tile : Fin 8
  idx : Fin 80
  core : Fin 16
  deriving DecidableEq, Repr

/-- Optical port `p` (0 to 5) of a tile; port 5 is the tile's service port. -/
structure PortId where
  tile : Fin 8
  p : Fin 6
  deriving DecidableEq, Repr

/-- The cluster of a core. -/
def CoreId.cluster (k : CoreId) : ClusterId := ⟨k.tile, k.idx⟩

/-- Core `i` of a cluster. -/
def ClusterId.coreAt (c : ClusterId) (i : Fin 16) : CoreId := ⟨c.tile, c.idx, i⟩

end Sys2Proof
end

