-- ==== Sys2Proof/Syntax.lean ====
section
/-! DEFINITION. The commands of the module: one constructor per row of the opcode table, with the row's operands: the
unit that acts, the fields of an instruction word, and what arrives from outside. -/
namespace Sys2Proof

/-! ## Operands of the control core -/

/-- Scalar operations of R146: the spec names the classes and gives no encodings (log entry 9). -/
inductive AluOp where
  | add | sub | and_ | or_ | xor_ | shl | shr | sar | mul | mulh | mulhu | seq | sne | slt | sltu
  deriving DecidableEq, Repr

inductive AluSrc where
  | reg (r : Fin 32)
  | imm (v : W32)
  deriving DecidableEq, Repr

/-- What the memory path found in the line that a read returns (R160, R444). -/
inductive LineErr where
  | none | cacheSingle | cacheDouble | dramCorrected | dramUncorrectable
  deriving DecidableEq, Repr

/-- What protection found in what a command reads: nothing; an error of one or two bits in the word numbered `word` among the
scratch words (R153); or what the memory path found in the line numbered `n` among the lines of memory (R160, R444). -/
inductive Ecc where
  | ok
  | single (word : Nat)
  | double (word : Nat)
  | line (n : Nat) (err : LineErr)
  deriving DecidableEq, Repr

/-- An operand of a command that reads scratch or memory, with what protection finds there. -/
structure Checked (α : Type) where
  val : α
  ecc : Ecc
  deriving DecidableEq, Repr

/-- A scalar instruction; a word of the core's program, run as what it spells; a word that SECDED stops at its fetch, or lets by. -/
inductive ScalarForm where
  | op (o : AluOp) (rd ra : Fin 32) (src : AluSrc)
  | word (w : W32)
  | fetched (ecc : Ecc)
  deriving DecidableEq, Repr

/-- Where a control-core access goes: a scratch offset or a job address. -/
inductive MemPlace where
  | scratch (off : W32)
  | job (addr : BitVec 48)
  deriving DecidableEq, Repr

/-- Access sizes of R148; `pair` moves 8 bytes. -/
inductive MemSize where
  | b1 | b2 | b4 | pair
  deriving DecidableEq, Repr

/-- What a copy finds: in a scratch word, numbered among the words of its source and then those of its destination that it writes
in part, row by row; and in a line of memory, numbered among those of its source, row by row. -/
structure CopyFound where
  ecc : Ecc
  line : Nat
  err : LineErr
  deriving DecidableEq, Repr

inductive JumpTo where
  | addr (off : W32)
  | reg (r : Fin 32)
  deriving DecidableEq, Repr

/-- The fields of classes 0x1C and 0x1E (R220), FUNC apart. -/
structure VForm where
  vd : Fin 32
  va : Fin 32
  vb : Fin 32
  bzero : Bool
  masked : Bool
  mod : Fin 8
  deriving DecidableEq, Repr

/-- The queue an SSIG or SWAIT runs in (R253). -/
inductive QSel where
  | core | mtx | vec | dma
  deriving DecidableEq, Repr

/-- Where a packet comes from: a module port and lane, with the bytes as the link framed them and whether every FEC
codeword was correctable; or the module's own fabric blocks. -/
inductive Arrival where
  | port (m : Fin 48) (lane : Fin 2) (fecOk : Bool) (raw : List Byte)
  | loopback
  deriving DecidableEq, Repr

/-- A time word as it arrives (R269), times in 1/64 beat: the sender's transmission time, when it received this port's
last word, the fraction of the beat at which it arrived, and whether the partner is locked; `damaged` if its CRC fails. -/
structure TimeWord where
  sent : Nat
  heard : Nat
  frac : Fin 64
  locked : Bool
  damaged : Bool
  deriving DecidableEq, Repr

/-- A slip token as it arrives (R284). -/
structure TokenWord where
  gen : BitVec 16
  frame : W32
  x : BitVec 8
  src : W32
  damaged : Bool
  deriving DecidableEq, Repr

/-- Readings of a wavelength's monitors: received power, feed power and error ratio, in the units of OPT_WL (R351), whether
its drop filter is on its resonance, and what its decoder has counted since the last reading: codewords, symbols corrected by
KP4, uncorrectable codewords that held no packet, and blocks that the inner code corrected. -/
structure WlReading where
  rx : Byte
  feed : Byte
  ser : Byte
  locked : Bool
  codewords : W32
  corrected : W32
  uncorrectable : W32
  inner : W32
  deriving DecidableEq, Repr

/-- What the decoders counted in a trial (R339, R340): symbols corrected by KP4, blocks corrected by the inner code, and bit
errors at the input of the inner decoder. -/
structure TrialCount where
  symbols : Nat
  inner : Nat
  bitErrors : Nat
  deriving DecidableEq, Repr

/-- The contents of a lock report: the sender's RX_LOCKED and its corrected symbol count of each wavelength (R344, R346). -/
structure LockReport where
  mask : Byte
  corrected : List W32
  deriving DecidableEq, Repr

/-- What a lock report asks or answers (R346, R348). -/
inductive ReportKind where
  | down | up | answer
  deriving DecidableEq, Repr

/-- A capacity word as it arrives (R347). -/
structure CapWord where
  gen : BitVec 16
  coord : W32
  port : Fin 48
  oldMode : Fin 16
  newMode : Fin 16
  origin : W32
  frame : W32
  damaged : Bool
  deriving DecidableEq, Repr

/-! ## Operands of the host, Lookout and the environment -/

/-- A mailbox handover (R371, R372): the header as the host wrote it, its opcode apart, and the payload; `reserved` are the
header words with reserved bits, by byte offset, that the host wrote other than 0. Payload bytes past the list are zero. -/
structure Handover where
  box : Fin 16
  seq : W32
  irq : Bool
  vector : Fin 64
  version : W16
  length : W32
  timeout : W32
  reserved : List (Nat × Nat)
  payload : List Byte
  deriving DecidableEq, Repr

/-- What has come to hold another value in a block's configuration storage (R434): a register, or a word of the route table. -/
inductive CfgDamage where
  | register (offset value : W32)
  | routeWord (index : BitVec 12) (value : W32)
  deriving DecidableEq, Repr

/-- The value of a register write and the bytes that the access covers: 4, but for a host access to BAR0 of another size (R368). -/
structure RegData where
  value : W32
  bytes : Nat
  deriving DecidableEq, Repr

/-- What training and the self-test find at INIT (R380): a bit per HBM3E stack, per LPDDR5X package and per tile. -/
structure InitResult where
  hbm : BitVec 24
  lp : W32
  test : BitVec 8
  deriving DecidableEq, Repr

/-- A message as it arrives in a UDP datagram at Lookout (R403, R404): where the datagram comes from and goes to, its hop limit,
whether its checksum is correct, the header's fields apart from OPCODE and LENGTH, the payload and, if it is signed, the
signature. -/
structure LkoMsg where
  src : BitVec 128
  port : W16
  dst : BitVec 128
  dstPort : W16
  hopLimit : Byte
  sumOk : Bool
  magic : W32
  version : Byte
  kind : Byte
  seq : W32
  status : W16
  nonce : List Byte
  detail : W32
  reserved : BitVec 224
  payload : List Byte
  signature : Option (List Byte)
  deriving DecidableEq, Repr

/-- What the main domain's power-up depends on (R462): for how many milliseconds its conditions have held together, whether an
input leaves its range during the sequence, the main input in 10 mV, flows in 0.1 L/min and inlet temperatures in °C. -/
structure SupplyInputs where
  held : Nat
  lost : Bool
  volt : Nat
  topFlow : Nat
  bottomFlow : Nat
  topInlet : Nat
  bottomInlet : Nat
  deriving DecidableEq, Repr

/-- A tile's temperature sensors (R466): 16 junctions, and one in each HBM3E stack and each LPDDR5X package. -/
structure TileSensors where
  junctions : Vector Byte 16
  hbms : Vector Byte 3
  lps : Vector Byte 4
  deriving DecidableEq, Repr

/-- One reading of the sensors (R466), in the units of R469; `mainPower` is the main input power at that instant. -/
structure Sensors where
  tiles : Vector TileSensors 8
  topInlet : Byte
  topOutlet : Byte
  bottomInlet : Byte
  bottomOutlet : Byte
  topFlow : W16
  bottomFlow : W16
  mainVolt : W16
  standbyVolt : W16
  mainPower : W16
  standbyPower : W16
  deriving DecidableEq, Repr

/-- What the power block watches of both inputs (R461): each input's voltage in 10 mV, and for how many microseconds it has
stood where it stands of the limits of R461. -/
structure SupplyWatch where
  main : Nat
  mainFor : Nat
  standby : Nat
  standbyFor : Nat
  deriving DecidableEq, Repr

/-- The causes of a supply trip (R461). -/
inductive SupplyFault where
  | undervolt | overvolt | standby
  deriving DecidableEq, Repr

/-- A memory controller (R430): of an HBM3E stack, or of an LPDDR5X package. -/
inductive MemCtl where
  | hbm (t : Fin 8) (i : Fin 3)
  | lp (t : Fin 8) (i : Fin 4)
  deriving DecidableEq, Repr

/-- What the patrol scrub finds in a beat (R443, R444): nothing, a number of corrected symbols, or an error it cannot
correct. -/
inductive ScrubResult where
  | clean
  | corrected (symbols : Nat)
  | uncorrectable
  deriving DecidableEq, Repr

inductive Instr where
  -- control core (R146 to R168)
  | scalarAlu (k : CoreId) (f : ScalarForm)
  | load (k : CoreId) (rd : Fin 32) (size : MemSize) (place : MemPlace) (ecc : Ecc)
  | jobLoadReturn (k : CoreId) (slot : Checked (Fin 48)) (err : LineErr)
  | store (k : CoreId) (rs : Fin 32) (size : MemSize) (place : Checked MemPlace)
  | lrd (k : CoreId) (rt ra : Fin 32) (imm : BitVec 15)
  | lwr (k : CoreId) (rt ra : Fin 32) (imm : BitVec 15)
  | branch (k : CoreId) (onZero : Bool) (r : Fin 32) (target : W32)
  | jump (k : CoreId) (target : JumpTo)
  | jumpAndLink (k : CoreId) (rd : Fin 32) (target : JumpTo)
  | fence (k : CoreId)
  | markFrame (k : CoreId)
  | markStep (k : CoreId)
  | halt (k : CoreId)
  | dmaIssue (k : CoreId) (off : Checked W32)
  | dmaDone (k : CoreId) (idx : Fin 4) (found : CopyFound)
  -- matrix and Thinning arrays (R173, R191); `unnamed` holds the word's unnamed bits
  | mbegin (k : CoreId) (group : Fin 4) (kind : Fin 4) (unnamed : W32)
  | macc (k : CoreId) (group : Fin 4) (rs : Fin 32) (imm : BitVec 13) (unnamed : W32) (ecc : Ecc)
  | mend (k : CoreId) (group : Fin 4) (rs : Fin 32) (imm : Checked (BitVec 13)) (unnamed : W32)
  | mabort (k : CoreId) (group : Fin 4) (unnamed : W32)
  | mqcfg (k : CoreId) (rs : Fin 32) (unnamed : W32)
  | mqset (k : CoreId) (rs : Fin 32) (unnamed : W32)
  | mtake (k : CoreId) (rd : Checked (Fin 32)) (unnamed : W32)
  | msteal (k : CoreId) (rd : Checked (Fin 32)) (unnamed : W32)
  -- vector engine, element-wise (R223)
  | vadd (k : CoreId) (x : VForm)
  | vsub (k : CoreId) (x : VForm)
  | vmul (k : CoreId) (x : VForm)
  | vfma (k : CoreId) (x : VForm)
  | vmin (k : CoreId) (x : VForm)
  | vmax (k : CoreId) (x : VForm)
  | vdiv (k : CoreId) (x : VForm)
  | vsqrt (k : CoreId) (x : VForm)
  | vrcp (k : CoreId) (x : VForm)
  | vexp (k : CoreId) (x : VForm)
  | vlog (k : CoreId) (x : VForm)
  | vtanh (k : CoreId) (x : VForm)
  | vsigm (k : CoreId) (x : VForm)
  | vabs (k : CoreId) (x : VForm)
  | vneg (k : CoreId) (x : VForm)
  | vcmpeq (k : CoreId) (x : VForm)
  | vcmplt (k : CoreId) (x : VForm)
  | vcmple (k : CoreId) (x : VForm)
  | vcmpne (k : CoreId) (x : VForm)
  | vsel (k : CoreId) (x : VForm)
  | vand (k : CoreId) (x : VForm)
  | vor (k : CoreId) (x : VForm)
  | vxor (k : CoreId) (x : VForm)
  | vshl (k : CoreId) (x : VForm)
  | vshr (k : CoreId) (x : VForm)
  | vmov (k : CoreId) (x : VForm)
  | vldexp (k : CoreId) (x : VForm)
  | vresadd (k : CoreId) (x : VForm)
  | vupd (k : CoreId) (x : VForm)
  | vcvtw (k : CoreId) (x : VForm)
  | vcvtn (k : CoreId) (x : VForm)
  | vcvts (k : CoreId) (x : VForm)
  | vbern (k : CoreId) (x : VForm)
  -- vector engine, cross-lane (R226 to R231)
  | vperm (k : CoreId) (x : VForm)
  | vrsum (k : CoreId) (x : VForm)
  | vrssq (k : CoreId) (x : VForm)
  | vrmax (k : CoreId) (x : VForm)
  | vrmin (k : CoreId) (x : VForm)
  | vrcnt (k : CoreId) (x : VForm)
  | vmv (k : CoreId) (x : VForm)
  | vmvcomb (k : CoreId) (x : VForm)
  | vsmstat (k : CoreId) (x : VForm)
  | vsmmerge (k : CoreId) (x : VForm)
  | vsmexp (k : CoreId) (x : VForm)
  | vsmnorm (k : CoreId) (x : VForm)
  -- vector engine, loads, stores and control (R222, R232, R233)
  | vld (k : CoreId) (vd rs rt : Fin 32) (imm : BitVec 9) (ecc : Ecc)
  | vst (k : CoreId) (vs rs rt : Fin 32) (imm : Checked (BitVec 9))
  | vcfg (k : CoreId) (rd rs : Fin 32) (func : Fin 16) (unnamed : W32)
  | vsum (k : CoreId) (rd va : Fin 32) (func : Fin 16) (unnamed : W32)
  | smcfg (k : CoreId) (rs : Fin 32) (unnamed : W32)
  | smread (k : CoreId) (rd rs : Fin 32) (unnamed : W32)
  | smcommit (k : CoreId) (rs rt : Fin 32) (unnamed : W32)
  | vrngset (k : CoreId) (rs : Checked (Fin 32)) (unnamed : W32)
  -- sync objects and barriers (R252)
  | ssig (k : CoreId) (q : QSel) (core : Fin 16) (obj : Fin 64) (rs : Fin 32) (reg : Bool) (amount : BitVec 8)
  | swait (k : CoreId) (q : QSel) (obj : Fin 64) (rs : Fin 32) (reg : Bool) (thresh : BitVec 8) (unnamed : W32)
  | sdec (k : CoreId) (obj : Fin 64) (rs : Fin 32) (unnamed : W32)
  | sread (k : CoreId) (rd : Fin 32) (obj : Fin 64) (unnamed : W32)
  | syncWatchdog (k : CoreId) (waiter : QSel)
  | barr (k : CoreId) (bar : Fin 8) (unnamed : W32)
  | bwait (k : CoreId) (bar : Fin 8) (unnamed : W32)
  | bsync (k : CoreId) (bar : Fin 8) (unnamed : W32)
  | barrierTimeout (k : CoreId)
  -- Cruiser, Skidder and Sillage unit (R49 to R123)
  | cruQueueHiWrite (c : ClusterId) (v : W32)
  | cruiseDescriptorStart (c : Checked ClusterId)
  | adjacencyFetchDone (c : ClusterId) (slot : Fin 256) (found : Ecc)
  | cruiseBatchReceive (c : Checked ClusterId)
  | cruiseReplyReceive (c : Checked ClusterId)
  | skdQueueHiWrite (c : ClusterId) (v : W32)
  | haulDescriptorStart (c : Checked ClusterId)
  | trailSpaceAllocate (c : ClusterId)
  | trailSpaceTimeout (c : ClusterId)
  | pageAccessDone (c : ClusterId) (idx : Fin 1024) (found : Ecc) (pooled : Ecc)
  | rowReadRestart (c : ClusterId) (idx : Nat)
  | haulReceive (c : ClusterId)
  | haulReplyReceive (c : ClusterId)
  | silQueueHiWrite (c : ClusterId) (v : W32)
  | retraceStart (c : ClusterId) (ecc : Ecc)
  | returnBatchReceive (c : ClusterId)
  | stepClose (job : BitVec 12) (step : W32)
  | silApplyDoneWrite (c : ClusterId) (slot : Fin 8) (v : W32)
  | silParkHiWrite (c : ClusterId) (v : Checked W32)
  | silAdoptHiWrite (c : ClusterId) (v : Checked W32)
  -- fabric time (R268 to R289)
  | timeWordSend (q : PortId) (frac : Fin 64)
  | timeWordReceive (q : PortId) (w : TimeWord)
  | holdoverEntry
  | holdoverLimit
  | ftbBeatPreset (lo hi : W32)
  | frameBoundary
  | checkBeat
  | slipTokenReceive (q : PortId) (w : TokenWord)
  -- fabric packets (R290 to R314)
  | planSend (j : Fin 16) (t : Fin 8) (idx : Nat) (found : Ecc)
  | planExpect (j : Fin 16) (t : Fin 8) (idx : Nat)
  | windowOpen (j : Fin 16) (t : Fin 8) (idx : Nat)
  | packetInject (t : Checked (Fin 8))
  | packetReceive (a : Arrival)
  | ackReceive (t : Fin 8)
  | nackReceive (t : Fin 8)
  | gapTimerExpiry (t : Fin 8) (idx : Nat)
  | ackTimerExpiry (t : Fin 8) (idx : Nat)
  | creditReturn (m : Fin 48) (lane : Fin 2)
  | tilEnable (t : Fin 8)
  | tilDisable (t : Fin 8)
  -- Landing (R315 to R333)
  | reduceLocalRead (j : Fin 16) (t : Fin 8) (idx : Nat) (found : Ecc)
  | reducePacketReceive (t : Fin 8)
  | lndSlotWrite (t : Fin 8) (j : Fin 16) (v : W32)
  | lndEnable (t : Fin 8)
  | lndDisable (t : Fin 8)
  -- optical ports (R334 to R352); measured inputs are operands
  | optEnable (q : PortId) (fed : Byte)
  | optDisable (q : PortId)
  | hailFrameSend (q : PortId)
  | hailDwell (q : PortId)
  | hailSilent (q : PortId)
  | hailFrameReceive (q : PortId) (raw : List Byte) (lockable : Byte)
  | trialEnd (q : PortId) (uncorrectable : Nat) (counts : TrialCount) (codewords : Nat)
  | modeSwitch (q : PortId)
  | hailRetry (q : PortId)
  | calibrationDither (q : PortId) (readings : List WlReading)
  | lightLoss (q : PortId) (wls : Byte)
  | lightReturn (q : PortId) (wls : Byte)
  | darkTimeout (q : PortId)
  | feedLow (q : PortId) (k : Fin 8)
  | wavelengthLost (q : PortId) (k : Fin 8)
  | marginLoss (q : PortId)
  | lockReportReceive (q : PortId) (kind : ReportKind) (report : LockReport) (damaged : Bool)
  | downgradeTimeout (q : PortId)
  | downgradeSwitch (q : PortId)
  | capacityWordReceive (q : PortId) (w : CapWord)
  | upgradeRequest (q : PortId)
  | svcTxTailWrite (q : PortId) (v : W32)
  | svcRxTailWrite (q : PortId) (v : W32)
  | svcFrameSent (q : PortId)
  | svcFrameReceive (q : PortId) (bytes : List Byte) (fcsOk : Bool)
  -- ENABLE of cluster units, cores and caches
  | cruEnable (c : ClusterId)
  | cruDisable (c : ClusterId)
  | skdEnable (c : ClusterId)
  | skdDisable (c : ClusterId)
  | silEnable (c : ClusterId)
  | silDisable (c : ClusterId)
  | corEnable (k : CoreId)
  | corDisable (k : CoreId)
  | cchDisable (c : ClusterId)
  -- host attachment (R367 to R372)
  | ucieTrain (m : Fin 16) (halfRate halfWidth : Bool)
  | bulkWrite (addr : BitVec 48) (data : List Byte)
  | bulkRead (addr : BitVec 48) (bytes : Nat) (found : Ecc)
  | mailboxOwnedWrite (box : Fin 16)
  | commandTimeout (box : Fin 16)
  -- mailbox commands (R379)
  | hello (h : Handover)
  | identity (h : Handover)
  | fwBegin (h : Handover)
  | fwChunk (h : Handover)
  | fwCommit (h : Handover) (flashOk : Bool)
  | init (h : Handover) (r : InitResult)
  | hostWindow (h : Handover)
  | sliceJoin (h : Handover)
  | sliceLeave (h : Handover)
  | planLoad (h : Handover)
  | programLoad (h : Handover)
  | configApply (h : Handover)
  | jobStart (h : Handover)
  | jobStop (h : Handover)
  | recover (h : Handover)
  | memMap (h : Handover)
  | memGrant (h : Handover)
  | memRevoke (h : Handover)
  | snapTrigger (h : Handover)
  | snapRead (h : Handover)
  | snapRearm (h : Handover)
  | logRead (h : Handover)
  | eventRead (h : Handover)
  | debugMode (h : Handover)
  | regRead (h : Handover)
  | regWrite (h : Handover)
  | syncSet (h : Handover)
  | ctxSave (h : Handover)
  | ctxRestore (h : Handover)
  | calStatus (h : Handover)
  | attest (h : Handover)
  -- power (R386 to R388, R460 to R468)
  | standbyPowerUp
  | standbyPowerLoss
  | mainPowerUp (inputs : SupplyInputs)
  | mainDomainReset
  | supplyTrip (w : SupplyWatch)
  | sensorEvaluation (r : Sensors)
  | thermalTrip
  | imageBufferIdle
  -- Lookout (R403 to R409)
  | neighbourSolicitation (src target : BitVec 128)
  | lookoutStatus (m : LkoMsg)
  | lookoutIdentity (m : LkoMsg)
  | lookoutLogRead (m : LkoMsg)
  | lookoutSnapRead (m : LkoMsg)
  | lookoutRegRead (m : LkoMsg)
  | lookoutAttest (m : LkoMsg)
  | forceStop (m : LkoMsg)
  | lookoutPowerOff (m : LkoMsg)
  | lookoutPowerOn (m : LkoMsg) (inputs : SupplyInputs)
  | lookoutPowerCycle (m : LkoMsg) (inputs : SupplyInputs)
  | lookoutFence (m : LkoMsg)
  | lookoutFwBegin (m : LkoMsg)
  | lookoutFwChunk (m : LkoMsg)
  | lookoutFwCommit (m : LkoMsg) (flashOk : Bool)
  -- Blaze, Tally, registers (R413 to R445); `addr` is a control-space address in the block
  | blazeMatch
  | tallyEntryAccept
  | tallyDiscardReport
  | rollupRefresh
  | cfgCrcCompare (addr : W32) (damage : Option CfgDamage)
  | postedWriteEffect (addr : W32)
  | blkEnable (addr : W32)
  | blkDisable (addr : W32)
  | snapArmWrite (addr : W32) (on : Bool)
  | registerWrite (addr : W32) (data : RegData)
  | patrolScrub (m : MemCtl) (addr : BitVec 48) (r : ScrubResult)
  | rngHealthFail
  -- rows that stand late in the table
  | jobStorePerformed (k : CoreId) (slot : Checked (Fin 48))
  | prefetchFill (k : CoreId) (slot : Checked (Fin 48))
  | dmaPageFault (k : CoreId) (idx : Fin 4)
  | calibrationLost (q : PortId) (k : Fin 8)
  | lockReportRepeat (q : PortId)
  | alignedIntervalBoundary
  | mailboxUnlistedOpcode (op : W16) (h : Handover)
  | lookoutUnlistedOpcode (op : W16) (m : LkoMsg)
  | lookoutFrameDropped
  | lookoutLinkChange (up : Bool)
  deriving DecidableEq, Repr

end Sys2Proof
end

