-- ==== Sys2Proof/Decode.lean ====
section
/-! DEFINITION. The command that a word spells by the bits of the opcode table, and the words of a core's program: the
major opcode of R146 and the layouts of R151, R173, R220 and R252. -/
namespace Sys2Proof

/-- The command of an opcode-table word; every row of the table has an empty list of fields. -/
def decodeTableWord (_nbits _w : Nat) : Option Instr := none

/-! ## Words of a core's program -/

/-- The classes of R146 whose layouts the spec does not give (log entry 9). -/
inductive PlainClass where
  | scalar | access | branch | dma | fence
  deriving DecidableEq, Repr

/-- What a word of a core's program is: an instruction, an illegal one (R147), a reserved encoding of the vector engine
(R234), or a word of a class without a layout, whose command comes with its operands by its own row. -/
inductive CoreWord where
  | command (i : Instr)
  | illegal
  | vecReserved
  | unlaid (c : PlainClass)
  deriving DecidableEq, Repr

/-- The five-bit register field whose lowest bit is bit `lo`. -/
def regField (w : W32) (lo : Nat) : Fin 32 := (w.extractLsb' lo 5).toFin

/-- The bits of a word that no field names: those from `lo` to `lo + n - 1`. -/
def unnamedBits (w : W32) (lo n : Nat) : W32 := (w.extractLsb' lo n).setWidth 32

/-- The fields of classes 0x1C and 0x1E. -/
def vform (w : W32) : VForm where
  vd := regField w 15
  va := regField w 10
  vb := regField w 5
  bzero := w.getLsbD 4
  masked := w.getLsbD 3
  mod := (w.extractLsb' 0 3).toFin

/-- The FUNC values of class 0x1C (R223). -/
def elementwise (func : Nat) : Option (CoreId → VForm → Instr) :=
  match func with
  | 0x00 => some .vadd | 0x01 => some .vsub | 0x02 => some .vmul | 0x03 => some .vfma
  | 0x04 => some .vmin | 0x05 => some .vmax | 0x06 => some .vdiv | 0x07 => some .vsqrt
  | 0x08 => some .vrcp | 0x09 => some .vexp | 0x0A => some .vlog | 0x0B => some .vtanh
  | 0x0C => some .vsigm | 0x0D => some .vabs | 0x0E => some .vneg
  | 0x10 => some .vcmpeq | 0x11 => some .vcmplt | 0x12 => some .vcmple | 0x13 => some .vcmpne
  | 0x14 => some .vsel | 0x15 => some .vand | 0x16 => some .vor | 0x17 => some .vxor
  | 0x18 => some .vshl | 0x19 => some .vshr | 0x1A => some .vmov | 0x1B => some .vldexp
  | 0x20 => some .vresadd | 0x21 => some .vupd
  | 0x24 => some .vcvtw | 0x25 => some .vcvtn | 0x26 => some .vcvts | 0x28 => some .vbern
  | _ => none

/-- The FUNC values of class 0x1E (R226 to R231). -/
def crossLane (func : Nat) : Option (CoreId → VForm → Instr) :=
  match func with
  | 0x00 => some .vrsum | 0x01 => some .vrssq | 0x02 => some .vrmax | 0x03 => some .vrmin | 0x04 => some .vrcnt
  | 0x05 => some .vmv | 0x06 => some .vmvcomb | 0x10 => some .vperm
  | 0x18 => some .vsmstat | 0x19 => some .vsmmerge | 0x1A => some .vsmexp | 0x1B => some .vsmnorm
  | _ => none

/-- A lane form, or a FUNC that is reserved. -/
def laneWord (k : CoreId) (w : W32) : Option (CoreId → VForm → Instr) → CoreWord
  | some f => .command (f k (vform w))
  | none => .vecReserved

/-- Q of SSIG and SWAIT (R253). -/
def queueField (w : W32) : QSel :=
  match (w.extractLsb' 24 2).toNat with
  | 0 => .core
  | 1 => .mtx
  | 2 => .vec
  | _ => .dma

/-- Class 0x1B (R173). -/
def mqueueWord (k : CoreId) (w : W32) : CoreWord :=
  let u := unnamedBits w 2 10
  match (w.extractLsb' 22 4).toNat with
  | 0 => .command (.mabort k (w.extractLsb' 0 2).toFin u)
  | 1 => .command (.mqcfg k (regField w 12) u)
  | 2 => .command (.mqset k (regField w 12) u)
  | 3 => .command (.mtake k ⟨regField w 17, .ok⟩ u)
  | 4 => .command (.msteal k ⟨regField w 17, .ok⟩ u)
  | _ => .illegal

/-- Class 0x1F (R233). -/
def controlWord (k : CoreId) (w : W32) : CoreWord :=
  let u := unnamedBits w 4 3
  let rd := regField w 17
  let rs := regField w 12
  let rt := regField w 7
  let func : Fin 16 := (w.extractLsb' 0 4).toFin
  match (w.extractLsb' 22 4).toNat with
  | 0 => .command (.vcfg k rd rs func u)
  | 1 => .command (.vsum k rd rt func u)
  | 2 => .command (.smcfg k rs u)
  | 3 => .command (.smread k rd rs u)
  | 4 => .command (.smcommit k rs rt u)
  | 5 => .command (.vrngset k ⟨rs, .ok⟩ u)
  | _ => .vecReserved

/-- The word `w` as core `k` reads it: its class by the major opcode, its fields by the layout of the class. -/
def decodeCore (k : CoreId) (w : W32) : CoreWord :=
  let two : Nat := (w.extractLsb' 24 2).toNat
  let group : Fin 4 := (w.extractLsb' 24 2).toFin
  match (w.extractLsb' 26 6).toNat with
  | 0x13 =>
    let rt := regField w 20
    let ra := regField w 15
    .command (if w.getLsbD 25 then .lwr k rt ra (w.extractLsb' 0 15) else .lrd k rt ra (w.extractLsb' 0 15))
  | 0x18 => .command (.mbegin k group (w.extractLsb' 22 2).toFin (unnamedBits w 0 22))
  | 0x19 => .command (.macc k group (regField w 19) (w.extractLsb' 0 13) (unnamedBits w 13 6) .ok)
  | 0x1A => .command (.mend k group (regField w 19) ⟨w.extractLsb' 0 13, .ok⟩ (unnamedBits w 13 6))
  | 0x1B => mqueueWord k w
  | 0x1C => laneWord k w (elementwise (w.extractLsb' 20 6).toNat)
  | 0x1D =>
    match two with
    | 0 => .command (.vld k (regField w 19) (regField w 14) (regField w 9) (w.extractLsb' 0 9) .ok)
    | 1 => .command (.vst k (regField w 19) (regField w 14) (regField w 9) ⟨w.extractLsb' 0 9, .ok⟩)
    | _ => .vecReserved
  | 0x1E => laneWord k w (crossLane (w.extractLsb' 20 6).toNat)
  | 0x1F => controlWord k w
  | 0x22 =>
    .command (.ssig k (queueField w) (w.extractLsb' 20 4).toFin (w.extractLsb' 14 6).toFin (regField w 9) (w.getLsbD 8)
      (w.extractLsb' 0 8))
  | 0x23 =>
    .command (.swait k (queueField w) (w.extractLsb' 14 6).toFin (regField w 9) (w.getLsbD 8) (w.extractLsb' 0 8)
      (unnamedBits w 20 4))
  | 0x24 =>
    let obj : Fin 64 := (w.extractLsb' 13 6).toFin
    match two with
    | 0 => .command (.sdec k obj (regField w 8) (unnamedBits w 0 8))
    | 1 => .command (.sread k (regField w 19) obj (unnamedBits w 0 8))
    | _ => .illegal
  | 0x25 =>
    let bar : Fin 8 := (w.extractLsb' 21 3).toFin
    match two with
    | 0 => .command (.barr k bar (unnamedBits w 0 21))
    | 1 => .command (.bwait k bar (unnamedBits w 0 21))
    | 2 => .command (.bsync k bar (unnamedBits w 0 21))
    | _ => .illegal
  | 0x27 => .command (.halt k)
  | major =>
    if 0x28 ≤ major then .illegal
    else if major ≤ 0x0F then .unlaid .scalar
    else if major ≤ 0x12 then .unlaid .access
    else if major ≤ 0x17 then .unlaid .branch
    else if major ≤ 0x21 then .unlaid .dma
    else .unlaid .fence

end Sys2Proof
end

