-- ==== Sys2Proof/Machine/Store.lean ====
section
/-! DEFINITION. Sparse maps in one canonical form, bit fields of a word, and little-endian byte strings. -/
namespace Sys2Proof.Machine

/-! ## Sparse maps -/

/-- The value at key `k`; `d k` where the map lists none. -/
def sget {V : Type} (d : Nat → V) : SMap V → Nat → V
  | [], k => d k
  | (a, v) :: t, k => if a = k then v else sget d t k

/-- The map without key `k`. -/
def serase {V : Type} : SMap V → Nat → SMap V
  | [], _ => []
  | (a, v) :: t, k => if a = k then serase t k else (a, v) :: serase t k

/-- Put `(k, v)` before the first larger key. -/
def sinsert {V : Type} : SMap V → Nat → V → SMap V
  | [], k, v => [(k, v)]
  | (a, w) :: t, k, v => if k < a then (k, v) :: (a, w) :: t else (a, w) :: sinsert t k v

/-- Write `v` at key `k`; writing the default removes the entry, so equal maps are equal data. -/
def sset {V : Type} [DecidableEq V] (d : Nat → V) (m : SMap V) (k : Nat) (v : V) : SMap V :=
  if v = d k then serase m k else sinsert (serase m k) k v

/-- The keys rise strictly and no pair holds the default of its key. -/
def swf {V : Type} [DecidableEq V] (d : Nat → V) : SMap V → Bool
  | [] => true
  | (a, v) :: t => decide (v ≠ d a) && (t.all fun p => decide (a < p.1)) && swf d t

/-- Write consecutive values from key `k` on. -/
def ssetMany {V : Type} [DecidableEq V] (d : Nat → V) : SMap V → Nat → List V → SMap V
  | m, _, [] => m
  | m, k, v :: t => ssetMany d (sset d m k v) (k + 1) t

/-- Read `n` consecutive values from key `k` on. -/
def sgetMany {V : Type} (d : Nat → V) (m : SMap V) : Nat → Nat → List V
  | _, 0 => []
  | k, n + 1 => sget d m k :: sgetMany d m (k + 1) n

/-! ## Bit fields -/

/-- Bits `[lo + len - 1 : lo]` of `v`. -/
def bits (v lo len : Nat) : Nat := v / 2 ^ lo % 2 ^ len

/-- Bit `i` of `v`. -/
def bit (v i : Nat) : Bool := v / 2 ^ i % 2 == 1

/-- `v` with bits `[lo + len - 1 : lo]` replaced by the low bits of `x`. -/
def setBits (v lo len x : Nat) : Nat :=
  v - bits v lo len * 2 ^ lo + x % 2 ^ len * 2 ^ lo

def b2n (b : Bool) : Nat := if b then 1 else 0

/-- Two's-complement reading of the low `len` bits of `v`. -/
def sgn (v len : Nat) : Int :=
  let x := v % 2 ^ len
  if x < 2 ^ (len - 1) then x else (x : Int) - 2 ^ len

/-- The low `len` bits of an integer, as a natural number. -/
def unsgn (v : Int) (len : Nat) : Nat := (v % (2 ^ len : Int)).toNat

/-! ## Byte strings, little-endian (R7) -/

def leBytes : Nat → Nat → List Byte
  | 0, _ => []
  | n + 1, v => BitVec.ofNat 8 v :: leBytes n (v / 256)

def leVal : List Byte → Nat
  | [] => 0
  | b :: t => b.toNat + 256 * leVal t

/-- `n` bytes of a list from offset `o`; bytes past its end read 0. -/
def slice (l : List Byte) (o n : Nat) : List Byte :=
  let x := (l.drop o).take n
  x ++ List.replicate (n - x.length) 0

/-- The little-endian value of `n` bytes of a list from offset `o`. -/
def fieldAt (l : List Byte) (o n : Nat) : Nat := leVal (slice l o n)

def allZero (l : List Byte) : Bool := l.all fun b => b == 0

/-- `n` natural numbers from `a`. -/
def upFrom : Nat → Nat → List Nat
  | _, 0 => []
  | a, n + 1 => a :: upFrom (a + 1) n

def sumNat (l : List Nat) : Nat := l.foldl (· + ·) 0

/-- The first element of a list that meets `p`, with its index. -/
def findIdx? {α : Type} (p : α → Bool) : List α → Nat → Option (Nat × α)
  | [], _ => none
  | x :: t, i => if p x then some (i, x) else findIdx? p t (i + 1)

/-- A list with the first element that meets `p` replaced. -/
def replaceFirst {α : Type} (p : α → Bool) (y : α) : List α → List α
  | [] => []
  | x :: t => if p x then y :: t else x :: replaceFirst p y t

/-- A list without the first element that meets `p`. -/
def dropFirst {α : Type} (p : α → Bool) : List α → List α
  | [] => []
  | x :: t => if p x then t else x :: dropFirst p t

def lset {α : Type} (l : List α) (i : Nat) (v : α) : List α := l.set i v

def setBitOn (v i : Nat) : Nat := setBits v i 1 1
def setBitOff (v i : Nat) : Nat := setBits v i 1 0

end Sys2Proof.Machine
end

