-- ==== Sys2Proof/Machine/Crc.lean ====
section
/-! DEFINITION. The checksums the spec names: CRC-32C of records and configuration (R434), CRC-64/ECMA-182 of
fabric packets. Both are computed bit by bit. -/
namespace Sys2Proof.Machine

/-- One byte into a reflected CRC register `c` of polynomial `poly` (bit-reversed form). -/
def crcReflBits (poly : Nat) : Nat → Nat → Nat
  | 0, c => c
  | n + 1, c => crcReflBits poly n (if c % 2 = 1 then Nat.xor (c / 2) poly else c / 2)

/-- A reflected CRC-32 of a polynomial, initial value and final exclusive-or all ones. -/
def crc32Of (poly : Nat) (l : List Byte) : Nat :=
  Nat.xor (l.foldl (fun c b => crcReflBits poly 8 (Nat.xor c b.toNat)) 0xFFFFFFFF) 0xFFFFFFFF

/-- CRC-32C (Castagnoli), polynomial 0x1EDC6F41 reflected, initial value and final exclusive-or all ones (R434). -/
def crc32c (l : List Byte) : Nat := crc32Of 0x82F63B78 l

/-- The frame check sequence of IEEE 802.3, polynomial 0x04C11DB7 reflected (R349). -/
def frameCheck (l : List Byte) : Nat := crc32Of 0xEDB88320 l

/-- One bit step of a non-reflected 64-bit CRC. -/
def crc64Bits : Nat → Nat → Nat
  | 0, c => c
  | n + 1, c =>
    crc64Bits n (if c / 2 ^ 63 % 2 = 1 then Nat.xor (c * 2 % 2 ^ 64) 0x42F0E1EBA9EA3693 else c * 2 % 2 ^ 64)

/-- CRC-64/ECMA-182: polynomial 0x42F0E1EBA9EA3693, initial value 0, no reflection, no final exclusive-or. -/
def crc64 (l : List Byte) : Nat :=
  l.foldl (fun c b => crc64Bits 8 (Nat.xor c (b.toNat * 2 ^ 56))) 0

end Sys2Proof.Machine
end

