-- ==== Sys2Proof/Config.lean ====
section
/-! DEFINITION. What the spec leaves open: constants without a body, so that no proof can see their values. -/
namespace Sys2Proof.Config

/-- A value the spec leaves open, fresh for every count of State.freeCount (log entry 2). -/
opaque freeValue : Nat → BitVec 64

/-- The small step by which a port moves a heater's setting (R344). -/
opaque heaterStep : Nat

/-- Which of the numbers within one unit in the last place the engine's exp, log, tanh or sigmoid (first argument 0 to 3)
gives at a format (VFMT) for an operand: the spec gives the result bits in conformance files only (R215, log entry 6). -/
opaque lastPlace : Nat → Nat → Nat → Nat

/-- The number of the status that stands at a place in the list of statuses: the spec names them and numbers none
(log entry 7). -/
opaque statusNumber : Nat → BitVec 16

/-- SHA-512 of a byte string (19, log entry 8). -/
opaque sha512 : List (BitVec 8) → BitVec 512

/-- Ed25519 verification of a signature (64 bytes) by a key (32 bytes) over a message. -/
opaque ed25519Verify : List (BitVec 8) → List (BitVec 8) → List (BitVec 8) → Bool

/-- The Ed25519 signature of a message under a private key (first argument). -/
opaque ed25519Sign : List (BitVec 8) → List (BitVec 8) → List (BitVec 8)

/-- The public key of a private key. -/
opaque ed25519Public : List (BitVec 8) → List (BitVec 8)

/-- The boot ROM's contents, and the SHA-512 digest of each vendor key that it holds (R396). -/
opaque romImage : List (BitVec 8)
opaque vendorKeyHash : Nat → List (BitVec 8)

/-- The identity private key that PUF responses and the record's helper data give (R393). -/
opaque identityKey : List (BitVec 8) → List (BitVec 8) → List (BitVec 8)

/-- The hash of owner index, table slot and local row that chooses a set of the remote-row cache (R97, log entry 35). -/
opaque rowHash : Nat → Nat → Nat → Nat

/-- Where an accumulation table keeps the entry of a local row, taken modulo ACC_ENTRIES, and byte `i` of the entry of a
row with these accumulators and flags: R119 gives the entries' size and no layout (log entry 90). -/
opaque accPlace : Nat → Nat
opaque accByte : Nat → List Int → Bool → Bool → Nat → BitVec 8

/-- Does a block of TYPE `type` define word `i` of its snapshot window? One that it does not define reads as zero (R431, log entry
42). -/
opaque snapDefined : Nat → Nat → Bool

/-- Word `i` of the snapshot window of a block of TYPE `type` that latched these values: the chapters name the values
and give no packing (R431, log entry 42). -/
opaque snapWord : Nat → Nat → List Nat → BitVec 32

/-- The power-up state of the PUF SRAM (R393). -/
opaque pufResponse : List (BitVec 8)

end Sys2Proof.Config
end

