-- ==== Sys2Proof/Machine/RegNames.lean ====
section
/-! DEFINITION. The offset of every register from its block's base, by the name its chapter gives it. -/
namespace Sys2Proof.Machine

/-! Cruiser (R76) -/

abbrev CRU_JOB : Nat := 0x100
abbrev CRU_EPOCH : Nat := 0x104
abbrev CRU_OMAP_LO : Nat := 0x108
abbrev CRU_OMAP_HI : Nat := 0x10C
abbrev CRU_OMAP_STATUS : Nat := 0x110
abbrev CRU_KEYi (i : Nat) : Nat := 0x120 + 4 * i
abbrev CRU_QUEUE_LO : Nat := 0x140
abbrev CRU_QUEUE_HI : Nat := 0x144
abbrev CRU_QUEUE_LEVEL : Nat := 0x148
abbrev CRU_STATUS : Nat := 0x14C
abbrev CRU_ACTIVE : Nat := 0x150
abbrev CRU_STAND_LO (s : Nat) : Nat := 0x160 + 8 * s
abbrev CRU_STAND_HI (s : Nat) : Nat := 0x164 + 8 * s
abbrev CRU_CNT_SEEDS : Nat := 0x1A0
abbrev CRU_CNT_PARENTS : Nat := 0x1A4
abbrev CRU_CNT_SLOTS : Nat := 0x1A8
abbrev CRU_CNT_NULL : Nat := 0x1AC
abbrev CRU_CNT_SENTINEL : Nat := 0x1B0
abbrev CRU_CNT_BEYOND : Nat := 0x1B4
abbrev CRU_CNT_DELETED : Nat := 0x1B8
abbrev CRU_CNT_BADW : Nat := 0x1BC
abbrev CRU_CNT_HUBS : Nat := 0x1C0
abbrev CRU_CNT_FETCHES : Nat := 0x1C4
abbrev CRU_CNT_REQ_SENT : Nat := 0x1C8
abbrev CRU_CNT_REQ_SERVED : Nat := 0x1CC
abbrev CRU_CNT_BATCH_DISCARD : Nat := 0x1D0
abbrev CRU_CNT_MALFORMED : Nat := 0x1D4
abbrev CRU_CNT_DESC_DONE : Nat := 0x1D8
abbrev CRU_CNT_DESC_REFUSED : Nat := 0x1DC
abbrev CRU_STALL_ADJ : Nat := 0x1E0
abbrev CRU_STALL_SLOTS : Nat := 0x1E4
abbrev CRU_STALL_REPLY : Nat := 0x1E8
abbrev CRU_STALL_OUT : Nat := 0x1EC

/-! Skidder (R100) -/

abbrev SKD_JOB : Nat := 0x100
abbrev SKD_BANK_CAP : Nat := 0x104
abbrev SKD_OMAP_LO : Nat := 0x108
abbrev SKD_OMAP_HI : Nat := 0x10C
abbrev SKD_OMAP_STATUS : Nat := 0x110
abbrev SKD_RRC_LO : Nat := 0x118
abbrev SKD_RRC_HI : Nat := 0x11C
abbrev SKD_RRC_CFG : Nat := 0x120
abbrev SKD_QUEUE_LO : Nat := 0x140
abbrev SKD_QUEUE_HI : Nat := 0x144
abbrev SKD_QUEUE_LEVEL : Nat := 0x148
abbrev SKD_STATUS : Nat := 0x14C
abbrev SKD_ACTIVE : Nat := 0x150
abbrev SKD_TABLE_LO (s : Nat) : Nat := 0x160 + 8 * s
abbrev SKD_TABLE_HI (s : Nat) : Nat := 0x164 + 8 * s
abbrev SKD_APPLIED (s : Nat) : Nat := 0x1A0 + 4 * s
abbrev SKD_CNT_ENTRIES : Nat := 0x1C0
abbrev SKD_CNT_GROUPS : Nat := 0x1C4
abbrev SKD_CNT_LOCAL : Nat := 0x1C8
abbrev SKD_CNT_REMOTE : Nat := 0x1CC
abbrev SKD_CNT_NULL : Nat := 0x1D0
abbrev SKD_CNT_SENTINEL : Nat := 0x1D4
abbrev SKD_CNT_BEYOND : Nat := 0x1D8
abbrev SKD_CNT_DELETED : Nat := 0x1DC
abbrev SKD_CNT_PAGES : Nat := 0x1E0
abbrev SKD_CNT_MERGED : Nat := 0x1E4
abbrev SKD_CNT_HAULS_SENT : Nat := 0x1E8
abbrev SKD_CNT_HAULS_SERVED : Nat := 0x1EC
abbrev SKD_CNT_RRC_CURRENT : Nat := 0x1F0
abbrev SKD_CNT_PF_DROP : Nat := 0x1F4
abbrev SKD_CNT_HAUL_DISCARD : Nat := 0x1F8
abbrev SKD_CNT_DESC_DONE : Nat := 0x1FC
abbrev SKD_STALL_BANK_HOT : Nat := 0x200
abbrev SKD_STALL_SLOTS : Nat := 0x204
abbrev SKD_STALL_REPLY : Nat := 0x208
abbrev SKD_STALL_APPLIED : Nat := 0x20C
abbrev SKD_STALL_OUT : Nat := 0x210

/-! Sillage unit (R122) -/

abbrev SIL_JOB : Nat := 0x100
abbrev SIL_SCR : Nat := 0x104
abbrev SIL_SPILL_LO : Nat := 0x108
abbrev SIL_SPILL_HI : Nat := 0x10C
abbrev SIL_SPILL_CFG : Nat := 0x110
abbrev SIL_WAIT : Nat := 0x114
abbrev SIL_QUEUE_LO : Nat := 0x140
abbrev SIL_QUEUE_HI : Nat := 0x144
abbrev SIL_QUEUE_LEVEL : Nat := 0x148
abbrev SIL_STATUS : Nat := 0x14C
abbrev SIL_ACTIVE : Nat := 0x150
abbrev SIL_TRAILS : Nat := 0x154
abbrev SIL_PARK_BYTES : Nat := 0x158
abbrev SIL_PARK_LO : Nat := 0x160
abbrev SIL_PARK_HI : Nat := 0x164
abbrev SIL_ADOPT_LO : Nat := 0x168
abbrev SIL_ADOPT_HI : Nat := 0x16C
abbrev SIL_APPLY_LO (s : Nat) : Nat := 0x180 + 8 * s
abbrev SIL_APPLY_HI (s : Nat) : Nat := 0x184 + 8 * s
abbrev SIL_APPLY_DONE (s : Nat) : Nat := 0x1C0 + 4 * s
abbrev SIL_CNT_TRAILS : Nat := 0x1E0
abbrev SIL_CNT_ENTRIES : Nat := 0x1E4
abbrev SIL_CNT_LOST : Nat := 0x1E8
abbrev SIL_CNT_RETRACES : Nat := 0x1EC
abbrev SIL_CNT_REFUSED : Nat := 0x1F0
abbrev SIL_CNT_LOCAL : Nat := 0x1F4
abbrev SIL_CNT_REMOTE : Nat := 0x1F8
abbrev SIL_CNT_SENT : Nat := 0x1FC
abbrev SIL_CNT_RECEIVED : Nat := 0x200
abbrev SIL_CNT_DISCARD : Nat := 0x204
abbrev SIL_CNT_ADDS : Nat := 0x208
abbrev SIL_CNT_ROWS : Nat := 0x20C
abbrev SIL_CNT_CLIPPED : Nat := 0x210
abbrev SIL_CNT_NONFINITE : Nat := 0x214
abbrev SIL_CNT_SPILL : Nat := 0x218
abbrev SIL_STALL_SPACE : Nat := 0x220
abbrev SIL_STALL_CLOSE : Nat := 0x224
abbrev SIL_STALL_ACC : Nat := 0x228
abbrev SIL_STALL_OUT : Nat := 0x22C

/-! Cluster common, core and cluster cache (R169 to R171) -/

abbrev CLU_PROFILE : Nat := 0x100
abbrev CLU_XLAT_LO : Nat := 0x108
abbrev CLU_XLAT_HI : Nat := 0x10C
abbrev CLU_XLAT_GEN : Nat := 0x110
abbrev CLU_FRAME : Nat := 0x114
abbrev COR_PROG : Nat := 0x100
abbrev COR_ENTRY : Nat := 0x104
abbrev COR_SLOT_CFG : Nat := 0x108
abbrev COR_STATE : Nat := 0x10C
abbrev COR_PC : Nat := 0x110
abbrev COR_FAULT : Nat := 0x114
abbrev COR_FAULT_ADDR_LO : Nat := 0x118
abbrev COR_FAULT_ADDR_HI : Nat := 0x11C
abbrev COR_SLOTS : Nat := 0x120
abbrev COR_FRAME_USED : Nat := 0x128
abbrev COR_STEP_BEATS : Nat := 0x12C
abbrev COR_STEP_COUNT : Nat := 0x130
abbrev COR_CNT_INSTR : Nat := 0x140
abbrev COR_CNT_PAIRS : Nat := 0x144
abbrev COR_CNT_LOADS : Nat := 0x148
abbrev COR_CNT_STORES : Nat := 0x14C
abbrev COR_CNT_DMA_DONE : Nat := 0x150
abbrev COR_CNT_DMA_LINES : Nat := 0x154
abbrev COR_CNT_SCRATCH_CE : Nat := 0x158
abbrev COR_CNT_XLAT_MISS : Nat := 0x15C
abbrev COR_STALL_FETCH : Nat := 0x160
abbrev COR_STALL_QUEUE : Nat := 0x164
abbrev COR_STALL_SYNC : Nat := 0x168
abbrev COR_STALL_LOAD : Nat := 0x16C
abbrev COR_STALL_SLOTS : Nat := 0x170
abbrev COR_STALL_BANK : Nat := 0x174
abbrev COR_STALL_DMA : Nat := 0x178
abbrev COR_STALL_XLAT : Nat := 0x17C
abbrev CCH_PF_CFG : Nat := 0x100
abbrev CCH_ACTIVE : Nat := 0x104
abbrev CCH_STATUS : Nat := 0x108
abbrev CCH_CNT_HITS : Nat := 0x140
abbrev CCH_CNT_MISSES : Nat := 0x144
abbrev CCH_CNT_WRITEBACKS : Nat := 0x148
abbrev CCH_CNT_INVAL : Nat := 0x14C
abbrev CCH_CNT_PF_ISSUED : Nat := 0x150
abbrev CCH_CNT_PF_USED : Nat := 0x154
abbrev CCH_CNT_PF_DROPPED : Nat := 0x158
abbrev CCH_CNT_CE : Nat := 0x15C
abbrev CCH_STALL_BANK : Nat := 0x160
abbrev CCH_STALL_MISSQ : Nat := 0x164

/-! Matrix (R195) -/

abbrev MTX_STATE : Nat := 0x300
abbrev MTX_FAULT : Nat := 0x304
abbrev MTX_WQ_CFG : Nat := 0x308
abbrev MTX_WQ_HEAD : Nat := 0x30C
abbrev MTX_WQ_TAIL : Nat := 0x310
abbrev MTX_ACC_SEL : Nat := 0x314
abbrev MTX_ACC_DATA : Nat := 0x318
abbrev MTX_ACC_INFO : Nat := 0x31C
abbrev MTX_CNT_DENSE_CYC : Nat := 0x340
abbrev MTX_CNT_THIN_CYC : Nat := 0x344
abbrev MTX_CNT_GROUPS : Nat := 0x348
abbrev MTX_CNT_SWITCH : Nat := 0x34C
abbrev MTX_CNT_TAKEN : Nat := 0x350
abbrev MTX_CNT_STOLE : Nat := 0x354
abbrev MTX_CNT_STOLEN : Nat := 0x358
abbrev MTX_CNT_NONFINITE : Nat := 0x35C
abbrev MTX_STALL_OPERAND : Nat := 0x360
abbrev MTX_STALL_STAGE : Nat := 0x364
abbrev MTX_STALL_DRAIN : Nat := 0x368
abbrev MTX_STALL_WAKE : Nat := 0x36C

/-! Vector (R237) -/

abbrev VEC_CAPS : Nat := 0x380
abbrev VEC_STATE : Nat := 0x384
abbrev VEC_FLAGS : Nat := 0x388
abbrev VEC_FAULT : Nat := 0x38C
abbrev VEC_REG_SEL : Nat := 0x390
abbrev VEC_REG_DATA : Nat := 0x394
abbrev VEC_CNT_INSTR : Nat := 0x3C0
abbrev VEC_CNT_BUSY : Nat := 0x3C4
abbrev VEC_CNT_LINES : Nat := 0x3C8
abbrev VEC_CNT_SUMMARIES : Nat := 0x3CC
abbrev VEC_CNT_RETRIES : Nat := 0x3D0
abbrev VEC_CNT_SATURATED : Nat := 0x3D4
abbrev VEC_STALL_DEP : Nat := 0x3E0
abbrev VEC_STALL_SCRATCH : Nat := 0x3E4
abbrev VEC_STALL_EMPTY : Nat := 0x3E8
abbrev VEC_STALL_SUMMARY : Nat := 0x3EC

/-! Sync and barrier (R265, R266) -/

abbrev SYN_OBJ (n : Nat) : Nat := 0x200 + 4 * n
abbrev SYN_STATE : Nat := 0x2C0
abbrev SYN_ERROR : Nat := 0x2C4
abbrev SYN_WDOG : Nat := 0x2C8
abbrev SYN_CNT_SIGNALS : Nat := 0x2D0
abbrev SYN_CNT_WAITS : Nat := 0x2D4
abbrev SYN_CNT_SETS : Nat := 0x2D8
abbrev SYN_CNT_WDOG : Nat := 0x2DC
abbrev BAR_CFG (b : Nat) : Nat := 0x200 + 0x10 * b
abbrev BAR_STATE (b : Nat) : Nat := 0x204 + 0x10 * b
abbrev BAR_PHASE (b : Nat) : Nat := 0x208 + 0x10 * b
abbrev BAR_CNT_DONE (b : Nat) : Nat := 0x20C + 0x10 * b
abbrev BAR_WDOG : Nat := 0x280
abbrev BAR_STATUS : Nat := 0x284
abbrev BAR_CNT_EARLY : Nat := 0x288
abbrev BAR_CNT_TIMEOUT : Nat := 0x28C

/-! Time base (R288) -/

abbrev FTB_CTRL : Nat := 0x100
abbrev FTB_PARENTS : Nat := 0x104
abbrev FTB_STATUS : Nat := 0x108
abbrev FTB_EVENTS : Nat := 0x10C
abbrev FTB_BEAT_LO : Nat := 0x110
abbrev FTB_BEAT_HI : Nat := 0x114
abbrev FTB_FRAME : Nat := 0x118
abbrev FTB_FRAME_BEAT : Nat := 0x11C
abbrev FTB_FRAME_LEN : Nat := 0x120
abbrev FTB_HORIZON : Nat := 0x124
abbrev FTB_ORIGIN_LO : Nat := 0x128
abbrev FTB_ORIGIN_HI : Nat := 0x12C
abbrev FTB_ORIGIN_FRAME : Nat := 0x130
abbrev FTB_OFFSET : Nat := 0x134
abbrev FTB_PATH_DELAY : Nat := 0x138
abbrev FTB_CUR_EXT : Nat := 0x13C
abbrev FTB_CNT_SLIPS : Nat := 0x140
abbrev FTB_CNT_SENT : Nat := 0x144
abbrev FTB_CNT_DUP : Nat := 0x148
abbrev FTB_LAST_SLIP : Nat := 0x14C
abbrev FTB_LAST_SRC : Nat := 0x150
abbrev FTB_PLAN_LO (j : Nat) : Nat := 0x200 + 0x20 * j
abbrev FTB_PLAN_HI (j : Nat) : Nat := 0x204 + 0x20 * j
abbrev FTB_NEXT_LO (j : Nat) : Nat := 0x208 + 0x20 * j
abbrev FTB_NEXT_HI (j : Nat) : Nat := 0x20C + 0x20 * j
abbrev FTB_SWITCH_STEP (j : Nat) : Nat := 0x210 + 0x20 * j
abbrev FTB_STEP (j : Nat) : Nat := 0x214 + 0x20 * j
abbrev FTB_STEP_SLIPS (j : Nat) : Nat := 0x218 + 0x20 * j

/-! Fabric block (R312) -/

abbrev TIL_COORD : Nat := 0x100
abbrev TIL_GEN : Nat := 0x104
abbrev TIL_CFG : Nat := 0x108
abbrev TIL_GAP : Nat := 0x10C
abbrev TIL_ACK_TO : Nat := 0x110
abbrev TIL_RETRY : Nat := 0x114
abbrev TIL_RSB_LO : Nat := 0x118
abbrev TIL_RSB_HI : Nat := 0x11C
abbrev TIL_RSB_CFG : Nat := 0x120
abbrev TIL_RX_LO : Nat := 0x124
abbrev TIL_RX_HI : Nat := 0x128
abbrev TIL_RX_CFG : Nat := 0x12C
abbrev TIL_RT_INDEX : Nat := 0x130
abbrev TIL_RT_DATA : Nat := 0x134
abbrev TIL_STATUS : Nat := 0x140
abbrev TIL_ACTIVE : Nat := 0x144
abbrev TIL_CNT_TX : Nat := 0x180
abbrev TIL_CNT_RX : Nat := 0x184
abbrev TIL_CNT_FWD : Nat := 0x188
abbrev TIL_CNT_EXPRESS : Nat := 0x18C
abbrev TIL_CNT_DROP_FEC : Nat := 0x190
abbrev TIL_CNT_DROP_HDR : Nat := 0x194
abbrev TIL_CNT_DROP_STALE : Nat := 0x198
abbrev TIL_CNT_DROP_AHEAD : Nat := 0x19C
abbrev TIL_CNT_DROP_MEMBER : Nat := 0x1A0
abbrev TIL_CNT_DROP_ROUTE : Nat := 0x1A4
abbrev TIL_CNT_DROP_HOPS : Nat := 0x1A8
abbrev TIL_CNT_DROP_CRC : Nat := 0x1AC
abbrev TIL_CNT_DROP_JOB : Nat := 0x1B0
abbrev TIL_CNT_DROP_STEP : Nat := 0x1B4
abbrev TIL_CNT_DUP : Nat := 0x1B8
abbrev TIL_CNT_RX_FULL : Nat := 0x1BC
abbrev TIL_CNT_NACK_SENT : Nat := 0x1C0
abbrev TIL_CNT_NACK_RCVD : Nat := 0x1C4
abbrev TIL_CNT_RESENT : Nat := 0x1C8
abbrev TIL_CNT_ACK_TO : Nat := 0x1CC
abbrev TIL_CNT_FAILED : Nat := 0x1D0
abbrev TIL_STALL_RSB : Nat := 0x1E0
abbrev TIL_STALL_CREDIT : Nat := 0x1E4
abbrev TIL_STALL_RX : Nat := 0x1E8

/-! Landing (R332) -/

abbrev LND_CFG : Nat := 0x100
abbrev LND_ACTIVE : Nat := 0x104
abbrev LND_STATUS : Nat := 0x108
abbrev LND_FAULT : Nat := 0x10C
abbrev LND_SLOT (j : Nat) : Nat := 0x140 + 4 * j
abbrev LND_CNT_OPENED : Nat := 0x180
abbrev LND_CNT_DONE : Nat := 0x184
abbrev LND_CNT_PKT_IN : Nat := 0x188
abbrev LND_CNT_PKT_OUT : Nat := 0x18C
abbrev LND_CNT_BLOCKS : Nat := 0x190
abbrev LND_CNT_CLIPPED : Nat := 0x194
abbrev LND_CNT_NONFINITE : Nat := 0x198
abbrev LND_CNT_DUP : Nat := 0x19C
abbrev LND_CNT_SPILL : Nat := 0x1A0
abbrev LND_CNT_DROP : Nat := 0x1A4
abbrev LND_STALL_READY : Nat := 0x1C0
abbrev LND_STALL_MEM : Nat := 0x1C4
abbrev LND_STALL_OUT : Nat := 0x1C8

/-! Optical port (R351) -/

abbrev OPT_CTRL : Nat := 0x100
abbrev OPT_PEER_COORD : Nat := 0x104
abbrev OPT_PEER_PORT : Nat := 0x108
abbrev OPT_SKEW : Nat := 0x10C
abbrev OPT_STATE : Nat := 0x110
abbrev OPT_MARGIN : Nat := 0x114
abbrev OPT_PARTNER : Nat := 0x118
abbrev OPT_PARTNER_PORT : Nat := 0x11C
abbrev OPT_ASYM : Nat := 0x120
abbrev OPT_EVENTS : Nat := 0x124
abbrev OPT_LAT : Nat := 0x128
abbrev OPT_WL (k : Nat) : Nat := 0x130 + 4 * k
abbrev OPT_CAP_LOG : Nat := 0x150
abbrev OPT_SVC_MAC_LO : Nat := 0x154
abbrev OPT_SVC_MAC_HI : Nat := 0x158
abbrev OPT_SVC_TX_LO : Nat := 0x15C
abbrev OPT_SVC_TX_HI : Nat := 0x160
abbrev OPT_SVC_RX_LO : Nat := 0x164
abbrev OPT_SVC_RX_HI : Nat := 0x168
abbrev OPT_SVC_CFG : Nat := 0x16C
abbrev OPT_SVC_SYNC : Nat := 0x170
abbrev OPT_SVC_TX_TAIL : Nat := 0x174
abbrev OPT_SVC_TX_HEAD : Nat := 0x178
abbrev OPT_SVC_RX_TAIL : Nat := 0x17C
abbrev OPT_SVC_RX_HEAD : Nat := 0x180
abbrev OPT_CNT_CW : Nat := 0x184
abbrev OPT_CNT_CORR_SYM : Nat := 0x188
abbrev OPT_CNT_UNCORR : Nat := 0x18C
abbrev OPT_CNT_INNER : Nat := 0x190
abbrev OPT_CNT_CTRL_BAD : Nat := 0x194
abbrev OPT_CNT_HAIL : Nat := 0x198
abbrev OPT_CNT_LOCK_LOSS : Nat := 0x19C
abbrev OPT_CNT_DOWNGRADE : Nat := 0x1A0
abbrev OPT_CNT_UPGRADE : Nat := 0x1A4
abbrev OPT_CNT_DARK : Nat := 0x1A8
abbrev OPT_CNT_SVC_TX : Nat := 0x1AC
abbrev OPT_CNT_SVC_RX : Nat := 0x1B0
abbrev OPT_CNT_SVC_DROP : Nat := 0x1B4

/-! Mailbox block (R384) -/

abbrev MBX_STATE : Nat := 0x100
abbrev MBX_EVENTS : Nat := 0x104
abbrev MBX_EVENT_CFG : Nat := 0x108

/-! Forester and Lookout (R410, R411) -/

abbrev FOR_STATE : Nat := 0x100
abbrev FOR_FW_VERSION : Nat := 0x104
abbrev FOR_MIN_VERSION : Nat := 0x108
abbrev FOR_PROV_GEN : Nat := 0x10C
abbrev FOR_KEYS : Nat := 0x110
abbrev FOR_REJECT : Nat := 0x114
abbrev FOR_EVENTS : Nat := 0x118
abbrev LKO_STATE : Nat := 0x100
abbrev LKO_MAC_LO : Nat := 0x104
abbrev LKO_MAC_HI : Nat := 0x108
abbrev FOR_CNT_BOOTS : Nat := 0x140
abbrev FOR_CNT_REJECTS : Nat := 0x144
abbrev FOR_CNT_MAIN_ON : Nat := 0x148
abbrev FOR_CNT_RECORDS : Nat := 0x14C
abbrev LKO_CNT_RX : Nat := 0x140
abbrev LKO_CNT_DROP : Nat := 0x144
abbrev LKO_CNT_AUTH : Nat := 0x148
abbrev LKO_CNT_REPLAY : Nat := 0x14C
abbrev LKO_CNT_BUSY : Nat := 0x150

/-! Blaze and Tally (R426, R427) -/

abbrev BLZ_STATE : Nat := 0x100
abbrev BLZ_CAUSE : Nat := 0x104
abbrev BLZ_BEAT_LO : Nat := 0x108
abbrev BLZ_BEAT_HI : Nat := 0x10C
abbrev BLZ_MATCH_LO : Nat := 0x110
abbrev BLZ_MATCH_HI : Nat := 0x114
abbrev BLZ_FIRST : Nat := 0x118
abbrev BLZ_CNT_FIRED : Nat := 0x11C
abbrev BLZ_CNT_MISSED : Nat := 0x120
abbrev BLZ_FIRST_SRC : Nat := 0x124
abbrev TLY_HEAD : Nat := 0x100
abbrev TLY_CNT_LOST : Nat := 0x104
abbrev TLY_CNT_MERGED : Nat := 0x108
abbrev TLY_SEL : Nat := 0x10C
abbrev TLY_DATA (i : Nat) : Nat := 0x110 + 4 * i
abbrev TLY_ROLL_LO (e : Nat) : Nat := 0x200 + 8 * e
abbrev TLY_ROLL_HI (e : Nat) : Nat := 0x204 + 8 * e
abbrev TLY_ROLL_BEAT : Nat := 0x270

/-! Common header, global block, memory controllers (R431, R441, R443) -/

abbrev BLK_ID : Nat := 0x000
abbrev BLK_CTRL : Nat := 0x004
abbrev BLK_STATUS : Nat := 0x008
abbrev BLK_CFG_CRC_REF : Nat := 0x00C
abbrev BLK_CFG_CRC_NOW : Nat := 0x010
abbrev BLK_BUSY : Nat := 0x014
abbrev GLB_ARCH : Nat := 0x100
abbrev GLB_COUNTS : Nat := 0x104
abbrev GLB_CORE : Nat := 0x108
abbrev GLB_FORMATS : Nat := 0x10C
abbrev GLB_MEMORY : Nat := 0x110
abbrev GLB_PORTS : Nat := 0x114
abbrev HBC_CFG : Nat := 0x100
abbrev HBC_STATE : Nat := 0x104
abbrev HBC_ERR_LO : Nat := 0x108
abbrev HBC_ERR_HI : Nat := 0x10C
abbrev HBC_CNT_CE : Nat := 0x140
abbrev HBC_CNT_UE : Nat := 0x144
abbrev HBC_CNT_SCRUB_FIX : Nat := 0x148

/-! Power and thermal (R469) -/

abbrev GLB_PWR_STATE : Nat := 0x100
abbrev GLB_PWR_CAP : Nat := 0x104
abbrev GLB_STEP_LIMIT : Nat := 0x108
abbrev GLB_TRIP : Nat := 0x10C
abbrev GLB_THROTTLE : Nat := 0x110
abbrev GLB_EVENTS : Nat := 0x114
abbrev GLB_POWER : Nat := 0x118
abbrev GLB_VOLT : Nat := 0x11C
abbrev GLB_TEMP_TILE (t : Nat) : Nat := 0x120 + 4 * t
abbrev GLB_COOLANT : Nat := 0x140
abbrev GLB_FLOW : Nat := 0x144
abbrev GLB_CNT_STEP_DOWN : Nat := 0x180
abbrev GLB_CNT_STEP_UP : Nat := 0x184
abbrev GLB_CNT_TRIPS : Nat := 0x188
abbrev GLB_CNT_CAP : Nat := 0x18C
abbrev CRU_KEY (i : Nat) : Nat := 0x120 + 4 * i
abbrev RNG_STATE : Nat := 0x100
abbrev RNG_CNT_FAIL : Nat := 0x104

end Sys2Proof.Machine
end

