-- ==== Sys2Proof/Machine/Regs.lean ====
section
/-! DEFINITION. The control-space block map (R430) and the register table of every block: offset, access, writable
bits, reset value, and whether the register is a configuration register (R432). -/
namespace Sys2Proof.Machine

/-- One block instance of R430. -/
inductive Blk where
  | glb | ftb | mbx | fo | lko | blz | tly | rng | pwr
  | til (t : Fin 8)
  | opt (q : PortId)
  | lnd (t : Fin 8)
  | hbc (t : Fin 8) (s : Fin 3)
  | lpc (t : Fin 8) (s : Fin 4)
  | clu (c : ClusterId)
  | cru (c : ClusterId)
  | skd (c : ClusterId)
  | sil (c : ClusterId)
  | cch (c : ClusterId)
  | cor (k : CoreId)
  deriving DecidableEq, Repr

/-- The access codes of R8; RWP is RW in a posted block. -/
inductive Access where
  | rw | ro | rc | wo | dbg
  deriving DecidableEq, Repr

/-- One row of a register table: `cnt` registers at `off`, `off + stride`, … with writable bits `mask`. -/
structure RegRow where
  off : Nat
  acc : Access
  mask : Nat := 0
  reset : Nat := 0
  cfg : Bool := false
  cnt : Nat := 1
  stride : Nat := 4

/-! ## Block map (R430) -/

def tileBase (t : Fin 8) : Nat := 0x10000000 + 0x02000000 * t.val
def clusterBase (c : ClusterId) : Nat := 0x1000000 + (tileBase c.tile + 0x10000 * c.idx.val)

def Blk.base : Blk → Nat
  | .glb => 0 | .ftb => 0x10000 | .mbx => 0x20000 | .fo => 0x60000 | .lko => 0x70000
  | .blz => 0x80000 | .tly => 0x90000 | .rng => 0xA0000 | .pwr => 0xB0000
  | .til t => tileBase t
  | .opt q => 0x100000 + (tileBase q.tile + 0x10000 * q.p.val)
  | .lnd t => 0x180000 + tileBase t
  | .hbc t s => 0x400000 + (tileBase t + 0x10000 * s.val)
  | .lpc t s => 0x500000 + (tileBase t + 0x10000 * s.val)
  | .clu c => clusterBase c
  | .cru c => 0x1000 + clusterBase c
  | .skd c => 0x2000 + clusterBase c
  | .sil c => 0x3000 + clusterBase c
  | .cch c => 0x4000 + clusterBase c
  | .cor k => 0x8000 + (clusterBase ⟨k.tile, k.idx⟩ + 0x400 * k.core.val)

/-- TYPE codes of R430. -/
def Blk.type : Blk → Nat
  | .glb => 0x01 | .mbx => 0x02 | .fo => 0x03 | .lko => 0x04 | .ftb => 0x05 | .blz => 0x06 | .tly => 0x07
  | .rng => 0x08 | .pwr => 0x09 | .til _ => 0x10 | .opt _ => 0x11 | .lnd _ => 0x12 | .hbc .. => 0x13
  | .lpc .. => 0x14 | .clu _ => 0x20 | .cru _ => 0x21 | .skd _ => 0x22 | .sil _ => 0x23 | .cch _ => 0x24
  | .cor _ => 0x25

def Blk.tile : Blk → Nat
  | .til t | .lnd t | .hbc t _ | .lpc t _ => t.val
  | .opt q => q.tile.val
  | .clu c | .cru c | .skd c | .sil c | .cch c => c.tile.val
  | .cor k => k.tile.val
  | _ => 0

def Blk.cluster : Blk → Nat
  | .clu c | .cru c | .skd c | .sil c | .cch c => c.idx.val
  | .cor k => k.idx.val
  | _ => 127

def Blk.index : Blk → Nat
  | .opt q => q.p.val | .hbc _ s => s.val | .lpc _ s => s.val | .cor k => k.core.val | _ => 0

/-- BLK_ID (R431). -/
def Blk.id (b : Blk) : Nat := 1 + b.type * 2 ^ 4 + b.tile * 2 ^ 12 + b.cluster * 2 ^ 15 + b.index * 2 ^ 22

/-- Blocks of the standby domain (R386, R430). -/
def Blk.standby : Blk → Bool
  | .glb | .ftb | .fo | .lko | .blz | .tly | .rng | .pwr => true
  | _ => false

/-- Blocks whose writes are posted (R435). -/
def Blk.posted : Blk → Bool
  | .ftb | .opt _ | .hbc .. | .lpc .. => true
  | _ => false

/-- Blocks whose ENABLE bit is read-only and reads 1 while their domain is powered (R431). -/
def Blk.alwaysOn : Blk → Bool
  | .glb | .mbx | .fo | .lko | .blz | .tly | .rng | .pwr => true
  | _ => false

/-- The cluster block and offset within it of an offset from a cluster base. -/
def clusterBlk (c : ClusterId) (o : Nat) : Blk × Nat :=
  if o < 0x1000 then (.clu c, o)
  else if o < 0x2000 then (.cru c, o - 0x1000)
  else if o < 0x3000 then (.skd c, o - 0x2000)
  else if o < 0x4000 then (.sil c, o - 0x3000)
  else if o < 0x8000 then (.cch c, o - 0x4000)
  else (.cor ⟨c.tile, c.idx, Fin.ofNat 16 ((o - 0x8000) / 0x400)⟩, (o - 0x8000) % 0x400)

/-- The block and offset of a control-space address, if it lies in a block of R430. -/
def blkOfAddr (a : Nat) : Option (Blk × Nat) :=
  let o := a % 0x10000
  if a < 0x10000 then some (.glb, o)
  else if a < 0x20000 then some (.ftb, o)
  else if a < 0x60000 then some (.mbx, a - 0x20000)
  else if a < 0x70000 then some (.fo, o)
  else if a < 0x80000 then some (.lko, o)
  else if a < 0x90000 then some (.blz, o)
  else if a < 0xA0000 then some (.tly, o)
  else if a < 0xB0000 then some (.rng, o)
  else if a < 0xC0000 then some (.pwr, o)
  else if a < 0x10000000 then none
  else if a < 0x20000000 then
    let t : Fin 8 := Fin.ofNat 8 ((a - 0x10000000) / 0x02000000)
    let r := (a - 0x10000000) % 0x02000000
    if r < 0x100000 then some (.til t, r)
    else if r < 0x160000 then some (.opt ⟨t, Fin.ofNat 6 ((r - 0x100000) / 0x10000)⟩, o)
    else if 0x180000 ≤ r ∧ r < 0x190000 then some (.lnd t, o)
    else if 0x400000 ≤ r ∧ r < 0x430000 then some (.hbc t (Fin.ofNat 3 ((r - 0x400000) / 0x10000)), o)
    else if 0x500000 ≤ r ∧ r < 0x540000 then some (.lpc t (Fin.ofNat 4 ((r - 0x500000) / 0x10000)), o)
    else if 0x1000000 ≤ r ∧ r < 0x1500000 ∧ o < 0xC000 then
      some (clusterBlk ⟨t, Fin.ofNat 80 ((r - 0x1000000) / 0x10000)⟩ o)
    else none
  else none

/-! ## Register tables -/

def allBits : Nat := 0xFFFFFFFF
def loMask : Nat := 0xFFFFFFC0
def hiMask : Nat := 0xFFFF

/-- The common header of R431; ENABLE and SNAP_ARM of BLK_CTRL are written by their own commands' rules. -/
def headerRows : List RegRow :=
  [{ off := BLK_ID, acc := .ro }, { off := BLK_CTRL, acc := .rw, mask := 3, reset := 2 },
   { off := BLK_STATUS, acc := .rc }, { off := BLK_CFG_CRC_REF, acc := .rw, mask := allBits },
   { off := BLK_CFG_CRC_NOW, acc := .ro }, { off := BLK_BUSY, acc := .ro },
   { off := 0x20, acc := .ro, cnt := 56 }]

def ro (off : Nat) (reset : Nat := 0) (cnt : Nat := 1) (stride : Nat := 4) : RegRow :=
  { off := off, acc := .ro, reset := reset, cnt := cnt, stride := stride }

def rc (off : Nat) : RegRow := { off := off, acc := .rc }
def wo (off mask : Nat) (cnt : Nat := 1) : RegRow := { off := off, acc := .wo, mask := mask, cnt := cnt }
def dbg (off mask : Nat) : RegRow := { off := off, acc := .dbg, mask := mask }

def rw (off mask : Nat) (reset : Nat := 0) (cnt : Nat := 1) (stride : Nat := 4) : RegRow :=
  { off := off, acc := .rw, mask := mask, reset := reset, cnt := cnt, stride := stride }

def cf (off mask : Nat) (reset : Nat := 0) (cnt : Nat := 1) (stride : Nat := 4) : RegRow :=
  { off := off, acc := .rw, mask := mask, reset := reset, cfg := true, cnt := cnt, stride := stride }

def glbRows : List RegRow :=
  [ro GLB_ARCH 0x111, ro GLB_COUNTS 0x10508, ro GLB_CORE 0x08303040, ro GLB_FORMATS 0x307FF,
   ro GLB_MEMORY 0x40242018, ro GLB_PORTS 0x3FFFF0]

def ftbRows : List RegRow :=
  [cf FTB_CTRL 3, cf FTB_PARENTS 0x3F3F3F3F 0x3F3F3F3F, ro FTB_STATUS 0x3F00, rc FTB_EVENTS,
   rw FTB_BEAT_LO allBits, rw FTB_BEAT_HI allBits, ro FTB_FRAME, ro FTB_FRAME_BEAT,
   cf FTB_FRAME_LEN 0x1FFF, cf FTB_HORIZON 0xFFFF 0x10, cf FTB_ORIGIN_LO allBits, cf FTB_ORIGIN_HI allBits,
   cf FTB_ORIGIN_FRAME allBits, ro FTB_OFFSET, ro FTB_PATH_DELAY, ro FTB_CUR_EXT, ro FTB_CNT_SLIPS,
   ro FTB_CNT_SENT, ro FTB_CNT_DUP, ro FTB_LAST_SLIP, ro FTB_LAST_SRC,
   rw (FTB_PLAN_LO 0) 0xFFFFFFC1 0 16 0x20, rw (FTB_PLAN_HI 0) hiMask 0 16 0x20,
   rw (FTB_NEXT_LO 0) 0xFFFFFFC1 0 16 0x20, rw (FTB_NEXT_HI 0) hiMask 0 16 0x20,
   rw (FTB_SWITCH_STEP 0) allBits 0 16 0x20, ro (FTB_STEP 0) 0 16 0x20, ro (FTB_STEP_SLIPS 0) 0 16 0x20]

def mbxRows : List RegRow := [ro MBX_STATE 1, rc MBX_EVENTS, rw MBX_EVENT_CFG 0x7F]

def foRows : List RegRow :=
  [ro FOR_STATE, ro FOR_FW_VERSION, ro FOR_MIN_VERSION, ro FOR_PROV_GEN, ro FOR_KEYS, ro FOR_REJECT, rc FOR_EVENTS,
   ro FOR_CNT_BOOTS 0 4]

def lkoRows : List RegRow := [ro LKO_STATE, ro LKO_MAC_LO, ro LKO_MAC_HI, ro LKO_CNT_RX 0 5]

def blzRows : List RegRow := [ro BLZ_STATE 0 10]

def tlyRows : List RegRow :=
  [ro TLY_HEAD, ro TLY_CNT_LOST, ro TLY_CNT_MERGED, rw TLY_SEL allBits, ro (TLY_DATA 0) 0 8,
   ro (TLY_ROLL_LO 0) 0 28, ro TLY_ROLL_BEAT]

def rngRows : List RegRow := [ro RNG_STATE, ro RNG_CNT_FAIL]

def pwrRows : List RegRow :=
  [ro GLB_PWR_STATE, rw GLB_PWR_CAP 0xFFFF 0x4650, rw GLB_STEP_LIMIT 3,
   { off := GLB_TRIP, acc := .ro, reset := 0x376973, cfg := true },
   rw GLB_THROTTLE allBits 0x555F5A64, rc GLB_EVENTS, ro GLB_POWER, ro GLB_VOLT, ro (GLB_TEMP_TILE 0) 0 8,
   ro GLB_COOLANT, ro GLB_FLOW, ro GLB_CNT_STEP_DOWN 0 4]

def tilRows : List RegRow :=
  [cf TIL_COORD allBits, cf TIL_GEN 0xFFFF, cf TIL_CFG 0x7F 0x20, cf TIL_GAP 0xFFFFFF 0x4E20,
   cf TIL_ACK_TO 0xFFFFFF 0x186A0, cf TIL_RETRY 0xF 8, cf TIL_RSB_LO loMask, cf TIL_RSB_HI hiMask,
   cf TIL_RSB_CFG 0x7FF 0x40, cf TIL_RX_LO loMask, cf TIL_RX_HI hiMask, cf TIL_RX_CFG 0x7FF,
   rw TIL_RT_INDEX 0xFFF, cf TIL_RT_DATA allBits, rc TIL_STATUS, ro TIL_ACTIVE, ro TIL_CNT_TX 0 21,
   ro TIL_STALL_RSB 0 3]

def optRows : List RegRow :=
  [cf OPT_CTRL 0x7FFFF 0x2FFFF, cf OPT_PEER_COORD allBits, cf OPT_PEER_PORT 0x7F, cf OPT_SKEW 0xFFFF,
   ro OPT_STATE, ro OPT_MARGIN, ro OPT_PARTNER, ro OPT_PARTNER_PORT, ro OPT_ASYM, rc OPT_EVENTS, ro OPT_LAT,
   ro (OPT_WL 0) 0 8, ro OPT_CAP_LOG, cf OPT_SVC_MAC_LO allBits, cf OPT_SVC_MAC_HI hiMask,
   cf OPT_SVC_TX_LO loMask, cf OPT_SVC_TX_HI hiMask, cf OPT_SVC_RX_LO loMask, cf OPT_SVC_RX_HI hiMask,
   cf OPT_SVC_CFG 0xFF, cf OPT_SVC_SYNC 0xFFFFF, rw OPT_SVC_TX_TAIL 0xFFFF, ro OPT_SVC_TX_HEAD,
   rw OPT_SVC_RX_TAIL 0xFFFF, ro OPT_SVC_RX_HEAD, ro OPT_CNT_CW 0 13]

def lndRows : List RegRow :=
  [cf LND_CFG 0x1FF 0x100, ro LND_ACTIVE, rc LND_STATUS, ro LND_FAULT, rw (LND_SLOT 0) 0x1FFF 0 16,
   ro LND_CNT_OPENED 0 10, ro LND_STALL_READY 0 3]

def memCtlRows : List RegRow :=
  [cf HBC_CFG 0xFF01 0x1801, ro HBC_STATE, ro HBC_ERR_LO, ro HBC_ERR_HI, ro HBC_CNT_CE 0 3]

def cluRows : List RegRow :=
  [rw CLU_PROFILE 1, ro CLU_XLAT_LO, ro CLU_XLAT_HI, ro CLU_XLAT_GEN, ro CLU_FRAME,
   cf (BAR_CFG 0) 0xFFFF 0 8 0x10, ro (BAR_STATE 0) 0 8 0x10, ro (BAR_PHASE 0) 0 8 0x10,
   ro (BAR_CNT_DONE 0) 0 8 0x10, rw BAR_WDOG 0xFFFFF 0x3E8, rc BAR_STATUS, ro BAR_CNT_EARLY, ro BAR_CNT_TIMEOUT]

def cruRows : List RegRow :=
  [cf CRU_JOB 0xFFF, rw CRU_EPOCH 0xFFFFFF, cf CRU_OMAP_LO loMask, cf CRU_OMAP_HI hiMask, ro CRU_OMAP_STATUS,
   { off := CRU_KEY 0, acc := .wo, mask := allBits, cfg := true, cnt := 8 },
   wo CRU_QUEUE_LO loMask, wo CRU_QUEUE_HI hiMask, ro CRU_QUEUE_LEVEL, rc CRU_STATUS, ro CRU_ACTIVE,
   cf (CRU_STAND_LO 0) 0xFFFFFFC1 0 8 8, cf (CRU_STAND_HI 0) hiMask 0 8 8, ro CRU_CNT_SEEDS 0 20]

def skdRows : List RegRow :=
  [cf SKD_JOB 0xFFF, cf SKD_BANK_CAP 0x1FF 0x100, cf SKD_OMAP_LO loMask, cf SKD_OMAP_HI hiMask, ro SKD_OMAP_STATUS,
   cf SKD_RRC_LO 0xFFFFFFC1, cf SKD_RRC_HI hiMask, cf SKD_RRC_CFG 0x1FFFFFF,
   wo SKD_QUEUE_LO loMask, wo SKD_QUEUE_HI hiMask, ro SKD_QUEUE_LEVEL, rc SKD_STATUS, ro SKD_ACTIVE,
   cf (SKD_TABLE_LO 0) 0xFFFFFFC3 0 8 8, cf (SKD_TABLE_HI 0) hiMask 0 8 8,
   rw (SKD_APPLIED 0) allBits 0xFFFFFFFF 8, ro SKD_CNT_ENTRIES 0 21]

def silRows : List RegRow :=
  [cf SIL_JOB 0xFFF, cf SIL_SCR 0x3FFFFF, cf SIL_SPILL_LO loMask, cf SIL_SPILL_HI hiMask, cf SIL_SPILL_CFG 0xFFFF,
   cf SIL_WAIT 0xFFFFF 0x3E8, wo SIL_QUEUE_LO loMask, wo SIL_QUEUE_HI hiMask, ro SIL_QUEUE_LEVEL, rc SIL_STATUS,
   ro SIL_ACTIVE, ro SIL_TRAILS, ro SIL_PARK_BYTES 0x40, wo SIL_PARK_LO loMask, wo SIL_PARK_HI hiMask,
   wo SIL_ADOPT_LO loMask, wo SIL_ADOPT_HI hiMask, cf (SIL_APPLY_LO 0) 0xFFFFFFC1 0 8 8,
   cf (SIL_APPLY_HI 0) hiMask 0 8 8, rw (SIL_APPLY_DONE 0) allBits 0xFFFFFFFF 8, ro SIL_CNT_TRAILS 0 15,
   ro SIL_STALL_SPACE 0 4]

def cchRows : List RegRow :=
  [cf CCH_PF_CFG 0x1FF 0x120, ro CCH_ACTIVE, rc CCH_STATUS, ro CCH_CNT_HITS 0 10]

def corRows : List RegRow :=
  [cf COR_PROG 0x3FFFF, cf COR_ENTRY 0x7FFFC, cf COR_SLOT_CFG 0x1F0F 0x80C, ro COR_STATE, ro COR_PC, ro COR_FAULT,
   ro COR_FAULT_ADDR_LO, ro COR_FAULT_ADDR_HI, ro COR_SLOTS, ro COR_FRAME_USED 0xFFFFFFFF, ro COR_STEP_BEATS,
   ro COR_STEP_COUNT, ro COR_CNT_INSTR 0 16,
   ro (SYN_OBJ 0) 0 48, ro SYN_STATE, ro SYN_ERROR, rw SYN_WDOG 0xFFFFF 0x3E8, ro SYN_CNT_SIGNALS 0 4,
   ro MTX_STATE, ro MTX_FAULT, ro MTX_WQ_CFG, ro MTX_WQ_HEAD, ro MTX_WQ_TAIL, dbg MTX_ACC_SEL 0x1FFFF,
   dbg MTX_ACC_DATA 0, dbg MTX_ACC_INFO 0, ro MTX_CNT_DENSE_CYC 0 12,
   ro VEC_CAPS 0x40, ro VEC_STATE, ro VEC_FLAGS, ro VEC_FAULT, dbg VEC_REG_SEL 0x7FF, dbg VEC_REG_DATA allBits,
   ro VEC_CNT_INSTR 0 6, ro VEC_STALL_DEP 0 4]

/-- The rows of a block, its own after the header's. -/
def Blk.ownRows : Blk → List RegRow
  | .glb => glbRows | .ftb => ftbRows | .mbx => mbxRows | .fo => foRows | .lko => lkoRows | .blz => blzRows
  | .tly => tlyRows | .rng => rngRows | .pwr => pwrRows | .til _ => tilRows | .opt _ => optRows | .lnd _ => lndRows
  | .hbc .. => memCtlRows | .lpc .. => memCtlRows | .clu _ => cluRows | .cru _ => cruRows | .skd _ => skdRows
  | .sil _ => silRows | .cch _ => cchRows | .cor _ => corRows

def RegRow.has (r : RegRow) (o : Nat) : Bool :=
  decide (r.off ≤ o) && (o - r.off) % r.stride == 0 && decide ((o - r.off) / r.stride < r.cnt)

/-- The row of the register at offset `o` of block `b`; none for a reserved offset. -/
def Blk.row? (b : Blk) (o : Nat) : Option RegRow :=
  if o < 0x100 then headerRows.find? (·.has o) else b.ownRows.find? (·.has o)

/-- Is `o` the vector control word of an MSI-X table entry (R368)? -/
def msixControl (o : Nat) : Bool := decide (0x1000 ≤ o) && decide (o < 0x1400) && o % 16 == 12

/-- The reset value of the register at offset `o` of `b` (R9); 0 at a reserved offset. MSI-X vectors start masked, as PCIe
has it (PRESUMED, log entry 43). -/
def Blk.resetOf (b : Blk) (o : Nat) : Nat :=
  match b.row? o with
  | some r => r.reset
  | none => if b = .mbx ∧ msixControl o = true then 1 else 0

/-- The reset value of the register at a control-space address. -/
def resetAt (a : Nat) : W32 :=
  match blkOfAddr a with
  | some (b, o) => BitVec.ofNat 32 (b.resetOf o)
  | none => 0

def insertNat (x : Nat) : List Nat → List Nat
  | [] => [x]
  | y :: t => if x ≤ y then x :: y :: t else y :: insertNat x t

/-- The offsets of a block's configuration registers in ascending order (R434), the route table apart. -/
def Blk.cfgOffsets (b : Blk) : List Nat :=
  ((b.ownRows.filter (·.cfg)).flatMap fun r => (upFrom 0 r.cnt).map fun i => r.off + r.stride * i).foldr insertNat []

end Sys2Proof.Machine
end

