-- ==== Sys2Proof/Machine/State.lean ====
section
/-! DEFINITION. The machine's state as plain data, the reasons a step can stop, and the state after reset. -/
namespace Sys2Proof.Machine

/-- Reasons the machine stops with a fault. No command of this block raises one: what the spec calls a fault is a
next state. Safe. -/
inductive Fault where
  /-- Raised by nothing; kept so that the type is inhabited. Safe: it never ends a run. -/
  | none
  deriving DecidableEq, Repr

/-- Reasons a command has no meaning here. -/
inductive Refusal where
  /-- Raised by an arm of exec whose command has no meaning yet, named as in the table. Safe: the run stops. -/
  | notModelled (mnemonic : String)
  deriving DecidableEq, Repr

/-! ## Core -/

/-- The three engine queues of a core (R145). -/
inductive EngineId where
  | mtx | vec | dma
  deriving DecidableEq, Repr

/-- A DMA descriptor as read at issue (R156), with the scratch offset it came from. -/
structure DmaDesc where
  srcLocal : Bool
  dstLocal : Bool
  fill : Bool
  ordered : Bool
  doneCore : Fin 16
  doneSync : Nat
  src : Nat
  dst : Nat
  rowBytes : Nat
  rows : Nat
  srcStride : Nat
  dstStride : Nat
  offset : Nat
  deriving DecidableEq, Repr

/-- Element-wise forms (R223). -/
inductive EwOp where
  | vadd | vsub | vmul | vfma | vmin | vmax | vdiv | vsqrt | vrcp | vexp | vlog | vtanh | vsigm | vabs | vneg
  | vcmpeq | vcmplt | vcmple | vcmpne | vsel | vand | vor | vxor | vshl | vshr | vmov | vldexp | vresadd | vupd
  | vcvtw | vcvtn | vcvts | vbern
  deriving DecidableEq, Repr

/-- Cross-lane forms (R226 to R231). -/
inductive ClOp where
  | vperm | vrsum | vrssq | vrmax | vrmin | vrcnt | vmv | vmvcomb | vsmstat | vsmmerge | vsmexp | vsmnorm
  deriving DecidableEq, Repr

/-- A vector instruction in its queue, with the general registers it names as read at issue; `ecc` is what SECDED will
find in the scratch words it reads (R153). -/
inductive VOp where
  | ew (f : EwOp) (x : VForm)
  | cl (f : ClOp) (x : VForm)
  | ld (vd : Fin 32) (base stride : Nat) (imm : Nat) (ecc : Ecc)
  | st (vs : Fin 32) (base stride : Nat) (imm : Nat) (ecc : Ecc)
  | cfg (vl vfmt : Nat)
  | sum (rd va : Fin 32) (func : Nat)
  | smcfg (v : Nat)
  | smread (rd : Fin 32) (entry : Nat)
  | smcommit (entry value : Nat)
  | rngset (off : Nat) (ecc : Ecc)
  | bad (reason : Nat)
  deriving DecidableEq, Repr

/-- A matrix instruction in its queue; descriptor offsets are formed at issue, and `ecc` is what SECDED will find in the
scratch words it reads (R153). -/
inductive MOp where
  | begin_ (group : Fin 4) (kind : Fin 4)
  | macc (group : Fin 4) (off : Nat) (ecc : Ecc)
  | mend (group : Fin 4) (off : Nat) (ecc : Ecc)
  | abort (group : Fin 4)
  deriving DecidableEq, Repr

/-- An entry of an engine queue; `pc` is the address of the instruction that issued it. -/
inductive QEntry where
  | vec (op : VOp) (pc : Nat)
  | mtx (op : MOp) (pc : Nat)
  | dma (d : DmaDesc)
  | sig (core : Fin 16) (obj amount : Nat)
  | wait (obj thr due : Nat) (reported : Bool)
  deriving DecidableEq, Repr

/-- What the control core waits for; nothing issues meanwhile. -/
inductive Stall where
  | none
  | swait (obj thr due : Nat) (reported : Bool)
  | bwait (bar since : Nat) (reported : Bool)
  | barr (bar since : Nat) (reported thenWait : Bool)
  | fence
  | halt
  | summary (rd : Fin 32)
  deriving DecidableEq, Repr

/-- A byte of a copy that has been read and whose destination word is not whole yet: its row, its place in the row, and its
value. -/
structure HeldByte where
  row : Nat
  pos : Nat
  val : Byte
  deriving DecidableEq, Repr

/-- A descriptor in progress (R158): its number among those in progress, the row and the byte of the row that its next access
begins at, where the accesses begin that it has passed because their banks are at the cap (R163), and the bytes that wait for
the rest of their destination words. -/
structure DmaRun where
  id : Nat
  desc : DmaDesc
  row : Nat
  pos : Nat
  passed : List (Nat × Nat)
  held : List HeldByte
  deriving DecidableEq, Repr

/-- One access of a copy (R162): the descriptor in progress it belongs to, its row and the byte of the row it begins at, its module
data addresses (a fill reads nothing) and its length, within one 256-byte chunk of each job side. -/
structure DmaPiece where
  run : Nat
  row : Nat
  pos : Nat
  src : Nat
  dst : Nat
  len : Nat
  deriving DecidableEq, Repr

/-- What a request slot holds (R162). Addresses are module data addresses; `job` is the job address. A DMA access holds
one slot for the chunk it reads and one for the chunk it writes. -/
inductive SlotUse where
  | load (rd : Fin 32) (size job addr : Nat)
  | store (size job addr value : Nat)
  | prefetch (job addr : Nat)
  | dma (p : DmaPiece) (write : Bool)
  deriving DecidableEq, Repr

/-- A held request slot; slots stand in the order they were taken. -/
structure Slot where
  id : Nat
  use : SlotUse
  deriving DecidableEq, Repr

/-- A cached translation (R164): the page's job base and size, its module base, and its rights. -/
structure Xlat where
  jobBase : Nat
  size : Nat
  base : Nat
  writable : Bool
  prefetchOk : Bool
  deriving DecidableEq, Repr

/-- An accumulation group (R174): per cell (16 rows by 64 columns, key 64 m + n) the carry stack, top first. -/
structure Group where
  isOpen : Bool
  kind : Nat
  kcount : Nat
  cells : SMap (List (Nat × Nat))
  deriving DecidableEq, Repr

def Group.closed : Group := ⟨false, 0, 0, []⟩

/-- A scale-manager entry (R203). -/
structure SmEntry where
  headroom : Nat
  initExp : Int
  hist : List Nat
  ptr : Nat
  stepMax : Nat
  deriving DecidableEq, Repr

def SmEntry.reset : SmEntry := ⟨1, 0, List.replicate 16 0, 0, 0⟩

/-- The generator state (R243, R245). -/
structure GenState where
  seed : W64
  stream : W64
  base : W64
  stride : W64
  auto : Bool
  deriving DecidableEq, Repr

def GenState.reset : GenState := ⟨0, 0, 0, 1, false⟩

/-- A pending resume left by a context restore (R457). -/
structure Resume where
  pc : Nat
  keepGroups : Bool
  deriving DecidableEq, Repr

/-- One core, its registers of the control space apart. -/
structure Core where
  gpr : SMap W32
  vreg : SMap W32
  slots : List Slot
  dmaRun : List DmaRun
  dmaQ : List QEntry
  mtxQ : List QEntry
  vecQ : List QEntry
  stall : Stall
  tlb : List Xlat
  groups : List Group
  activeArray : Nat
  vl : Nat
  vfmt : Nat
  sm : SMap SmEntry
  gen : GenState
  stepMarkAt : Nat
  framesMarked : Bool
  resume : Option Resume
  jobStopped : Bool
  deriving DecidableEq, Repr

def Core.reset : Core :=
  { gpr := [], vreg := [], slots := [], dmaRun := [], dmaQ := [], mtxQ := [], vecQ := [], stall := .none, tlb := [],
    groups := List.replicate 4 Group.closed, activeArray := 1, vl := 0, vfmt := 0, sm := [], gen := GenState.reset,
    stepMarkAt := 0, framesMarked := false, resume := none, jobStopped := false }

/-! ## Cluster cache and prefetchers -/

/-- A line held by the cluster cache: its module data line number, whether it is dirty, and whether a prefetch
brought it and no access has used it. -/
structure CacheLine where
  line : Nat
  dirty : Bool
  prefetched : Bool
  deriving DecidableEq, Repr

/-- A stream prefetcher (R166): the training core, direction, last demanded job line, the furthest line asked for, the
lines that wait for a slot, and the translations it holds, by 2 MiB of job address (R167). -/
structure Stream where
  core : Fin 16
  ascending : Bool
  last : Nat
  furthest : Nat
  waiting : List Nat
  pages : List (Nat × Option Xlat)
  deriving DecidableEq, Repr

/-- The demand misses of one core that no stream has taken up (R166), job line numbers, newest first. -/
structure MissTrack where
  core : Fin 16
  lines : List Nat
  deriving DecidableEq, Repr

/-- One cluster's shared parts, its registers apart: cache sets (ways newest first), streams (most recently advanced
first), miss tracks, lines lost to a double-bit error while dirty, and the writes of CLU_PROFILE.ON that have not taken
effect, newest first, each with its beat (R169, R275). -/
structure Cluster where
  sets : SMap (List CacheLine)
  streams : List Stream
  misses : List MissTrack
  poisoned : List Nat
  profileAt : List (Nat × Bool)
  deriving DecidableEq, Repr

def Cluster.reset : Cluster := ⟨[], [], [], [], []⟩

/-! ## Plans, job slots and the time base -/

/-- A plan entry (R277). -/
structure PlanEntry where
  frameOfs : Nat
  deadlineOfs : Nat
  beat : Nat
  kind : Nat
  xfer : Nat
  peer : Nat
  src : Nat
  dst : Nat
  length : Nat
  sync : Nat
  param : Nat
  deriving DecidableEq, Repr

/-- An accepted plan record (R276); `tiles` holds the entries of tiles 0 to 7, and `raw` the bytes of header and entry array as
they were installed (R402). -/
structure Plan where
  job : Nat
  frameUnits : Nat
  stepFrames : Nat
  startFrame : Nat
  firstStep : Nat
  tiles : List (List PlanEntry)
  raw : List Byte
  deriving DecidableEq, Repr

/-- An entry of a step: tile, index in the tile's entries, and step. -/
structure Mark where
  tile : Nat
  idx : Nat
  step : Nat
  deriving DecidableEq, Repr

/-- A window that a cluster has used for a destination. -/
structure WinUse where
  mark : Mark
  cluster : Nat
  dst : Nat
  deriving DecidableEq, Repr

/-- Batches of a window that have arrived at a cluster (R280). -/
structure WinCount where
  mark : Mark
  cluster : Nat
  count : Nat
  deriving DecidableEq, Repr

/-- Why a job stops. -/
inductive StopKind where
  | command | fault | lookout
  deriving DecidableEq, Repr

/-- A stop latched for a frame boundary (R275, R363). -/
structure StopReq where
  kind : StopKind
  cause : Nat
  source : Nat
  blazed : Bool
  at_ : Nat
  deriving DecidableEq, Repr

/-- The stop record of a slot (R383). -/
structure StopRecord where
  job : Nat
  kind : Nat
  cause : Nat
  frame : Nat
  deriving DecidableEq, Repr

/-- A job slot: its plan, its next plan with the beat at which that was asked for, and the plans of earlier steps, newest
first; the clusters that commands have given it; whether its job is waiting for its start frame, running or stopped; its
step and the frame in which that began. Of the entries of the steps entered: those not yet taken, those whose deadline has
still to pass, the EXPECT and REDUCE entries that are complete, the windows opened, the EXPECT entries that wait. `stops` holds the
stops latched, oldest first. -/
structure JobSlot where
  job : Nat
  clusters : List Nat
  plan : Option Plan
  nextPlan : Option Plan
  nextAt : Nat
  oldPlans : List Plan
  starting : Bool
  running : Bool
  stopped : Option StopKind
  snapHeld : Bool
  step : Nat
  stepFrame : Nat
  stops : List StopReq
  owed : List Mark
  watch : List Mark
  done : List Mark
  opened : List Mark
  waiting : List Mark
  winCounts : List WinCount
  winUses : List WinUse
  record : StopRecord
  deriving DecidableEq, Repr

def JobSlot.empty : JobSlot :=
  { job := 0, clusters := [], plan := none, nextPlan := none, nextAt := 0, oldPlans := [], starting := false, running := false,
    stopped := none, snapHeld := false, step := 0, stepFrame := 0, stops := [], owed := [], watch := [], done := [], opened := [],
    waiting := [], winCounts := [], winUses := [],
    record := ⟨0, 0, 0, 0⟩ }

/-- A fabric capacity event (R347): `frame` is its effective frame. -/
structure CapEvent where
  coord : Nat
  port : Nat
  oldMode : Nat
  newMode : Nat
  origin : Nat
  frame : Nat
  deriving DecidableEq, Repr

/-- A slip token: frame, the n that it asks for, and its originator (R284). -/
structure Slip where
  frame : Nat
  n : Nat
  src : Nat
  deriving DecidableEq, Repr

/-- The time base, its registers apart: consecutive offsets within a beat, when a parent was last heard, when holdover
began and whether its limit was met, whether it was ever locked, beats still to slew, the start of the current frame, whether the frames have
begun, whether the frame was checked as it now stands, tokens seen, tokens for later frames, n of past frames, capacity
words seen, logged as received, and waiting for their frame, and FTB_BEAT_HI as latched. -/
structure TimeBase where
  inRange : Nat
  lastHeard : Nat
  holdSince : Nat
  limitMet : Bool
  wasLocked : Bool
  slew : Int
  slewAt : Nat
  frameStart : Nat
  begun : Bool
  checked : Bool
  seen : List Slip
  ahead : List Slip
  past : List Slip
  capSeen : List CapEvent
  capLogged : List CapEvent
  capNext : List CapEvent
  hiLatch : Nat
  deriving DecidableEq, Repr

def TimeBase.reset : TimeBase := ⟨0, 0, 0, false, false, 0, 0, 0, false, false, [], [], [], [], [], [], 0⟩

/-! ## Tally and Blaze -/

/-- A Tally entry (R419), with the frame or aligned interval in which it was written (R422). -/
structure TallyEntry where
  beat : Nat
  cycle : Nat
  source : Nat
  code : Nat
  level : Nat
  untimed : Bool
  repeats : Nat
  args : List Nat
  inFrame : Bool
  era : Nat
  mergeable : Bool
  deriving DecidableEq, Repr

/-- Tally: the ring (oldest first), the service queue, discards since the last report, the totals of the roll-up with
the counters as the last refresh found them, the clock of that refresh, jobs stopped by fault since, the clock of the last
periodic refresh, and each TLY_ROLL_HI as latched. -/
structure Tally where
  ring : List TallyEntry
  queue : List TallyEntry
  lostSince : Nat
  rollTotal : List Nat
  rollPrev : SMap W32
  rollMark : Nat
  jobFaults : Nat
  rollAt : Nat
  rollHiLatch : SMap Nat
  deriving DecidableEq, Repr

def Tally.reset : Tally := ⟨[], [], 0, List.replicate 14 0, [], 0, 0, 0, []⟩

/-- Blaze, its registers apart: the beat of the trigger that fired it and a latch that its trigger beat has not
reached. -/
structure Blaze where
  firedAt : Nat
  latchAt : Option Nat
  deriving DecidableEq, Repr

/-! ## Cruiser (R49 to R77) -/

/-- An entry of an owner map's range table (R25). -/
structure OwnerRange where
  first : Nat
  owner : Nat
  base : Nat
  deriving DecidableEq, Repr

/-- A loaded owner map (R24). -/
structure OwnerMap where
  modules : List Nat
  ranges : List OwnerRange
  deriving DecidableEq, Repr

def OwnerMap.empty : OwnerMap := ⟨[], []⟩

/-- A slot of a plot (R56). -/
structure SlotVal where
  node : Nat
  attr : Nat
  edge : Nat
  owner : Nat
  real : Bool
  deriving DecidableEq, Repr

def SlotVal.null : SlotVal := ⟨0xFFFFFFFFFF, 0, 0xFFFFFFFFFFFF, 0xFFF, false⟩

/-- A cruise descriptor as dequeued (R50). -/
structure CruDesc where
  addr : Nat
  mode : Nat
  dedup : Bool
  walkWeighted : Bool
  hops : Nat
  standSlot : Nat
  done : Nat
  seedCount : Nat
  fanout : Nat
  step : Nat
  sampler : Nat
  walkSteps : Nat
  seeds : Nat
  plot : Nat
  walkerBase : Nat
  deriving DecidableEq, Repr

/-- A sampling act whose adjacency is being fetched: for the plot in progress (`serve` none), the parent indices it
fills; for a served batch, its number and the request's index. `left` fetches remain. -/
structure CruAct where
  serve : Option Nat
  parents : List Nat
  node : Nat
  row : Nat
  walker : Nat
  left : Nat
  deriving DecidableEq, Repr

/-- One request of a batch sent to an owner: node, walker, and the parents that wait for it. -/
structure CruAsk where
  node : Nat
  walker : Nat
  parents : List Nat
  deriving DecidableEq, Repr

/-- A request batch sent and not answered (R70). -/
structure CruReq where
  dst : Nat
  asks : List CruAsk
  deriving DecidableEq, Repr

/-- A reply record (R71): node, cause and entries. -/
structure CruRecord where
  node : Nat
  cause : Nat
  slots : List SlotVal
  deriving DecidableEq, Repr

/-- A request batch being served (R72). -/
structure CruServe where
  id : Nat
  src : Nat
  job : Nat
  mode : Nat
  standSlot : Nat
  step : Nat
  epoch : Nat
  sampler : Nat
  hop : Nat
  fanout : Nat
  weighted : Bool
  records : List (Option CruRecord)
  deriving DecidableEq, Repr

/-- The plot in progress: finished levels, the blocks of the hop in progress by parent index, and its counts. -/
structure CruPlot where
  desc : CruDesc
  epoch : Nat
  stand : Nat
  fans : List Nat
  hop : Nat
  levels : List (List SlotVal)
  blocks : SMap (List SlotVal)
  reqs : List CruReq
  sentinel : Nat
  beyond : Nat
  deleted : Nat
  badWeights : Nat
  deriving DecidableEq, Repr

/-- A Cruiser, its registers apart. -/
structure Cruiser where
  queue : List Nat
  map : OwnerMap
  plot : Option CruPlot
  own : List CruAct
  served : List CruAct
  running : List CruAct
  serves : List CruServe
  nextId : Nat
  ownTurn : Bool
  deriving DecidableEq, Repr

def Cruiser.reset : Cruiser := ⟨[], OwnerMap.empty, none, [], [], [], [], 0, true⟩

/-! ## Skidder (R79 to R101) and tables (R124 to R144) -/

/-- A decoded array reference (R21); `bases` is its stripe list, empty for a contiguous array. -/
structure ArrRef where
  word : Nat
  addr : Nat
  stripes : Nat
  granule : Nat
  bases : List Nat
  deriving DecidableEq, Repr

/-- A table descriptor as read (R124). -/
structure Table where
  rowUnits : Nat
  shard : Nat
  fmt : Nat
  elements : Nat
  scaleExp : Int
  rows : Nat
  globalRows : Nat
  pointers : ArrRef
  slots : ArrRef
  slotCount : Nat
  default_ : Nat
  deriving DecidableEq, Repr

/-- A haul descriptor as dequeued (R80). -/
structure SkdDesc where
  addr : Nat
  ctrl : Nat
  done : Nat
  first : Nat
  count : Nat
  step : Nat
  mask : Nat
  source : Nat
  report : Nat
  offset : Nat
  stride : Nat
  ext : Nat
  rows : Nat
  deriving DecidableEq, Repr

/-- The pooling extension record of a haul (R138), with its offsets as read. -/
structure SkdPool where
  wfmt : Nat
  weights : Nat
  offset : Nat
  stride : Nat
  rows : Nat
  offsets : List Nat
  deriving DecidableEq, Repr

/-- What became of a dedup group. -/
inductive GroupEnd where
  | pending | filled | emptied
  deriving DecidableEq, Repr

/-- A dedup group other than group 0: its first entry, its owner (coordinate and module-table index), its local row. -/
structure SkdGroup where
  first : Nat
  mine : Bool
  owner : Nat
  ownerIdx : Nat
  row : Nat
  ends : GroupEnd
  deriving DecidableEq, Repr

/-- A descriptor in progress: `map` is the group of each entry, `groups` groups 1 and up. -/
structure SkdHaul where
  id : Nat
  desc : SkdDesc
  pool : Option SkdPool
  table : Table
  map : List Nat
  groups : List SkdGroup
  sentinel : Nat
  beyond : Nat
  current : Nat
  maskOff : Nat
  trail : Option Nat
  deriving DecidableEq, Repr

/-- Whom a row read serves: a group of a haul in progress, the cluster cache for a prefetch descriptor (R96), or a
record of a haul being served. -/
inductive RowUse where
  | own (haul group : Nat)
  | warm (haul : Nat)
  | served (serve idx : Nat)
  deriving DecidableEq, Repr

/-- A row read that waits for the gate of R95. -/
structure RowWait where
  use : RowUse
  slot : Nat
  step : Nat
  gated : Bool
  table : Table
  row : Nat
  have_ : Option Nat
  deriving DecidableEq, Repr

/-- A row read begun in frame `frame`: `left` are the chunks that have not returned. -/
structure RowRead where
  use : RowUse
  table : Table
  row : Nat
  src : Nat
  version : Nat
  frame : Nat
  left : List Nat
  deriving DecidableEq, Repr

/-- A request for a remote row: for a step's haul, or a prefetch request. -/
structure SkdAsk where
  slot : Nat
  units : Nat
  haul : Nat
  group : Nat
  row : Nat
  owner : Nat
  ownerIdx : Nat
  have_ : Option Nat
  deriving DecidableEq, Repr

/-- Requests gathered for a step's hauls. -/
structure SkdGather where
  step : Nat
  ask : SkdAsk
  deriving DecidableEq, Repr

/-- A haul or prefetch request sent and not answered. -/
structure SkdSent where
  dst : Nat
  step : Nat
  prefetch : Bool
  asks : List SkdAsk
  deriving DecidableEq, Repr

/-- One record of a haul being served; `answer` holds its cause, version and bytes. -/
structure SkdRecord where
  slot : Nat
  units : Nat
  row : Nat
  answer : Option (Nat × Nat × List Byte)
  deriving DecidableEq, Repr

/-- A haul being served (R94); `sections` are slot, ROW_UNITS and count. -/
structure SkdServe where
  id : Nat
  src : Nat
  job : Nat
  step : Nat
  prefetch : Bool
  sections : List (Nat × Nat × Nat)
  records : List SkdRecord
  deriving DecidableEq, Repr

/-- A Skidder, its registers apart: waiting chunks of own and served reads in sorted order, and chunks in flight. -/
structure Skidder where
  queue : List Nat
  map : OwnerMap
  hauls : List SkdHaul
  gather : List SkdGather
  sent : List SkdSent
  serves : List SkdServe
  waits : List RowWait
  reads : List RowRead
  ownQ : List Nat
  servedQ : List Nat
  running : List Nat
  ownTurn : Bool
  nextId : Nat
  epoch : Nat
  ways : SMap Nat
  deriving DecidableEq, Repr

def Skidder.reset : Skidder :=
  { queue := [], map := OwnerMap.empty, hauls := [], gather := [], sent := [], serves := [], waits := [], reads := [],
    ownQ := [], servedQ := [], running := [], ownTurn := true, nextId := 0, epoch := 0, ways := [] }

/-! ## Sillage (R102 to R123) -/

/-- A trail record (R103): `run` is its run of the ring once allocated, `since` the time at which its wait for space
began; `parked` once a park image holds it. -/
structure Trail where
  id : Nat
  key : Nat
  step : Nat
  ctrl : Nat
  first : Nat
  count : Nat
  source : Nat
  ext : Nat
  mask : Nat
  run : Option Nat
  since : Nat
  complete : Bool
  parked : Bool
  deriving DecidableEq, Repr

/-- A run of the trail ring in allocation order (R104). -/
structure RingRun where
  trail : Nat
  start : Nat
  len : Nat
  released : Bool
  deriving DecidableEq, Repr

/-- An apply record (R119). -/
structure ApplyRec where
  slot : Nat
  accAddr : Nat
  accEntries : Nat
  elements : Nat
  outAddr : Nat
  done : Nat
  deriving DecidableEq, Repr

/-- The accumulators of one row (R117). -/
structure AccRow where
  totals : List Int
  nonfinite : Bool
  clipped : Bool
  deriving DecidableEq, Repr

def AccRow.none_ : AccRow := ⟨[], false, false⟩

/-- The accumulation table of a table slot in a step; `bad` once the step is not to be applied for the slot. -/
structure AccTable where
  slot : Nat
  step : Nat
  exp : Int
  elements : Nat
  rows : SMap AccRow
  bad : Bool
  deriving DecidableEq, Repr

/-- A section of a step's return batches, in the order of first use (R115). -/
structure SilSection where
  step : Nat
  slot : Nat
  exp : Int
  elements : Nat
  deriving DecidableEq, Repr

/-- One group's contribution to a row (R114). -/
structure SilAdd where
  sect : SilSection
  row : Nat
  vals : List Int
  nonfinite : Bool
  clipped : Bool
  deriving DecidableEq, Repr

/-- A contribution that waits for its return batch (R115). -/
structure SilContrib where
  dst : Nat
  add : SilAdd
  deriving DecidableEq, Repr

/-- A Sillage unit, its registers apart. `held` are contributions of a later step than one in progress (R117), `overfull` the
steps that overflowed an accumulation table, `handed` the step it handed off last; `owed` is what a disable with retraces queued
has still to do: how many of them are left, and the number of the first trail that it does not drop (R123). -/
structure Sillage where
  queue : List Nat
  trails : List Trail
  ring : List RingRun
  head : Nat
  nextId : Nat
  applies : List ApplyRec
  acc : List AccTable
  sections : List SilSection
  contribs : List SilContrib
  finished : List Nat
  refused : List Nat
  received : List (Nat × Nat)
  held : List SilAdd
  overfull : List Nat
  handed : Option Nat
  owed : Option (Nat × Nat)
  deriving DecidableEq, Repr

def Sillage.reset : Sillage :=
  { queue := [], trails := [], ring := [], head := 0, nextId := 0, applies := [], acc := [], sections := [], contribs := [],
    finished := [], refused := [], received := [], held := [], overfull := [], handed := none, owed := none }

/-! ## Fabric -/

/-- A packet (R290, R291). -/
structure Pkt where
  hver : Nat
  typ : Nat
  job : Nat
  gen : Nat
  units : Nat
  resent : Bool
  flow : Nat
  hoplimit : Nat
  expressed : Bool
  src : Nat
  dst : Nat
  seq : Nat
  xfer : Nat
  dtile : Nat
  dcluster : Nat
  dunit : Nat
  offset : Nat
  lenM1 : Nat
  step : Nat
  base : Nat
  reserved : Bool
  payload : List Byte
  trailer : Nat
  deriving DecidableEq, Repr

/-- A transfer that a tile sends (R294, R306, R310): `held` are its packets in the resend buffer, `next` the packet to
inject next, `ready` the REDUCE outputs (index and payload) that wait for room, `whole` the whole resends so far, `timer`
the beat at which its ACK timer started. -/
structure TxXfer where
  job : Nat
  dst : Nat
  flow : Nat
  step : Nat
  xfer : Nat
  typ : Nat
  dtile : Nat
  dcluster : Nat
  dunit : Nat
  base : Nat
  src : Nat
  body : List Byte
  len : Nat
  held : List Pkt
  ready : List (Nat × List Byte)
  next : Nat
  whole : Nat
  timer : Option Nat
  deriving DecidableEq, Repr

/-- A transfer that a tile receives (R303 to R308): `got` are the packets counted, `pieces` a MSG's packets by index, `seen` once its
space is reserved or its packets come, `nacks` the NACKs sent, `timer` the beat at which its gap timer started. -/
structure RxXfer where
  job : Nat
  src : Nat
  flow : Nat
  step : Nat
  xfer : Nat
  typ : Nat
  len : Nat
  got : List Nat
  pieces : SMap (List Byte)
  dcluster : Nat
  dunit : Nat
  firstSeq : Nat
  seen : Bool
  complete : Bool
  handed : Bool
  nacks : Nat
  failed : Bool
  timer : Nat
  deriving DecidableEq, Repr

/-- The next sequence number of a (coordinate, FLOW) pair; none where a job stop left it open. -/
structure SeqOf where
  coord : Nat
  flow : Nat
  next : Option Nat
  deriving DecidableEq, Repr

/-- A completion key (R303): job, the peer's coordinate, FLOW, STEP and XFER. -/
structure XferKey where
  job : Nat
  peer : Nat
  flow : Nat
  step : Nat
  xfer : Nat
  deriving DecidableEq, Repr

/-- One tile's fabric block, its registers and route table apart: `arrived` are the ACK, NACK and REDUCE packets that
passed checks 1 to 9, `released` the keys of transfers whose ACK came. -/
structure Fabric where
  txSeq : List SeqOf
  rxSeq : List SeqOf
  tx : List TxXfer
  rx : List RxXfer
  arrived : List Pkt
  released : List XferKey
  ptr : Nat
  deriving DecidableEq, Repr

def Fabric.reset : Fabric := ⟨[], [], [], [], [], [], 0⟩

/-- The two lanes of a port (R302): packets waiting for a credit, and credits granted and not used. -/
structure PortQ where
  lane0 : List Pkt
  lane1 : List Pkt
  credit0 : Nat
  credit1 : Nat
  deriving DecidableEq, Repr

def PortQ.reset : PortQ := ⟨[], [], 0, 0⟩

/-- A batch that a cluster unit sends (R280): class, destination, job, step, hop, and the cluster it goes to. -/
structure UnitMsg where
  cls : Nat
  dst : Nat
  cluster : Nat
  job : Nat
  step : Nat
  hop : Nat
  body : List Byte
  deriving DecidableEq, Repr

/-- A batch that the fabric has handed to a unit (R304). -/
structure InMsg where
  dunit : Nat
  src : Nat
  job : Nat
  step : Nat
  body : List Byte
  deriving DecidableEq, Repr

/-- What the fabric holds for one cluster's units: batches waiting for a window and batches handed over. -/
structure Mailroom where
  outbox : List UnitMsg
  inbox : List InMsg
  deriving DecidableEq, Repr

def Mailroom.reset : Mailroom := ⟨[], []⟩

/-! ## Landing (R315 to R326) -/

/-- What a stream has added for one packet index: exact sums, block flags, SUMMED, MAX_EXP, how many children are in,
the blocks this unit saturated, whether the output is formed, and whether the accumulators are spilled. -/
structure LndAcc where
  totals : List Int
  nonfinite : Nat
  clipped : Nat
  summed : Nat
  maxExp : Int
  kids : Nat
  saturated : Nat
  formed : Bool
  spilled : Bool
  deriving DecidableEq, Repr

def LndAcc.none_ : LndAcc := ⟨[], 0, 0, 0, -128, 0, 0, false, false⟩

/-- A reduction stream of a tile: job slot, step, entry index, the entry's fields it needs, and its progress. `whole`
are the children whose every packet is added; `complete` once its entry completes. -/
structure LndStream where
  slot : Nat
  job : Nat
  step : Nat
  idx : Nat
  stream : Nat
  xfer : Nat
  elements : Nat
  fanin : Nat
  isRoot : Bool
  isLocal : Bool
  peer : Nat
  dst : Nat
  exp : Option Int
  total : Nat
  done : CoreId × Nat
  sources : List Nat
  whole : List Nat
  localIn : Bool
  acc : SMap LndAcc
  written : Nat
  clippedBlocks : Nat
  nanBlocks : Nat
  maxExp : Int
  complete : Bool
  deriving DecidableEq, Repr

/-- A reduction stream of a job slot (R317). -/
structure StreamId where
  slot : Nat
  step : Nat
  stream : Nat
  deriving DecidableEq, Repr

/-- A fault code that a stream's drops have logged, and in which frame or interval (R323, R333). -/
structure LndLogged where
  id : StreamId
  code : Nat
  era : Bool × Nat
  deriving DecidableEq, Repr

/-- A Landing unit, its registers apart; `refused` holds the streams that the limit kept from opening. -/
structure Landing where
  streams : List LndStream
  logged : List LndLogged
  refused : List StreamId
  deriving DecidableEq, Repr

def Landing.reset : Landing := ⟨[], [], []⟩

/-! ## Optical ports (R334 to R351) -/

/-- A hail frame's contents (R337), the CRC apart. -/
structure Hail where
  typ : Nat
  role : Nat
  port : Nat
  coord : Nat
  modes : Nat
  locked : Nat
  feed : Nat
  margin : Nat
  mode : Nat
  seq : Nat
  txLat : Nat
  rxLat : Nat
  deriving DecidableEq, Repr

/-- An exchange of lock reports in progress (R346, R348): whether it asks for an upgrade, whether this port asked and
waits for the answer, when it asked and last sent, the mode agreed on and when it agreed, and the masks that this port sent and
received. -/
structure Exchange where
  up : Bool
  waiting : Bool
  since : Nat
  lastSent : Nat
  mode : Option Nat
  agreedAt : Nat
  own : Nat
  other : Nat
  deriving DecidableEq, Repr

/-- An optical port, its registers apart: the scan of hail, the frame it sends, its partner and whether that was told of
its acceptance, its trials, the margin reports, the commit, the wavelengths without light and since when, darkness, the
exchange in progress, the times of the time words it sent, newest first, and of the last it received, the last calibration,
the heaters, the corrected symbol counts at both ends, since when each wavelength has held its lock, and the wavelengths that a pending enable
finds fed. -/
structure OptPort where
  scan : Nat
  scanAt : Nat
  tuned : Bool
  hailAt : Nat
  sentAt : Option Nat
  typ : Nat
  seq : Nat
  content : Option Hail
  partner : Option Hail
  accepted : Bool
  told : Bool
  refusedSeq : Option Nat
  trial : Option Nat
  trialAt : Nat
  margin : Nat
  tried : Bool
  marginSent : Bool
  marginHeard : Option Nat
  commit : Option Nat
  commitSent : Bool
  commitHeard : Option Nat
  switchAt : Option Nat
  failedAt : Nat
  committed : Nat
  noLight : List (Nat × Nat)
  darkAt : Option Nat
  exchange : Option Exchange
  wordsSent : List Nat
  wordRx : Nat
  partnerLocked : Bool
  ditherAt : Option Nat
  heaters : SMap Nat
  corrected : SMap Nat
  partnerCorrected : List Nat
  heldAt : SMap Nat
  fed : Option Nat
  deriving DecidableEq, Repr

def OptPort.reset : OptPort :=
  { scan := 0, scanAt := 0, tuned := false, hailAt := 0, sentAt := none, typ := 1, seq := 0, content := none, partner := none,
    accepted := false, told := false, refusedSeq := none, trial := none, trialAt := 0, margin := 0, tried := false,
    marginSent := false, marginHeard := none, commit := none, commitSent := false, commitHeard := none,
    switchAt := none, failedAt := 0, committed := 0, noLight := [], darkAt := none, exchange := none, wordsSent := [],
    wordRx := 0, partnerLocked := false, ditherAt := none, heaters := [], corrected := [], partnerCorrected := [],
    heldAt := [], fed := none }

/-! ## The Forester, the mailboxes, Lookout, power -/

/-- Completion statuses (R377); the spec numbers none (log entry 7). -/
inductive Status where
  | ok | badArg | unknownOpcode | versionMismatch | fenced | wrongState | notPermitted | noResource | verifyFailed | busy
  | timeout
  deriving DecidableEq, Repr

/-- Mailbox commands (R379). -/
inductive Cmd where
  | hello | identity | fwBegin | fwChunk
  | fwCommit (flashOk : Bool)
  | init (r : InitResult)
  | hostWindow | sliceJoin | sliceLeave | planLoad | programLoad | configApply | jobStart | jobStop | recover | memMap
  | memGrant | memRevoke | snapTrigger | snapRead | snapRearm | logRead | eventRead | debugMode | regRead | regWrite
  | syncSet | ctxSave | ctxRestore | calStatus | attest
  deriving DecidableEq, Repr

/-- The last command that a mailbox completed (R373). -/
structure Kept where
  seq : Nat
  opcode : Nat
  status : Status
  deriving DecidableEq, Repr

/-- A mailbox (R371): header and payload, whether an ignored write was logged for its command, the reserved bits written in the
words of its header, and the kept command. -/
structure Mailbox where
  own : Bool
  warned : Bool
  opcode : Nat
  status : Option Status
  seq : Nat
  irq : Bool
  vector : Nat
  version : Nat
  length : Nat
  resultLength : Nat
  timeout : Nat
  detail : Nat
  payload : SMap Byte
  spare : SMap Nat
  kept : Option Kept
  deriving DecidableEq, Repr

def Mailbox.reset : Mailbox :=
  { own := false, warned := false, opcode := 0, status := none, seq := 0, irq := false, vector := 0, version := 0,
    length := 0, resultLength := 0, timeout := 0, detail := 0, payload := [], spare := [], kept := none }

/-- An accepted command that changes state and has not completed (R374); `since` is the clock at which it began to wait
on the module, `step` how far it had come, and `count` what it counts or the slots it waits for. Only the first of them
executes. -/
structure Waiting where
  cmd : Cmd
  h : Handover
  began : Bool
  since : Nat
  step : Nat
  count : Nat
  deriving DecidableEq, Repr

/-- A translation invalidation that waits for a frame boundary (R165): the job's clusters, when it was latched, and the
mailbox of its command. -/
structure Inval where
  clusters : List Nat
  at_ : Nat
  box : Nat
  deriving DecidableEq, Repr

/-- A range granted to the host (R379). -/
structure Grant where
  base : Nat
  bytes : Nat
  rights : Nat
  deriving DecidableEq, Repr

/-- The image buffer (R380): its owner, the bytes opened, what it holds, the bytes received, and the clock of the last
chunk. -/
structure Image where
  lookout : Bool
  bytes : Nat
  data : SMap Byte
  received : Nat
  at_ : Nat
  deriving DecidableEq, Repr

/-- The running firmware, and the offset in its code section at which it was started (R397). -/
structure Firmware where
  version : Nat
  keyIndex : Nat
  policy : Bool
  digest : List Byte
  entry : Nat
  deriving DecidableEq, Repr

/-- The module state apart from the job slots (R381). -/
inductive Stage where
  | rom | loaded | ready | joined
  deriving DecidableEq, Repr

/-- The Forester: what the ROM measured, the active provenance copy and how many were bad, the identity key, the image
buffer and firmware, the module's stage, the Lookout fence, the agreed version, debug mode, whether the main domain is
held off, the host window (in force and asked for), grants, mailboxes, waiting commands, the last capacity words, how each UCIe
module trained, the 4 MiB of SRAM from which firmware runs (R386), and the repairs that INIT applied (R389). -/
structure Forester where
  romDone : Bool
  romDigest : List Byte
  active : Option Nat
  prov : Nat
  idKey : List Byte
  idOk : Bool
  image : Option Image
  firmware : Option Firmware
  stage : Stage
  fence : Bool
  agreed : Option Nat
  debug : Bool
  heldOff : Bool
  window : Nat
  windowNext : Nat
  grants : SMap (Option Grant)
  boxes : SMap Mailbox
  waiting : List Waiting
  invals : List Inval
  caps : List CapEvent
  ucie : SMap Nat
  sram : SMap Byte
  repairs : List Byte
  deriving DecidableEq, Repr

def Forester.reset : Forester :=
  { romDone := false, romDigest := [], active := none, prov := 0, idKey := [], idOk := false, image := none, firmware := none,
    stage := .rom, fence := false, agreed := none, debug := false, heldOff := false, window := 32, windowNext := 32, grants := [],
    boxes := [], waiting := [], invals := [], caps := [], ucie := [], sram := [], repairs := [] }

/-- A Lookout response as kept for a replay (R407). -/
structure LkoKept where
  src : Nat
  port : Nat
  seq : Nat
  opcode : Nat
  status : Status
  detail : Nat
  payload : List Byte
  deriving DecidableEq, Repr

/-- A FORCE_STOP that executes (R406): its request and the running slots it names. -/
structure Forcing where
  src : Nat
  port : Nat
  seq : Nat
  slots : List Nat
  deriving DecidableEq, Repr

/-- Lookout: the current nonce, the kept response, the last request, and a FORCE_STOP in progress. -/
structure Lookout where
  nonce : List Byte
  kept : Option LkoKept
  lastSrc : Nat
  lastSeq : Nat
  lastOp : Nat
  forcing : Option Forcing
  deriving DecidableEq, Repr

def Lookout.reset : Lookout := ⟨[], none, 0, 0, 0, none⟩

/-- The power block, its registers apart (R467): the latched requests for a slower and a faster clock with the beat of
each, since when the conditions for a faster clock have held, since when power has exceeded the cap at step 3, whether
the coolant is outside its limits, and the main input power of the last millisecond's readings, newest first (R466). -/
structure Power where
  down : Option Nat
  up : Option Nat
  coolSince : Option Nat
  capSince : Option Nat
  warn : Bool
  powers : List Nat
  deriving DecidableEq, Repr

def Power.reset : Power := ⟨none, none, none, none, false, []⟩

/-! ## What leaves the module -/

/-- A message that left the module: the model's own record of its outputs (log entry 4). -/
inductive OutMsg where
  /-- A packet leaves on a module port and lane (R302). -/
  | packet (port lane : Nat) (p : Pkt)
  | msix (vector : Nat)
  /-- The 32 bytes of a hail frame and the wavelength that carries them (R336, R337). -/
  | hail (port wavelength : Nat) (frame : List Byte)
  /-- A time word (R269): transmission time and the reception time of the last word received, in 1/64 beat. -/
  | timeWord (port sent heard : Nat)
  /-- A slip token (R284). -/
  | slipToken (port gen frame x src : Nat)
  /-- A capacity word (R347). -/
  | capacityWord (port gen : Nat) (e : CapEvent)
  /-- A lock report (R344, R346): a request or an answer, with the RX_LOCKED mask and the corrected symbol counts. -/
  | lockReport (port : Nat) (request up : Bool) (mask : Nat) (corrected : List Nat)
  /-- An Ethernet frame with its FCS (R349). -/
  | ethernet (port : Nat) (bytes : List Byte)
  /-- The completion of a bulk READ (R369). -/
  | bulkData (addr : Nat) (bytes : List Byte) (error : Bool)
  /-- A Lookout response (R404); the address and port are the requester's. -/
  | lookout (dst port opcode seq : Nat) (status : Status) (detail : Nat) (nonce payload : List Byte)
  /-- An answer to a neighbour solicitation (R403). -/
  | neighbour (dst target mac : Nat)
  deriving DecidableEq, Repr

/-! ## The state -/

/-- The module. `regs` is the home of every register of the control space, keyed by address, but for those that
Machine/Access.lean computes from the other fields. Unit maps are keyed by instance number; `snaps` (what Blaze latched)
and `posted` (the pending write of a posted block) by block base. -/
structure State where
  pending : List Instr
  clock : Nat
  freeCount : Nat
  out : List OutMsg
  beat : Nat
  standbyOn : Bool
  mainOn : Bool
  mem : SMap Byte
  regs : SMap W32
  cores : SMap Core
  clusters : SMap Cluster
  time : TimeBase
  jobs : SMap JobSlot
  tally : Tally
  blaze : Blaze
  fabrics : SMap Fabric
  routes : SMap W32
  ports : SMap PortQ
  loopback : List Pkt
  mailrooms : SMap Mailroom
  shape : Nat
  cruisers : SMap Cruiser
  skidders : SMap Skidder
  sillages : SMap Sillage
  landings : SMap Landing
  opts : SMap OptPort
  foe : Forester
  lko : Lookout
  pwr : Power
  snaps : SMap (List Nat)
  posted : SMap (Option (Nat × Nat))
  flash : SMap Byte
  deriving DecidableEq, Repr

/-- Right after standby power is applied: the main domain is off, every register holds its reset value. -/
def State.reset : State :=
  { pending := [], clock := 0, freeCount := 0, out := [], beat := 0, standbyOn := false, mainOn := false, mem := [], regs := [],
    cores := [], clusters := [], time := TimeBase.reset, jobs := [], tally := Tally.reset, blaze := ⟨0, none⟩,
    fabrics := [], routes := [], ports := [], loopback := [], mailrooms := [], shape := 0,
    cruisers := [], skidders := [], sillages := [], landings := [], opts := [],
    foe := Forester.reset, lko := Lookout.reset, pwr := Power.reset, snaps := [], posted := [], flash := [] }

end Sys2Proof.Machine
end

