-- ==== Sys2Proof/Machine/Ops.lean ====
section
/-! DEFINITION. The named operations over the state: memory, registers, units, free values, Tally, Blaze, job faults
and core faults. Every later file goes through them. -/
namespace Sys2Proof.Machine

/-! ## Memory (R7, R440) -/

/-- What a byte that nothing has written reads as (log entry 1). -/
def memDefault : Nat → Byte := fun _ => 0

def State.readByte (s : State) (a : Nat) : Byte := sget memDefault s.mem a
def State.readBytes (s : State) (a n : Nat) : List Byte := sgetMany memDefault s.mem a n
/-- The little-endian value of `n` bytes at `a`. -/
def State.rd (s : State) (a n : Nat) : Nat := leVal (s.readBytes a n)
def State.writeBytes (s : State) (a : Nat) (l : List Byte) : State := { s with mem := ssetMany memDefault s.mem a l }
def State.wr (s : State) (a n v : Nat) : State := s.writeBytes a (leBytes n v)
def Memory.wf (m : SMap Byte) : Bool := swf memDefault m

def hbmEnd : Nat := 0xD800000000
def lpBase : Nat := 0x20000000000
def lpEnd : Nat := 0x40000000000
def scratchLo : Nat := 0xF0000000000
def scratchHi : Nat := 0xF0200000000
def scratchBytes : Nat := 0x60000

def inHbm (a : Nat) : Bool := decide (a < hbmEnd)
def inLp (a : Nat) : Bool := decide (lpBase ≤ a) && decide (a < lpEnd)
/-- A byte of a core's scratch at its window address (R155): the holes are unbacked. -/
def inScratch (a : Nat) : Bool :=
  decide (scratchLo ≤ a) && decide (a < scratchHi) && decide ((a - scratchLo) % 0x40000000 < 80 * 0x800000) &&
    decide ((a - scratchLo) % 0x80000 < scratchBytes)

/-- The tier of an address: 1 HBM3E, 2 LPDDR5X, 3 scratch window, 0 unbacked (R440). -/
def tierOf (a : Nat) : Nat := if inHbm a then 1 else if inLp a then 2 else if inScratch a then 3 else 0

/-- Is the whole range backed and in one tier? Ranges of scratch stay within one core's scratch. -/
def rangeTier (a n : Nat) : Nat :=
  if n = 0 then tierOf a
  else
    let t := tierOf a
    if t = 3 then (if (a - scratchLo) / 0x80000 = (a + n - 1 - scratchLo) / 0x80000 && inScratch (a + n - 1) then 3 else 0)
    else if t = tierOf (a + n - 1) then t else 0

def rangeBacked (a n : Nat) : Bool := rangeTier a n != 0
def rangeDram (a n : Nat) : Bool := rangeTier a n == 1 || rangeTier a n == 2
def rangeHbm (a n : Nat) : Bool := rangeTier a n == 1

/-- The first module data address of a core's scratch (R155). -/
def scratchBase (k : CoreId) : Nat :=
  scratchLo + 0x40000000 * k.tile.val + 0x800000 * k.idx.val + 0x80000 * k.core.val

/-- Is a scratch range within the 384 KiB? -/
def inCoreScratch (o n : Nat) : Bool := decide (o + n ≤ scratchBytes)

/-! ## Registers -/

/-- The stored word of a register; views computed from other state are in Machine/Access.lean. -/
def State.reg (s : State) (b : Blk) (o : Nat) : Nat := (sget resetAt s.regs (b.base + o)).toNat
def State.setReg (s : State) (b : Blk) (o v : Nat) : State :=
  { s with regs := sset resetAt s.regs (b.base + o) (BitVec.ofNat 32 v) }
/-- A counter advances modulo 2^32. -/
def State.bump (s : State) (b : Blk) (o : Nat) (n : Nat := 1) : State := s.setReg b o (s.reg b o + n)
def State.field (s : State) (b : Blk) (o lo len : Nat) : Nat := bits (s.reg b o) lo len
def State.setField (s : State) (b : Blk) (o lo len v : Nat) : State := s.setReg b o (setBits (s.reg b o) lo len v)
def State.flag (s : State) (b : Blk) (o i : Nat) : Bool := bit (s.reg b o) i
def State.setFlag (s : State) (b : Blk) (o i : Nat) : State := s.setField b o i 1 1
def State.clearFlag (s : State) (b : Blk) (o i : Nat) : State := s.setField b o i 1 0
/-- A 64-bit value in a LO and HI pair. -/
def State.pair (s : State) (b : Blk) (lo hi : Nat) : Nat := s.reg b lo + 2 ^ 32 * s.reg b hi
def State.setPair (s : State) (b : Blk) (lo hi v : Nat) : State := (s.setReg b lo v).setReg b hi (v / 2 ^ 32)

def State.powered (s : State) (b : Blk) : Bool := s.standbyOn && (b.standby || s.mainOn)
/-- BLK_CTRL.ENABLE as it reads (R431). -/
def State.enabled (s : State) (b : Blk) : Bool := s.powered b && (b.alwaysOn || s.flag b BLK_CTRL 0)
def State.writeIgnored (s : State) (b : Blk) : State := s.setFlag b BLK_STATUS 0

/-! ## Units -/

def coreIdx (k : CoreId) : Nat := (k.tile.val * 80 + k.idx.val) * 16 + k.core.val
def clusterIdx (c : ClusterId) : Nat := c.tile.val * 80 + c.idx.val
def portIdx (q : PortId) : Nat := q.tile.val * 6 + q.p.val
def clusterOfIdx (n : Nat) : ClusterId := ⟨Fin.ofNat 8 (n / 80), Fin.ofNat 80 n⟩
def coreOfIdx (n : Nat) : CoreId := ⟨Fin.ofNat 8 (n / 1280), Fin.ofNat 80 (n / 16), Fin.ofNat 16 n⟩
def portOfIdx (n : Nat) : PortId := ⟨Fin.ofNat 8 (n / 6), Fin.ofNat 6 n⟩

def State.core (s : State) (k : CoreId) : Core := sget (fun _ => Core.reset) s.cores (coreIdx k)
def State.setCore (s : State) (k : CoreId) (c : Core) : State :=
  { s with cores := sset (fun _ => Core.reset) s.cores (coreIdx k) c }
def State.cluster (s : State) (c : ClusterId) : Cluster := sget (fun _ => Cluster.reset) s.clusters (clusterIdx c)
def State.setCluster (s : State) (c : ClusterId) (v : Cluster) : State :=
  { s with clusters := sset (fun _ => Cluster.reset) s.clusters (clusterIdx c) v }
def State.job (s : State) (j : Nat) : JobSlot := sget (fun _ => JobSlot.empty) s.jobs j
def State.setJob (s : State) (j : Nat) (v : JobSlot) : State :=
  { s with jobs := sset (fun _ => JobSlot.empty) s.jobs j v }
def State.emit (s : State) (m : OutMsg) : State := { s with out := s.out ++ [m] }

/-- A general register: g0 reads as zero (R146). -/
def State.gpr (s : State) (k : CoreId) (r : Fin 32) : W32 :=
  if r = 0 then 0 else sget (fun _ => 0) (s.core k).gpr r.val
/-- Writes to g0 are discarded (R146). -/
def State.setGpr (s : State) (k : CoreId) (r : Fin 32) (v : W32) : State :=
  if r = 0 then s else
    let c := s.core k
    s.setCore k { c with gpr := sset (fun _ => 0) c.gpr r.val v }

/-! ## Free values (log entry 2) -/

/-- A value the spec leaves open: nothing constrains it. -/
def State.free (s : State) : Nat := (Config.freeValue s.freeCount).toNat
def State.useFree (s : State) : State := { s with freeCount := s.freeCount + 1 }

/-- Free bytes, a new one each. -/
def State.freeBytes : Nat → State → List Byte × State
  | 0, s => ([], s)
  | n + 1, s =>
    let r := State.freeBytes n s.useFree
    (BitVec.ofNat 8 s.free :: r.1, r.2)

/-! ## Time -/

def beatsPerUs : Nat := 1000
def beatsPerMs : Nat := 1000000

def lockFree : Nat := 0
def lockAcquiring : Nat := 1
def lockLocked : Nat := 2
def lockHoldover : Nat := 3
def State.lock (s : State) : Nat := s.field .ftb FTB_STATUS 0 2
def State.frame (s : State) : Nat := s.reg .ftb FTB_FRAME
/-- L in beats (R273). -/
def State.frameLen (s : State) : Nat := s.field .ftb FTB_FRAME_LEN 0 13 * 1024
/-- The beat at which the current frame ends, with the slips applied so far (R273). -/
def State.frameEnd (s : State) : Nat :=
  s.time.frameStart + s.frameLen + s.frameLen / 8 * s.reg .ftb FTB_CUR_EXT

/-- Frame `a` is later than frame `b` (R274); also the serial-number order of 32-bit numbers. -/
def later32 (a b : Nat) : Bool :=
  let d := (a % 2 ^ 32 + (2 ^ 32 - b % 2 ^ 32)) % 2 ^ 32
  decide (1 ≤ d) && decide (d < 2 ^ 31)

/-! ## Tally (R418 to R423) -/

/-- The frame in which an entry is written, or the aligned interval of 65,536 beats while no frame advances, as before the origin
(R422). -/
def State.era (s : State) : Bool × Nat :=
  if s.enabled .ftb && s.time.begun then (true, s.frame) else (false, s.beat / 65536)

/-- An entry arrives at Tally's queue: among the entries of its own beat, which are those of one service cycle (log entry 55),
in ascending SOURCE order (R423). -/
def tallyArrive (e : TallyEntry) : List TallyEntry → List TallyEntry
  | [] => [e]
  | x :: l => if x.beat = e.beat ∧ e.source < x.source then e :: x :: l else x :: tallyArrive e l

/-- A block logs an event: the entry joins Tally's queue, and the last of a queue of more than 64 is discarded and counted
(R423). CYCLE is a free value: the spec ties the block's cycle count to nothing the model holds. -/
def State.logAs (s : State) (b : Blk) (code level : Nat) (args : List Nat) (mergeable : Bool) : State :=
  let era := s.era
  let e : TallyEntry :=
    { beat := s.beat, cycle := s.free % 2 ^ 32, source := b.base, code := code, level := level,
      untimed := s.lock != lockLocked, repeats := 0,
      args := (args.map (· % 2 ^ 32) ++ [0, 0, 0]).take 3, inFrame := era.1, era := era.2, mergeable := mergeable }
  let s := s.useFree
  let q := tallyArrive e s.tally.queue
  if q.length ≤ 64 then
    { s with tally := { s.tally with queue := q } }
  else
    { s with tally := { s.tally with queue := q.take 64, lostSince := s.tally.lostSince + 1 } }.bump .tly TLY_CNT_LOST

def State.log (s : State) (b : Blk) (code level : Nat) (args : List Nat := []) : State := s.logAs b code level args false

/-- Two arguments, low word first (R473). -/
def lohi (v : Nat) : List Nat := [v % 2 ^ 32, v / 2 ^ 32]

/-! ## Blaze (R413 to R415) -/

def State.blazeFired (s : State) : Bool := s.flag .blz BLZ_STATE 0

/-- Does a trigger that arrives now fire Blaze, alone or with the others of its beat (R415)? One that does not is missed, and has
fired nothing (R413). -/
def State.blazeTakes (s : State) : Bool := !s.blazeFired || s.blaze.firedAt == s.beat

/-- A trigger reaches Blaze: `bit` is its bit of BLZ_CAUSE, `t` the trigger beat, `code` and `src` the fault's Tally
code and block base (code 0 for a source that is no fault). A pending match whose beat has come is a trigger of the same beat;
any other is lost. -/
def State.fireBlaze (s : State) (cause t code src : Nat) : State :=
  let first (s : State) : State :=
    if code = 0 then s
    else if s.field .blz BLZ_FIRST 0 16 = 0 ∨ src < s.reg .blz BLZ_FIRST_SRC then
      (s.setReg .blz BLZ_FIRST (code + src / 2 ^ 16 * 2 ^ 16)).setReg .blz BLZ_FIRST_SRC src
    else s
  if s.blazeFired then
    if s.blaze.firedAt = s.beat then first (s.setFlag .blz BLZ_CAUSE cause)
    else s.bump .blz BLZ_CNT_MISSED
  else
    let pending := s.flag .blz BLZ_STATE 1 && cause != 1
    let due := decide (s.pair .blz BLZ_MATCH_LO BLZ_MATCH_HI ≤ s.beat)
    let s := (s.setReg .blz BLZ_CAUSE (2 ^ cause)).setReg .blz BLZ_STATE 1
    let s := if !pending then s
      else if due then s.setFlag .blz BLZ_CAUSE 1
      else (s.setFlag .blz BLZ_CAUSE 5).bump .blz BLZ_CNT_MISSED
    let s := (s.setPair .blz BLZ_BEAT_LO BLZ_BEAT_HI t).bump .blz BLZ_CNT_FIRED
    let s := (s.setReg .blz BLZ_FIRST 0).setReg .blz BLZ_FIRST_SRC 0
    first { s with blaze := { firedAt := s.beat, latchAt := some t } }

/-! ## Job faults (R363) -/

def jobSlots : List Nat := upFrom 0 16

/-- The slot of the running job of ID `job`, if any. -/
def State.slotOfJob (s : State) (job : Nat) : Option Nat :=
  jobSlots.find? fun j => (s.job j).running && (s.job j).job == job

/-- The slot of the running job that a cluster belongs to, if any. -/
def State.slotOfCluster (s : State) (c : ClusterId) : Option Nat :=
  jobSlots.find? fun j => (s.job j).running && (s.job j).clusters.contains (clusterIdx c)

def State.anyRunning (s : State) : Bool := jobSlots.any fun j => (s.job j).running

/-- A job fault latches a stop of the slot's job for the frame boundary (R275, R363); the first fault's cause is
kept, and a fault prevails over a command. -/
def State.faultSlot (s : State) (j code src : Nat) (blazed : Bool) : State :=
  let x := s.job j
  if !x.running then s
  else
    if x.stops.any (·.kind == .fault) then s
    else s.setJob j { x with stops := x.stops ++ [⟨.fault, code, src, blazed, s.beat⟩] }

def State.faultJob (s : State) (job code src : Nat) : State :=
  match s.slotOfJob job with
  | some j => s.faultSlot j code src false
  | none => s

/-- A job fault of every running job (R434, R271). -/
def State.faultAll (s : State) (code src : Nat) : State :=
  jobSlots.foldl (fun s j => s.faultSlot j code src false) s

/-- A job fault of the job that a cluster runs. -/
def State.faultCluster (s : State) (c : ClusterId) (code src : Nat) (blazed : Bool) : State :=
  match s.slotOfCluster c with
  | some j => s.faultSlot j code src blazed
  | none => s

/-! ## Core run state and core faults (R161, R170) -/

def stRunning : Nat := 0
def stHalted : Nat := 1
def stFaulted : Nat := 2
def stWaiting : Nat := 3

def State.coreRunning (s : State) (k : CoreId) : Bool := s.flag (.cor k) COR_STATE stRunning
def State.coreFaulted (s : State) (k : CoreId) : Bool := s.flag (.cor k) COR_STATE stFaulted
def State.pc (s : State) (k : CoreId) : Nat := s.reg (.cor k) COR_PC
def State.setPc (s : State) (k : CoreId) (v : Nat) : State := s.setReg (.cor k) COR_PC (v / 4 * 4 % 2 ^ 19)
def State.setStall (s : State) (k : CoreId) (w : Stall) : State := s.setCore k { s.core k with stall := w }

def slotIsDma (x : Slot) : Bool :=
  match x.use with
  | .dma .. => true
  | _ => false

/-- What the DMA engine had in flight ends with it. -/
def Core.dropDma (c : Core) : Core := { c with slots := c.slots.filter fun x => !slotIsDma x }

/-- A core that leaves a BARR at which it is stalled, because it stops, is no longer STALLED there (R260). -/
def State.leaveBarrier (s : State) (k : CoreId) : State :=
  match (s.core k).stall with
  | .barr b _ _ _ => s.clearFlag (.clu k.cluster) (BAR_PHASE b) k.core.val
  | _ => s

/-- FAULTED set, RUNNING and WAITING cleared, HALTED unchanged; the control core and engines stop at once (R161). -/
def State.stopCore (s : State) (k : CoreId) : State :=
  let b := Blk.cor k
  let s := s.leaveBarrier k
  let s := ((s.setFlag b COR_STATE stFaulted).clearFlag b COR_STATE stRunning).clearFlag b COR_STATE stWaiting
  s.setCore k { (s.core k).dropDma with stall := .none }

/-- Tally codes of the causes of R161. -/
def causeCode (cause : Nat) : Nat :=
  if cause = 7 then 0x4010 else 0x1000 + cause

/-- The arguments of a cause's code: an uncorrectable error logs its place (R153), a refused or illegal instruction its
address (R189, R234). -/
def causeArgs (cause addr : Nat) : List Nat := if cause = 7 then lohi addr else if cause = 4 then [addr] else []

/-- A core fault (R161): the core stops, the cause and the address are recorded, the code is logged, Blaze fires with
T 128 beats on, and a job fault is raised. -/
def State.coreFault (s : State) (k : CoreId) (cause addr : Nat) : State :=
  let b := Blk.cor k
  let code := causeCode cause
  let s := s.stopCore k
  let s := s.setReg b COR_FAULT cause
  let s := (s.setReg b COR_FAULT_ADDR_LO addr).setReg b COR_FAULT_ADDR_HI (addr / 2 ^ 32 % 2 ^ 16)
  let s := s.log b code (if cause = 7 then 4 else 3) (causeArgs cause addr)
  (s.fireBlaze 3 (s.beat + 128) code b.base).faultCluster k.cluster code b.base s.blazeTakes

/-! ## SECDED on scratch (R153) -/

/-- The aligned 8-byte word numbered `w` of those that some ranges (address, bytes) lie in, by its address. -/
def wordAt : List (Nat × Nat) → Nat → Option Nat
  | [], _ => none
  | (a, n) :: t, w =>
    let m := (a + n + 7) / 8 - a / 8
    if w < m then some ((a / 8 + w) * 8) else wordAt t (w - m)

/-- The word with a double-bit error, if it is among those read. -/
def eccLost (e : Ecc) (reads : List (Nat × Nat)) : Option Nat :=
  match e with
  | .double w => wordAt reads w
  | _ => none

/-- The word with a single-bit error, if it is among those read. -/
def eccMended (e : Ecc) (reads : List (Nat × Nat)) : Option Nat :=
  match e with
  | .single w => wordAt reads w
  | _ => none

/-- A corrected error in the scratch words that a core reads is counted. -/
def State.countEcc (s : State) (k : CoreId) (reads : List (Nat × Nat)) (e : Ecc) : State :=
  if (eccMended e reads).isSome then s.bump (.cor k) COR_CNT_SCRATCH_CE else s

/-- A core reads words of its scratch: a double-bit error stops it with cause 7. -/
def State.scratchEcc (s : State) (k : CoreId) (reads : List (Nat × Nat)) (e : Ecc) (f : State → State) : State :=
  match eccLost e reads with
  | some o => s.coreFault k 7 o
  | none => f (s.countEcc k reads e)

/-- The core and the scratch offset of a window address (R155). -/
def scratchCore (a : Nat) : Option (CoreId × Nat) :=
  if inScratch a then
    let o := a - scratchLo
    some (⟨Fin.ofNat 8 (o / 0x40000000), Fin.ofNat 80 (o % 0x40000000 / 0x800000), Fin.ofNat 16 (o % 0x800000 / 0x80000)⟩,
      o % 0x80000)
  else none

/-- Words read through the scratch window: a corrected one is counted where it lies; the address of one that is lost. -/
def State.windowEcc (s : State) (reads : List (Nat × Nat)) (e : Ecc) : State × Option Nat :=
  match (eccMended e reads).bind scratchCore with
  | some x => (s.bump (.cor x.1) COR_CNT_SCRATCH_CE, none)
  | none => (s, (eccLost e reads).filter inScratch)

end Sys2Proof.Machine
end

