-- ==== Sys2Proof/Machine/Block.lean ====
section
/-! DEFINITION. What every block does with its configuration: the running CRC (R434) and a write of ENABLE (R433). -/
namespace Sys2Proof.Machine

/-- The words of a tile's route table in CRC order (R434). -/
def State.routeWords (s : State) (t : Fin 8) : List W32 := sgetMany (fun _ => 0) s.routes (4096 * t.val) 4096

/-- The configuration words of a block in the order of R434. -/
def State.cfgWords (s : State) (b : Blk) : List Nat :=
  b.cfgOffsets.flatMap fun o =>
    match b with
    | .til t => if o = TIL_RT_DATA then (s.routeWords t).map (·.toNat) else [s.reg b o]
    | _ => [s.reg b o]

/-- BLK_CFG_CRC_NOW (R434); 0 for a block without configuration registers. -/
def State.crcNow (s : State) (b : Blk) : Nat := crc32c ((s.cfgWords b).flatMap (leBytes 4))

/-- The high byte of a block's codes xxFD and xxFE (R444). -/
def Blk.codeBase : Blk → Nat
  | .glb | .mbx | .fo | .lko | .blz | .tly | .rng => 0x0100
  | .pwr => 0x5000
  | .ftb | .til _ => 0x3000
  | .lnd _ => 0x3100
  | .opt _ => 0x3200
  | .hbc .. | .lpc .. => 0x4000
  | .cru _ => 0x2000
  | .skd _ => 0x2100
  | .sil _ => 0x2200
  | .clu _ | .cch _ | .cor _ => 0x1000

def Blk.crcCode (b : Blk) : Nat := b.codeBase + 0xFE

/-- The refusal code of a block's own check that names register offset `o` (R433): a Skidder's code 0x2101 is for its
owner map image alone (R101). -/
def Blk.refusalCode (b : Blk) (o : Nat) : Nat :=
  match b with
  | .cor _ => 0x1007 | .cru _ => 0x2001 | .sil _ => 0x2202 | .til _ => 0x300A | .opt _ => 0x3209
  | .skd _ => if o = SKD_RRC_CFG then 0x21FD else 0x2101
  | b => b.codeBase + 0xFD

/-- The arguments of a refusal: the register's offset (R433), and for an optical port the port (R352). -/
def Blk.refusalArgs (b : Blk) (o : Nat) : List Nat :=
  match b with
  | .opt q => [o, portIdx q]
  | _ => [o]

/-- A write of ENABLE 1 (R433): `bad` is the offset of the first configuration register that the block's own checks
refuse, or 0; `start` is what the block does when it begins to run. -/
def State.enableWith (s : State) (b : Blk) (bad : Option Nat) (start : State → State) : State :=
  if !s.powered b || b.alwaysOn || s.enabled b then s
  else
    match bad with
    | some o => (s.setFlag b BLK_STATUS 3).log b (b.refusalCode o) 2 (b.refusalArgs o)
    | none =>
      if s.crcNow b ≠ s.reg b BLK_CFG_CRC_REF then ((s.setFlag b BLK_STATUS 3).setFlag b BLK_STATUS 1).log b b.crcCode 2 [0]
      else start (s.setFlag b BLK_CTRL 0)

/-- A write of ENABLE 0 (R433): `stop` is what the block does when it stops. -/
def State.disableWith (s : State) (b : Blk) (stop : State → State) : State :=
  if s.enabled b && !b.alwaysOn then stop (s.clearFlag b BLK_CTRL 0) else s

end Sys2Proof.Machine
end

