-- ==== Sys2Proof/Machine/Float.lean ====
section
/-! DEFINITION. Number formats and their arithmetic (R196 to R200, R207 to R215): bit patterns are decoded to exact
values, every operation is exact, and one rounding gives the result's bits. -/
namespace Sys2Proof.Machine

/-- An exact value: `num / den × 2 ^ exp` with a sign; a zero keeps its sign. -/
inductive XVal where
  | nan
  | inf (neg : Bool)
  | num (neg : Bool) (n d : Nat) (e : Int)
  deriving DecidableEq, Repr

/-- A binary format: exponent and fraction widths and bias (R196). -/
structure FFmt where
  ebits : Nat
  mbits : Nat
  bias : Nat
  deriving DecidableEq, Repr

def fp32 : FFmt := ⟨8, 23, 127⟩
def bf16 : FFmt := ⟨8, 7, 127⟩
def fp16 : FFmt := ⟨5, 10, 15⟩
def fp64 : FFmt := ⟨11, 52, 1023⟩
/-- XM40: the 32-bit word over the extension byte (R199). -/
def xm40 : FFmt := ⟨8, 31, 127⟩
def e4m3 : FFmt := ⟨4, 3, 7⟩
def e5m2 : FFmt := ⟨5, 2, 15⟩
def e2m1 : FFmt := ⟨2, 1, 1⟩

/-- The exponent of the least significant bit of subnormals and of the smallest normal binade. -/
def FFmt.qmin (f : FFmt) : Int := 1 - (f.bias : Int) - f.mbits

def FFmt.width (f : FFmt) : Nat := 1 + f.ebits + f.mbits

def FFmt.infBits (f : FFmt) (neg : Bool) : Nat := b2n neg * 2 ^ (f.ebits + f.mbits) + (2 ^ f.ebits - 1) * 2 ^ f.mbits

/-- The canonical NaN of a format with infinities: sign 0, top fraction bit set (R196, R197). -/
def FFmt.nanBits (f : FFmt) : Nat := (2 ^ f.ebits - 1) * 2 ^ f.mbits + 2 ^ (f.mbits - 1)

/-- Decode a pattern of a format that has infinities and NaNs in its top exponent. -/
def FFmt.decode (f : FFmt) (v : Nat) : XVal :=
  let s := bit v (f.ebits + f.mbits)
  let e := bits v f.mbits f.ebits
  let m := bits v 0 f.mbits
  if e = 2 ^ f.ebits - 1 then (if m = 0 then .inf s else .nan)
  else if e = 0 then .num s m 1 f.qmin
  else .num s (2 ^ f.mbits + m) 1 ((e : Int) - f.bias - f.mbits)

/-- Decode a pattern whose top exponent holds finite values too, but for the patterns the caller names as NaN. -/
def FFmt.decodeFinite (f : FFmt) (v : Nat) : XVal :=
  let s := bit v (f.ebits + f.mbits)
  let e := bits v f.mbits f.ebits
  let m := bits v 0 f.mbits
  if e = 0 then .num s m 1 f.qmin
  else .num s (2 ^ f.mbits + m) 1 ((e : Int) - f.bias - f.mbits)

def decodeE4M3 (v : Nat) : XVal := if bits v 0 7 = 0x7F then .nan else e4m3.decodeFinite v
def decodeE2M1 (v : Nat) : XVal := e2m1.decodeFinite v
def decodeE8M0 (v : Nat) : XVal := if v % 256 = 0xFF then .nan else .num false 1 1 ((v % 256 : Nat) - 127 : Int)
/-- XM40: the extension of an infinite or NaN word is ignored (R199). -/
def decodeXm40 (v : Nat) : XVal :=
  if bits v 31 8 = 0xFF then fp32.decode (v / 256) else xm40.decode v

def intVal (i : Int) : XVal := .num (decide (i < 0)) i.natAbs 1 0

/-! ## Rounding -/

/-- floor(log2(n / d)) of a positive ratio. -/
def floorLog2 (n d : Nat) : Int :=
  let l : Int := (Nat.log2 n : Int) - Nat.log2 d
  if 0 ≤ l then (if d * 2 ^ l.toNat ≤ n then l else l - 1)
  else (if d ≤ n * 2 ^ (-l).toNat then l else l - 1)

/-- `n / d × 2 ^ e` measured in units of `2 ^ q`: quotient, remainder and divisor. -/
def inUnits (n d : Nat) (e q : Int) : Nat × Nat × Nat :=
  let sh := e - q
  if 0 ≤ sh then
    let x := n * 2 ^ sh.toNat
    (x / d, x % d, d)
  else
    let y := d * 2 ^ (-sh).toNat
    (n / y, n % y, y)

/-- The exponent of the unit in the last place of `mbits` fraction bits at a positive magnitude. -/
def ulpExp (mbits : Nat) (qmin : Int) (n d : Nat) (e : Int) : Int := max (floorLog2 n d + e - mbits) qmin

/-- Round a magnitude to nearest even on a grid of `mbits` fraction bits, exponent unbounded above. -/
def roundMag (mbits : Nat) (qmin : Int) (n d : Nat) (e : Int) : Nat × Int :=
  if n = 0 then (0, qmin)
  else
    let q := ulpExp mbits qmin n d e
    let u := inUnits n d e q
    let up := decide (u.2.2 < 2 * u.2.1) || (decide (2 * u.2.1 = u.2.2) && u.1 % 2 == 1)
    (u.1 + b2n up, q)

/-- Round a magnitude to the nearest integer, ties to even. -/
def roundInt (n d : Nat) (e : Int) : Nat :=
  let u := inUnits n d e 0
  let up := decide (u.2.2 < 2 * u.2.1) || (decide (2 * u.2.1 = u.2.2) && u.1 % 2 == 1)
  u.1 + b2n up

/-- Is `m × 2 ^ q` above `m' × 2 ^ q'`? -/
def magGt (m : Nat) (q : Int) (m' : Nat) (q' : Int) : Bool :=
  if q' ≤ q then decide (m' < m * 2 ^ (q - q').toNat) else decide (m' * 2 ^ (q' - q).toNat < m)

/-- The pattern without sign of a rounded magnitude on the format's grid, exponent field not limited. -/
def FFmt.packMag (f : FFmt) (m : Nat) (q : Int) : Nat :=
  if m < 2 ^ f.mbits then m
  else if m = 2 ^ (f.mbits + 1) then (q + 1 + f.bias + f.mbits).toNat * 2 ^ f.mbits
  else (q + f.bias + f.mbits).toNat * 2 ^ f.mbits + (m - 2 ^ f.mbits)

def FFmt.signed (f : FFmt) (neg : Bool) (p : Nat) : Nat := b2n neg * 2 ^ (f.ebits + f.mbits) + p

/-- Round an exact value to a format with infinities: nearest even, overflow to infinity, canonical NaN (R197). -/
def FFmt.encode (f : FFmt) : XVal → Nat
  | .nan => f.nanBits
  | .inf s => f.infBits s
  | .num s n d e =>
    let r := roundMag f.mbits f.qmin n d e
    let p := f.packMag r.1 r.2
    if (2 ^ f.ebits - 1) * 2 ^ f.mbits ≤ p then f.infBits s else f.signed s p

/-- Is the value exactly representable in the format (R212)? -/
def FFmt.exactIn (f : FFmt) (x : XVal) : Bool :=
  match x with
  | .num _ n d e =>
    if n = 0 then true
    else
      let q := ulpExp f.mbits f.qmin n d e
      let u := inUnits n d e q
      u.2.1 == 0 && decide (f.packMag u.1 q < (2 ^ f.ebits - 1) * 2 ^ f.mbits)
  | _ => true

/-- Stochastic rounding with 16 random bits (R212). -/
def FFmt.sround (f : FFmt) (x : XVal) (u16 : Nat) : Nat :=
  match x with
  | .num s n d e =>
    if f.exactIn x then f.encode x
    else
      let q := ulpExp f.mbits f.qmin n d e
      let u := inUnits n d e q
      let fr := u.2.1 * 65536 / u.2.2
      let m := if 65536 ≤ fr + u16 then u.1 + 1 else u.1
      let p := f.packMag m q
      if (2 ^ f.ebits - 1) * 2 ^ f.mbits ≤ p then f.infBits s else f.signed s p
  | y => f.encode y

/-! ## Exact operations, with the special values of R215 -/

def XVal.isNaN : XVal → Bool
  | .nan => true
  | _ => false

def XVal.isZero : XVal → Bool
  | .num _ n _ _ => n == 0
  | _ => false

def XVal.neg : XVal → XVal
  | .nan => .nan
  | .inf s => .inf (!s)
  | .num s n d e => .num (!s) n d e

def XVal.abs : XVal → XVal
  | .nan => .nan
  | .inf _ => .inf false
  | .num _ n d e => .num false n d e

def XVal.scale2 (x : XVal) (k : Int) : XVal :=
  match x with
  | .num s n d e => .num s n d (e + k)
  | y => y

/-- Signed numerator of a finite value over denominator `d * d'` at exponent `e0 ≤ e`. -/
def alignNum (s : Bool) (n d' : Nat) (e e0 : Int) : Int :=
  let m : Int := (n * d' * 2 ^ (e - e0).toNat : Nat)
  if s then -m else m

def XVal.add : XVal → XVal → XVal
  | .nan, _ => .nan
  | _, .nan => .nan
  | .inf s, .inf t => if s = t then .inf s else .nan
  | .inf s, _ => .inf s
  | _, .inf t => .inf t
  | .num s n d e, .num t n' d' e' =>
    if n = 0 ∧ n' = 0 then .num (s && t) 0 1 0
    else
      let e0 := min e e'
      let i := alignNum s n d' e e0 + alignNum t n' d e' e0
      .num (decide (i < 0)) i.natAbs (d * d') e0

def XVal.sub (a b : XVal) : XVal := a.add b.neg

def XVal.mul : XVal → XVal → XVal
  | .nan, _ => .nan
  | _, .nan => .nan
  | .inf s, .inf t => .inf (s != t)
  | .inf s, .num t n _ _ => if n = 0 then .nan else .inf (s != t)
  | .num s n _ _, .inf t => if n = 0 then .nan else .inf (s != t)
  | .num s n d e, .num t n' d' e' => .num (s != t) (n * n') (d * d') (e + e')

def XVal.div : XVal → XVal → XVal
  | .nan, _ => .nan
  | _, .nan => .nan
  | .inf _, .inf _ => .nan
  | .inf s, .num t _ _ _ => .inf (s != t)
  | .num s _ _ _, .inf t => .num (s != t) 0 1 0
  | .num s n d e, .num t n' d' e' =>
    if n' = 0 then (if n = 0 then .nan else .inf (s != t))
    else .num (s != t) (n * d') (d * n') (e - e')

/-- Integer square root of `n` by bits, from bit `k` down. -/
def isqrtGo (n : Nat) : Nat → Nat → Nat
  | 0, r => r
  | k + 1, r => if (r + 2 ^ k) * (r + 2 ^ k) ≤ n then isqrtGo n k (r + 2 ^ k) else isqrtGo n k r

def isqrt (n : Nat) : Nat := isqrtGo n (Nat.log2 n / 2 + 1) 0

/-- Square root of a dyadic value with 70 or more significant bits; a last sticky bit keeps it inexact where it is. -/
def XVal.sqrt : XVal → XVal
  | .nan => .nan
  | .inf s => if s then .nan else .inf false
  | .num s n _ e =>
    if n = 0 then .num s 0 1 0
    else if s then .nan
    else
      let e1 := if e % 2 = 0 then e - 140 else e - 141
      let m := n * 2 ^ (e - e1).toNat
      let r := isqrt m
      .num false (2 * r + b2n (decide (r * r < m))) 1 (e1 / 2 - 1)

/-- Order of two values that are not NaN; −0 below +0 when `zs` (min and max), equal otherwise (compare). -/
def XVal.lt (zs : Bool) : XVal → XVal → Bool
  | .nan, _ => false
  | _, .nan => false
  | .inf s, .inf t => s && !t
  | .inf s, _ => s
  | _, .inf t => !t
  | .num s n d e, .num t n' d' e' =>
    if n = 0 ∧ n' = 0 then zs && s && !t
    else
      let e0 := min e e'
      decide (alignNum s n d' e e0 < alignNum t n' d e' e0)

def XVal.eq (a b : XVal) : Bool := !a.isNaN && !b.isNaN && !XVal.lt false a b && !XVal.lt false b a

def XVal.max (a b : XVal) : XVal := if a.isNaN || b.isNaN then .nan else if XVal.lt true a b then b else a
def XVal.min (a b : XVal) : XVal := if a.isNaN || b.isNaN then .nan else if XVal.lt true b a then b else a

/-! ## Operations on FP32 patterns -/

def f32add (a b : Nat) : Nat := fp32.encode ((fp32.decode a).add (fp32.decode b))
def f32sub (a b : Nat) : Nat := fp32.encode ((fp32.decode a).sub (fp32.decode b))
def f32mul (a b : Nat) : Nat := fp32.encode ((fp32.decode a).mul (fp32.decode b))
def f32div (a b : Nat) : Nat := fp32.encode ((fp32.decode a).div (fp32.decode b))
def f32max (a b : Nat) : Nat := fp32.encode ((fp32.decode a).max (fp32.decode b))
def f32min (a b : Nat) : Nat := fp32.encode ((fp32.decode a).min (fp32.decode b))
def f32ofNat (n : Nat) : Nat := fp32.encode (.num false n 1 0)
def f32one : Nat := 0x3F800000
def f32negInf : Nat := 0xFF800000
def f32posInf : Nat := 0x7F800000

/-! ## The carry-stack sum (R181), over any combining step -/

/-- Push one leaf: while the top entry has the leaf's level, combine (the older on the left) and go up a level. -/
def carryPush {α : Type} (comb : α → α → α) : List (α × Nat) → α → Nat → List (α × Nat)
  | [], v, l => [(v, l)]
  | (w, k) :: t, v, l => if k = l then carryPush comb t (comb w v) (l + 1) else (v, l) :: (w, k) :: t

/-- Close a carry stack: combine from the top down. -/
def carryClose {α : Type} (comb : α → α → α) (z : α) : List (α × Nat) → α
  | [] => z
  | (v, _) :: t => t.foldl (fun acc p => comb p.1 acc) v

def carryTree {α : Type} (comb : α → α → α) (z : α) (l : List α) : α :=
  carryClose comb z (l.foldl (fun st v => carryPush comb st v 0) [])

/-! ## Scaled narrowing (R207 to R210) -/

/-- The storage formats a scaled conversion writes. -/
inductive NFmt where
  | e4m3 | e5m2 | e2m1 | int8 | int4
  deriving DecidableEq, Repr

/-- emax of R201. -/
def NFmt.emax : NFmt → Int
  | .e4m3 => 8 | .e5m2 => 15 | .int8 => 6 | .int4 => 2 | .e2m1 => 2

def NFmt.bits : NFmt → Nat
  | .e4m3 | .e5m2 | .int8 => 8
  | .e2m1 | .int4 => 4

/-- One element's conversion: its bits (saturated where it overflows), overflow, non-finite. -/
structure NRes where
  bits : Nat
  ovf : Bool
  nonfin : Bool
  deriving DecidableEq, Repr

/-- Largest finite magnitude as mantissa and exponent, with its pattern, of a floating storage format. -/
def NFmt.largest : NFmt → Nat × Int × Nat
  | .e4m3 => (7, 6, 0x7E)
  | .e5m2 => (7, 13, 0x7B)
  | _ => (3, 1, 0x7)

def NFmt.ffmt : NFmt → FFmt
  | .e4m3 => Machine.e4m3 | .e5m2 => Machine.e5m2 | _ => Machine.e2m1

/-- convert(r, fmt, t) of R207; an overflowing element carries the saturated bits of R210. -/
def NFmt.convert (f : NFmt) (r : XVal) (t : Int) : NRes :=
  match f, r with
  | .int8, .num s n d e =>
    let m := roundInt n d (e - t)
    let lim := if s then 128 else 127
    if lim < m then ⟨if s then 0x80 else 0x7F, true, false⟩
    else ⟨if s then (256 - m) % 256 else m, false, false⟩
  | .int4, .num s n d e =>
    let m := roundInt n d (e - t)
    let lim := if s then 8 else 7
    if lim < m then ⟨if s then 0x8 else 0x7, true, false⟩
    else ⟨if s then (16 - m) % 16 else m, false, false⟩
  | .int8, _ => ⟨0, false, true⟩
  | .int4, _ => ⟨0, false, true⟩
  | .e4m3, .nan => ⟨0x7F, false, true⟩
  | .e4m3, .inf _ => ⟨0x7F, false, true⟩
  | .e5m2, .nan => ⟨0x7E, false, true⟩
  | .e5m2, .inf s => ⟨if s then 0xFC else 0x7C, false, true⟩
  | .e2m1, .nan => ⟨0, false, true⟩
  | .e2m1, .inf _ => ⟨0, false, true⟩
  | g, .num s n d e =>
    let ff := g.ffmt
    let q := roundMag ff.mbits ff.qmin n d (e - t)
    let lg := g.largest
    if magGt q.1 q.2 lg.1 lg.2.1 then ⟨ff.signed s lg.2.2, true, false⟩
    else ⟨ff.signed s (ff.packMag q.1 q.2), false, false⟩

/-- Nearest-even conversion of a finite value to a two's-complement integer of `w` bits, wrapped. -/
def XVal.toIntRne : XVal → Int
  | .num s n d e =>
    let m : Int := (roundInt n d e : Nat)
    if s then -m else m
  | _ => 0

end Sys2Proof.Machine
end

