-- ==== Sys2Proof/Machine/Random.lean ====
section
/-! DEFINITION. The Wasuold mix (R238, R239) and the generator state of the vector engine (R243 to R247). -/
namespace Sys2Proof.Machine

/-- The four words of the mix. -/
structure Mix where
  a : W32
  b : W32
  c : W32
  d : W32
  deriving DecidableEq, Repr

/-- One round of the mix with key words `k0`, `k1` and round constant `con` (R238). -/
def mixRound (k0 k1 con : W32) (m : Mix) : Mix :=
  let a := m.a + k0
  let b := m.b + k1
  let c := m.c ^^^ con
  let a := a + b
  let d := (m.d ^^^ a).rotateLeft 16
  let c := c + d
  let b := (b ^^^ c).rotateLeft 12
  let a := a + b
  let d := (d ^^^ a).rotateLeft 8
  let c := c + d
  let b := (b ^^^ c).rotateLeft 7
  ⟨a, b, c, d⟩

def mixConsts : List W32 := [0x9E3779B9, 0x3C6EF372, 0xDAA66D2B, 0x78DDE6E4]

/-- mix(seed, stream, position) of R238. -/
def mix (seed stream position : W64) : Mix :=
  let k0 := seed.setWidth 32
  let k1 := (seed >>> 32).setWidth 32
  mixConsts.foldl (fun m con => mixRound k0 k1 con m)
    ⟨position.setWidth 32, (position >>> 32).setWidth 32, stream.setWidth 32, (stream >>> 32).setWidth 32⟩

/-- The 16-bit draw of lane `i` (R239, R245). -/
def GenState.draw (g : GenState) (i : Nat) : Nat :=
  (mix g.seed g.stream (g.base + BitVec.ofNat 64 i * g.stride)).a.toNat / 2 ^ 16

/-- After a drawing instruction BASE advances by VL × STRIDE when AUTO is 1 (R245). -/
def GenState.advance (g : GenState) (vl : Nat) : GenState :=
  if g.auto then { g with base := g.base + BitVec.ofNat 64 vl * g.stride } else g

end Sys2Proof.Machine
end

