-- ==== Sys2Proof/Machine/Operands.lean ====
section
/-! DEFINITION. Operands of the engines: scratch of a core, lanes of a vector register, element formats, and the wide
arithmetic of the control core. -/
namespace Sys2Proof.Machine

/-! ## Scratch of a core (R155: one home, at its window address) -/

def State.scrRd (s : State) (k : CoreId) (o n : Nat) : Nat := s.rd (scratchBase k + o) n
def State.scrBytes (s : State) (k : CoreId) (o n : Nat) : List Byte := s.readBytes (scratchBase k + o) n
def State.scrWr (s : State) (k : CoreId) (o n v : Nat) : State := s.wr (scratchBase k + o) n v
def State.scrWrBytes (s : State) (k : CoreId) (o : Nat) (l : List Byte) : State := s.writeBytes (scratchBase k + o) l

/-! ## Lanes (R218) -/

/-- Element width in bytes of a VFMT code (R219). -/
def vwidth (vfmt : Nat) : Nat := if vfmt = 1 ∨ vfmt = 2 ∨ vfmt = 4 then 2 else 4
def vlmax (vfmt : Nat) : Nat := if vwidth vfmt = 2 then 128 else 64
def isFloatFmt (vfmt : Nat) : Bool := decide (vfmt ≤ 2)
def vffmt (vfmt : Nat) : FFmt := if vfmt = 1 then bf16 else if vfmt = 2 then fp16 else fp32

/-- 32-bit word `i` of vector register `r`. -/
def Core.vword (c : Core) (r i : Nat) : Nat := (sget (fun _ => 0) c.vreg (r * 64 + i)).toNat
def Core.setVword (c : Core) (r i v : Nat) : Core :=
  { c with vreg := sset (fun _ => 0) c.vreg (r * 64 + i) (BitVec.ofNat 32 v) }

/-- `len` bits at bit position `p` of register `r`; `p` is a multiple of `len`. -/
def Core.vbits (c : Core) (r p len : Nat) : Nat := bits (c.vword r (p / 32)) (p % 32) len
def Core.setVbits (c : Core) (r p len v : Nat) : Core :=
  c.setVword r (p / 32) (setBits (c.vword r (p / 32)) (p % 32) len v)

/-- Lane `i` at `w` bytes. -/
def Core.lane (c : Core) (w r i : Nat) : Nat := c.vbits r (i * w * 8) (w * 8)
def Core.setLane (c : Core) (w r i v : Nat) : Core := c.setVbits r (i * w * 8) (w * 8) v

/-- Is lane `i` active under MASKED (R221)? -/
def Core.active (c : Core) (w : Nat) (masked : Bool) (i : Nat) : Bool := !masked || c.lane w 0 i != 0

/-- Lane `i` of VB, or element 0 under BZERO (R221). -/
def Core.laneB (c : Core) (w : Nat) (x : VForm) (i : Nat) : Nat := c.lane w x.vb.val (if x.bzero then 0 else i)

/-- Write the given (lane, value) pairs. -/
def Core.setLanes (c : Core) (w r : Nat) (l : List (Nat × Nat)) : Core :=
  l.foldl (fun c p => c.setLane w r p.1 p.2) c

/-- The active lanes below VL, ascending. -/
def Core.activeLanes (c : Core) (w : Nat) (masked : Bool) : List Nat :=
  (upFrom 0 c.vl).filter fun i => c.active w masked i

/-! ## Storage elements (R177, R178, R224) -/

/-- Decode one element of a floating array format (codes 0 to 6 of R177). -/
def decodeElem (code v : Nat) : XVal :=
  match code with
  | 0 => decodeE2M1 v
  | 1 => decodeE4M3 v
  | 2 => e5m2.decode v
  | 3 => bf16.decode v
  | 4 => fp16.decode v
  | 5 => fp32.decode v
  | 6 => fp64.decode v
  | 7 => intVal (sgn v 8)
  | _ => intVal (sgn v 4)

/-- Element size in bits of the codes of R177. -/
def elemBits (code : Nat) : Nat :=
  match code with
  | 0 => 4 | 1 => 8 | 2 => 8 | 3 => 16 | 4 => 16 | 5 => 32 | 6 => 64 | 7 => 8 | _ => 4

/-- Element `i` of an array packed from scratch offset `o`, low nibble first. -/
def State.scrElem (s : State) (k : CoreId) (o code i : Nat) : Nat :=
  let b := elemBits code
  if b = 4 then bits (s.scrRd k (o + i / 2) 1) (i % 2 * 4) 4 else s.scrRd k (o + i * (b / 8)) (b / 8)

/-! ## Scalar arithmetic (R146) -/

/-- The scalar operations on 32-bit operands; arithmetic wraps (R10). -/
def aluResult (o : AluOp) (a b : W32) : W32 :=
  match o with
  | .add => a + b
  | .sub => a - b
  | .and_ => a &&& b
  | .or_ => a ||| b
  | .xor_ => a ^^^ b
  | .shl => a <<< (b.toNat % 32)
  | .shr => a >>> (b.toNat % 32)
  | .sar => a.sshiftRight (b.toNat % 32)
  | .mul => a * b
  | .mulh => BitVec.ofInt 32 (a.toInt * b.toInt / 2 ^ 32)
  | .mulhu => BitVec.ofNat 32 (a.toNat * b.toNat / 2 ^ 32)
  | .seq => if a = b then 1 else 0
  | .sne => if a = b then 0 else 1
  | .slt => if a.toInt < b.toInt then 1 else 0
  | .sltu => if a.toNat < b.toNat then 1 else 0

def AluSrc.value (s : State) (k : CoreId) : AluSrc → W32
  | .reg r => s.gpr k r
  | .imm v => v

def memBytes : MemSize → Nat
  | .b1 => 1 | .b2 => 2 | .b4 => 4 | .pair => 8

end Sys2Proof.Machine
end

