-- ==== Sys2Proof/Machine/JobMem.lean ====
section
/-! DEFINITION. Reaching memory: banks (R89), the cluster cache and its directory (R159, R160), translation (R164,
R165), request slots (R162, R163), stream prefetchers (R166, R167), and memory errors (R444). -/
namespace Sys2Proof.Machine

/-! ## Banks and controllers (R14, R89) -/

/-- The bank of a DRAM address as one number; none for a scratch window address. -/
def bankOf (a : Nat) : Option Nat :=
  if inHbm a then
    let o := a % 0x900000000
    let q := o / 2 ^ 19
    let page := q / 3
    some ((((a / 0x900000000 * 32 + bits o 8 5) * 3 + q % 3) * 4 + Nat.xor (bits o 17 2) (bits page 2 2)) * 4 +
      Nat.xor (bits o 15 2) (page % 4))
  else if inLp a then
    let o := a % 0x1000000000
    let page := o / 2 ^ 17
    some (2 ^ 24 + (((a / 0x1000000000 * 4 + bits o 8 2) * 4 + Nat.xor (bits o 15 2) (bits page 2 2)) * 4 +
      Nat.xor (bits o 13 2) (page % 4)))
  else none

/-- The memory controller of a DRAM address. -/
def memCtl (a : Nat) : Option Blk :=
  if inHbm a then some (.hbc (Fin.ofNat 8 (a / 0x1B00000000)) (Fin.ofNat 3 (a % 0x1B00000000 / 0x900000000)))
  else if inLp a then
    some (.lpc (Fin.ofNat 8 ((a - lpBase) / 0x4000000000)) (Fin.ofNat 4 ((a - lpBase) % 0x4000000000 / 0x1000000000)))
  else none

/-- An uncorrectable beat of 32 bytes that holds `at_` (R443, R444); `arg` is 0 for a read, 1 for the scrub. -/
def State.dramUncorrectable (s : State) (at_ arg : Nat) : State :=
  match memCtl at_ with
  | some b =>
    let a := at_ / 32 * 32
    let s := (s.setReg b HBC_ERR_LO a).setReg b HBC_ERR_HI (a / 2 ^ 32 % 2 ^ 16 + 2 ^ 16)
    (s.bump b HBC_CNT_UE).log b 0x4002 4 [arg, a % 2 ^ 32, a / 2 ^ 32]
  | none => s

/-- A corrected beat at `a` (R444). -/
def State.dramCorrected (s : State) (a : Nat) : State :=
  match memCtl a with
  | some b => s.bump b HBC_CNT_CE
  | none => s

/-! ## The cluster cache (R159, R160) -/

def cacheSet (a : Nat) : Nat := Nat.xor (Nat.xor (a / 2 ^ 6) (a / 2 ^ 18)) (a / 2 ^ 30) % 4096

def Cluster.set_ (c : Cluster) (i : Nat) : List CacheLine := sget (fun _ => []) c.sets i
def Cluster.putSet (c : Cluster) (i : Nat) (l : List CacheLine) : Cluster :=
  { c with sets := sset (fun _ => []) c.sets i l }
def Cluster.hasLine (c : Cluster) (a : Nat) : Bool := (c.set_ (cacheSet a)).any fun x => x.line == a / 64
def Cluster.dirtyLine (c : Cluster) (a : Nat) : Bool := (c.set_ (cacheSet a)).any fun x => x.line == a / 64 && x.dirty

/-- Does the cluster's cache hold lines of this address? -/
def State.cacheable (s : State) (c : ClusterId) (a : Nat) : Bool := s.enabled (.cch c) && (inHbm a || inLp a)

/-- Put a line in its set as the most recently used one; the seventeenth is written back and leaves. -/
def State.cacheInsert (s : State) (c : ClusterId) (a : Nat) (x : CacheLine) : State :=
  let i := cacheSet a
  let v := s.cluster c
  let l := x :: (v.set_ i).filter fun y => y.line != x.line
  let s := s.setCluster c (v.putSet i (l.take 16))
  if (l.drop 16).any (·.dirty) then s.bump (.cch c) CCH_CNT_WRITEBACKS else s

/-- One access of the cluster to the line of `a`; was it a hit? -/
def State.touch (s : State) (c : ClusterId) (a : Nat) (write : Bool) : State × Bool :=
  if !s.cacheable c a then (s, false)
  else
    match ((s.cluster c).set_ (cacheSet a)).find? fun x => x.line == a / 64 with
    | some x =>
      let s := s.bump (.cch c) CCH_CNT_HITS
      let s := if x.prefetched then s.bump (.cch c) CCH_CNT_PF_USED else s
      (s.cacheInsert c a ⟨a / 64, x.dirty || write, false⟩, true)
    | none => ((s.bump (.cch c) CCH_CNT_MISSES).cacheInsert c a ⟨a / 64, write, false⟩, false)

/-- The lines that `n` bytes at `a` touch. -/
def linesOf (a n : Nat) : List Nat := if n = 0 then [] else upFrom (a / 64) ((a + n + 63) / 64 - a / 64)

/-- The cluster reads some lines. -/
def State.touchLines (s : State) (c : ClusterId) (l : List Nat) : State := l.foldl (fun s a => (s.touch c a false).1) s

/-- The cluster reads or writes every line of a range. -/
def State.touchRange (s : State) (c : ClusterId) (a n : Nat) (write : Bool) : State :=
  (linesOf a n).foldl (fun s l => (s.touch c (l * 64) write).1) s

/-- The directory invalidates a line in one cluster's cache, writing back a dirty copy first (R159). -/
def State.dropLine (s : State) (c : ClusterId) (a : Nat) : State :=
  let v := s.cluster c
  let l := v.set_ (cacheSet a)
  match l.find? fun x => x.line == a / 64 with
  | some x =>
    let s := s.setCluster c (v.putSet (cacheSet a) (l.filter fun y => y.line != a / 64))
    let s := s.bump (.cch c) CCH_CNT_INVAL
    if x.dirty then s.bump (.cch c) CCH_CNT_WRITEBACKS else s
  | none => s

/-- Every cluster but `keep` loses its copy of a line. -/
def State.invalidateLine (s : State) (keep : Option ClusterId) (a : Nat) : State :=
  (s.clusters.map (·.1)).foldl (fun s n =>
    if keep.map clusterIdx = some n then s else s.dropLine (clusterOfIdx n) a) s

/-- A write of a unit of cluster `c` is performed (R159). -/
def State.clusterWrite (s : State) (c : ClusterId) (a : Nat) (l : List Byte) : State :=
  let s := (s.writeBytes a l).touchRange c a l.length true
  (linesOf a l.length).foldl (fun s x => s.invalidateLine (some c) (x * 64)) s

/-- A write of an agent outside the clusters is performed (R159). -/
def State.outsideWrite (s : State) (a : Nat) (l : List Byte) : State :=
  (linesOf a l.length).foldl (fun s x => s.invalidateLine none (x * 64)) (s.writeBytes a l)

/-- A read by a unit of cluster `c` of a range: the bytes do not depend on the cache (R159). -/
def State.clusterRead (s : State) (c : ClusterId) (a n : Nat) : State := s.touchRange c a n false

def State.readRanges (s : State) (c : ClusterId) (l : List (Nat × Nat)) : State :=
  l.foldl (fun s x => s.clusterRead c x.1 x.2) s

/-- Write back every dirty line and hold none (R160). -/
def State.flushCache (s : State) (c : ClusterId) : State :=
  let v := s.cluster c
  let n := (v.sets.map fun p => (p.2.filter (·.dirty)).length).foldl (· + ·) 0
  (s.setCluster c { v with sets := [], streams := [], misses := [] }).bump (.cch c) CCH_CNT_WRITEBACKS n

/-- A line whose fetch failed is not held. -/
def State.forgetLine (s : State) (c : ClusterId) (a : Nat) : State :=
  let v := s.cluster c
  s.setCluster c (v.putSet (cacheSet a) ((v.set_ (cacheSet a)).filter fun y => y.line != a / 64))

/-- Was a dirty copy of the line of `a` lost in a cluster's cache? Any read of it then receives an error, whichever cluster makes
it (R160). -/
def State.lineLost (s : State) (a : Nat) : Bool := s.clusters.any fun p => p.2.poisoned.contains (a / 64)

/-- What the memory path found on a read of `a` by cluster `c` (R160, R444); did the reader receive an error? A line the
cache holds dirty was not read from memory. The bytes of a dirty line that is lost are free values. -/
def State.lineError (s : State) (c : ClusterId) (a : Nat) (e : LineErr) : State × Bool :=
  let b := Blk.cch c
  if s.lineLost a then (s, true)
  else
    match e with
    | .none => (s, false)
    | .dramCorrected => if (s.cluster c).dirtyLine a then (s, false) else (s.dramCorrected a, false)
    | .dramUncorrectable =>
      if (s.cluster c).dirtyLine a then (s, false) else ((s.dramUncorrectable a 0).forgetLine c a, (memCtl a).isSome)
    | .cacheSingle =>
      if (s.cluster c).hasLine a then ((s.bump b CCH_CNT_CE).setFlag b CCH_STATUS 0, false) else (s, false)
    | .cacheDouble =>
      if !(s.cluster c).hasLine a then (s, false)
      else if !(s.cluster c).dirtyLine a then ((s.bump b CCH_CNT_CE).setFlag b CCH_STATUS 1, false)
      else
        let s := (s.setFlag b CCH_STATUS 2).log b 0x4012 4 (lohi (a / 64 * 64))
        let s := s.faultCluster c 0x4012 b.base false
        let f := State.freeBytes 64 s
        let s := f.2.writeBytes (a / 64 * 64) f.1
        let v := s.cluster c
        (s.setCluster c { v with poisoned := a / 64 :: v.poisoned }, true)

/-- Does some range hold bytes of a dirty line that was lost (R160)? -/
def State.lostIn (s : State) (reads : List (Nat × Nat)) : Bool :=
  s.clusters.any fun p => p.2.poisoned.any fun l =>
    reads.any fun x => x.2 != 0 && decide (x.1 / 64 ≤ l) && decide (l ≤ (x.1 + x.2 - 1) / 64)

/-- The address of the line numbered `n` of those that some ranges lie in. -/
def lineAt : List (Nat × Nat) → Nat → Option Nat
  | [], _ => none
  | x :: t, n => let m := (linesOf x.1 x.2).length; if n < m then some ((x.1 / 64 + n) * 64) else lineAt t (n - m)

/-- What protection found in the ranges that unit `b` of a cluster reads, scratch or memory (R153, R160, R444): an error raises a job
fault, and the read delivers nothing (log entry 103). -/
def State.unitRead (s : State) (b : Blk) (c : ClusterId) (reads : List (Nat × Nat)) (e : Ecc) : State × Bool :=
  match (eccLost e reads).bind scratchCore with
  | some x => ((s.log (.cor x.1) 0x4010 4 [x.2]).faultCluster c 0x4010 (Blk.cor x.1).base false, true)
  | none =>
    if s.lostIn reads then (s.faultCluster c 0x4012 b.base false, true)
    else
      match e with
      | .line n err =>
        match lineAt reads n with
        | some a =>
          let r := s.lineError c a err
          if r.2 then (r.1.faultCluster c 0x4002 b.base false, true) else (r.1, false)
        | none => (s, false)
      | _ => ((s.windowEcc reads e).1, false)

/-! ## Translation (R164) -/

def pageBits (l1 : Bool) : Nat := if l1 then 30 else 21

/-- A valid leaf entry's page; none if its layout is broken or its base is outside the module data map. -/
def leafPage (va e : Nat) (l1 : Bool) : Option Xlat :=
  let n := pageBits l1
  let base := bits e 12 36 * 4096
  let inMap := inHbm base || inLp base || (decide (scratchLo ≤ base) && decide (base < scratchHi))
  if bits e 4 8 = 0 ∧ bits e 48 16 = 0 ∧ base % 2 ^ n = 0 ∧ inMap then
    some ⟨va / 2 ^ n * 2 ^ n, 2 ^ n, base, bit e 2, bit e 3⟩
  else none

/-- The page of a job address under the cluster's tables; none if it is unmapped. -/
def State.pageOf (s : State) (c : ClusterId) (va : Nat) : Option Xlat :=
  let lo := s.reg (.clu c) CLU_XLAT_LO
  if !bit lo 0 then none
  else
    let root := lo / 4096 * 4096 + s.reg (.clu c) CLU_XLAT_HI % 2 ^ 16 * 2 ^ 32
    let a1 := root + bits va 30 18 * 8
    let e := s.rd a1 8
    if !rangeDram a1 8 ∨ !bit e 0 then none
    else if bit e 1 then leafPage va e true
    else
      let a2 := bits e 12 36 * 4096 + bits va 21 9 * 8
      let f := s.rd a2 8
      if bits e 4 8 ≠ 0 ∨ bits e 48 16 ≠ 0 ∨ !rangeDram a2 8 ∨ !bit f 0 ∨ !bit f 1 then none else leafPage va f false

/-- The table entries that a walk reads, by address. -/
def State.walkAddrs (s : State) (c : ClusterId) (va : Nat) : List Nat :=
  let lo := s.reg (.clu c) CLU_XLAT_LO
  let a1 := lo / 4096 * 4096 + s.reg (.clu c) CLU_XLAT_HI % 2 ^ 16 * 2 ^ 32 + bits va 30 18 * 8
  if !bit lo 0 then []
  else
    let e := s.rd a1 8
    a1 :: if bit e 0 ∧ !bit e 1 then [bits e 12 36 * 4096 + bits va 21 9 * 8] else []

/-- The table reads of a walk go through the cluster cache. -/
def State.walkReads (s : State) (c : ClusterId) (va : Nat) : State :=
  (s.walkAddrs c va).foldl (fun s a => (s.touch c a false).1) s

def Xlat.covers (x : Xlat) (va : Nat) : Bool := decide (x.jobBase ≤ va) && decide (va < x.jobBase + x.size)

/-- Translate through the core's cache of 32 entries; a miss walks the tables and is counted. -/
def State.translate (s : State) (k : CoreId) (va : Nat) : State × Option Xlat :=
  match (s.core k).tlb.find? (·.covers va) with
  | some x => (s, some x)
  | none =>
    let r := s.pageOf k.cluster va
    let s := (s.bump (.cor k) COR_CNT_XLAT_MISS).walkReads k.cluster va
    match r with
    | some x => (s.setCore k { s.core k with tlb := (x :: (s.core k).tlb).take 32 }, some x)
    | none => (s, none)

/-- What the memory path found in the table entries that the translation of a core's access reads, where it walks: the address of
the one that is lost. -/
def State.walkError (s : State) (k : CoreId) (va : Nat) (e : Ecc) : State × Option Nat :=
  if (s.core k).tlb.any (·.covers va) then (s, none)
  else
    let l := s.walkAddrs k.cluster va
    let t := (s.bump (.cor k) COR_CNT_XLAT_MISS).walkReads k.cluster va
    match l.find? s.lineLost with
    | some a => (t, some a)
    | none =>
      match e with
      | .line n err =>
        match l[n]? with
        | some a =>
          let r := t.lineError k.cluster a err
          if r.2 then (r.1, some a) else ((s.lineError k.cluster a err).1, none)
        | none => (s, none)
      | _ => (s, none)

/-- Where an access lands, or the cause and the address of its fault (R161). -/
inductive Reach where
  | ok (addr : Nat) (x : Xlat)
  | fault (cause addr : Nat)
  deriving DecidableEq, Repr

def State.reach (s : State) (k : CoreId) (va n : Nat) (write : Bool) : State × Reach :=
  let r := s.translate k va
  match r.2 with
  | none => (r.1, .fault 1 va)
  | some x =>
    let a := x.base + (va - x.jobBase)
    if write ∧ !x.writable then (r.1, .fault 2 va)
    else if !rangeBacked a n then (r.1, .fault 3 a)
    else (r.1, .ok a x)

/-! ## Request slots (R162, R163) -/

def slotAddr (x : Slot) : Nat :=
  match x.use with
  | .load _ _ _ a => a
  | .store _ _ a _ => a
  | .prefetch _ a => a
  | .dma p write => if write then p.dst else p.src

def State.slotsOf (s : State) (k : CoreId) : List Slot := (s.core k).slots
def State.bankCount (s : State) (k : CoreId) (a : Nat) : Nat :=
  match bankOf a with
  | none => 0
  | some b => ((s.slotsOf k).filter fun x => bankOf (slotAddr x) == some b).length

/-- A slot is free and the bank is below the cap. -/
def State.slotReady (s : State) (k : CoreId) (a : Nat) : Bool :=
  decide ((s.slotsOf k).length < 48) && decide (s.bankCount k a < s.field (.cor k) COR_SLOT_CFG 0 4)

def State.freeSlotId (s : State) (k : CoreId) : Nat :=
  match (upFrom 0 48).find? fun i => !(s.slotsOf k).any fun x => x.id == i with
  | some i => i
  | none => 48

def State.takeSlot (s : State) (k : CoreId) (u : SlotUse) : State :=
  let c := s.core k
  s.setCore k { c with slots := c.slots ++ [⟨s.freeSlotId k, u⟩] }

def State.dropSlot (s : State) (k : CoreId) (id : Nat) : State :=
  let c := s.core k
  s.setCore k { c with slots := c.slots.filter fun x => x.id != id }

/-- Is a load into register `r` (or into the pair that ends at it) outstanding? -/
def State.loadPending (s : State) (k : CoreId) (r : Fin 32) : Bool :=
  (s.slotsOf k).any fun x =>
    match x.use with
    | .load rd n _ _ => rd == r || (n == 8 && rd.val + 1 == r.val)
    | _ => false

def slotIsStore (x : Slot) : Bool :=
  match x.use with
  | .store .. => true
  | _ => false

def slotIsCore (x : Slot) : Bool :=
  match x.use with
  | .load .. | .store .. => true
  | _ => false

def slotIsPrefetch (x : Slot) : Bool :=
  match x.use with
  | .prefetch .. => true
  | _ => false

/-- Every earlier store of the control core has been performed. -/
def State.storesDone (s : State) (k : CoreId) : Bool := !(s.slotsOf k).any slotIsStore
/-- Every earlier load and store of the control core has been performed. -/
def State.accessesDone (s : State) (k : CoreId) : Bool := !(s.slotsOf k).any slotIsCore

/-- The slots taken before slot `id`. -/
def slotsBefore : List Slot → Nat → List Slot
  | [], _ => []
  | x :: t, id => if x.id = id then [] else x :: slotsBefore t id

/-- An earlier access of the control core to the same 64-byte line is outstanding (R150). -/
def State.lineBlocked (s : State) (k : CoreId) (id a : Nat) : Bool :=
  (slotsBefore (s.slotsOf k) id).any fun x => slotIsCore x && slotAddr x / 64 == a / 64

/-! ## Stream prefetchers (R166, R167) -/

def nextLine (asc : Bool) (l n : Nat) : Nat := if asc then l + n else l - n

/-- Does a job line lie in the same page as another under the translation of the first? -/
def Xlat.sameLinePage (x : Xlat) (l : Nat) : Bool := x.covers (l * 64)

/-- A page into which a stream may run: mapped, PREFETCH_OK, and not a scratch window page. -/
def eligible (x : Option Xlat) : Bool :=
  match x with
  | some x => x.prefetchOk && (inHbm x.base || inLp x.base)
  | none => false

/-- The page of a run-ahead line as the prefetcher holds it. -/
def Stream.page (t : Stream) (line : Nat) : Option (Option Xlat) :=
  (t.pages.find? fun p => p.1 == line / 2 ^ 15 || (match p.2 with | some x => x.sameLinePage line | none => false)).map (·.2)

/-- The prefetcher translates a page once (R167); the walk's reads go through the cluster cache. It keeps the page it
is in and the next. -/
def State.streamPage (s : State) (c : ClusterId) (t : Stream) (line : Nat) : State × Stream × Option Xlat :=
  match t.page line with
  | some x => (s, t, x)
  | none =>
    let x := s.pageOf c (line * 64)
    (s.walkReads c (line * 64), { t with pages := ((line / 2 ^ 15, x) :: t.pages).take 2 }, x)

/-- Request one run-ahead line of a stream (R163, R166, R167); does it wait for a slot? -/
def State.requestAhead (s : State) (c : ClusterId) (t : Stream) (line : Nat) : State × Stream × Bool :=
  let k := c.coreAt t.core
  let p := s.streamPage c t line
  let s := p.1
  match p.2.2 with
  | none => (s.bump (.cch c) CCH_CNT_PF_DROPPED, p.2.1, false)
  | some x =>
    if !eligible (some x) then (s.bump (.cch c) CCH_CNT_PF_DROPPED, p.2.1, false)
    else
      let a := x.base + (line * 64 - x.jobBase)
      let asked := (s.slotsOf k).any fun y =>
        match y.use with
        | .prefetch _ b => b == a
        | _ => false
      if (s.cluster c).hasLine a || asked then (s, p.2.1, false)
      else if s.field (.cor k) COR_SLOT_CFG 8 5 < 48 - (s.slotsOf k).length ∧ s.slotReady k a then
        ((s.takeSlot k (.prefetch (line * 64) a)).bump (.cch c) CCH_CNT_PF_ISSUED, p.2.1, false)
      else (s, p.2.1, true)

/-- Request each of some lines; one that must wait is passed and kept (R163). -/
def State.requestLines (c : ClusterId) : List Nat → State → Stream → State × Stream
  | [], s, t => (s, t)
  | l :: rest, s, t =>
    let r := s.requestAhead c t l
    State.requestLines c rest r.1 (if r.2.2 then { r.2.1 with waiting := r.2.1.waiting ++ [l] } else r.2.1)

/-- The lines after `f` up to `target` in the direction of the stream. -/
def linesAhead (asc : Bool) (f target : Nat) : List Nat :=
  if asc then upFrom (f + 1) (target - f) else (upFrom target (f - target)).reverse

/-- Make the requests of one stream (by its position): first the lines that wait, then up to DEPTH lines ahead. -/
def State.advanceStream (s : State) (c : ClusterId) (i : Nat) : State :=
  match (s.cluster c).streams[i]? with
  | none => s
  | some t =>
    if !s.flag (.cch c) CCH_PF_CFG 8 then s
    else
      let target := nextLine t.ascending t.last (s.field (.cch c) CCH_PF_CFG 0 8)
      let old := t.waiting.filter fun l => if t.ascending then decide (t.last < l) else decide (l < t.last)
      let far := if t.ascending then max t.furthest target else min t.furthest target
      let r := State.requestLines c (old ++ linesAhead t.ascending t.furthest target) s { t with waiting := [], furthest := far }
      let v := r.1.cluster c
      r.1.setCluster c { v with streams := v.streams.set i r.2 }

/-- The position of the stream of core `k` that the demanded line belongs to. -/
def Cluster.streamAt (v : Cluster) (core : Fin 16) (line : Nat) : Option (Nat × Stream) :=
  findIdx? (fun t => t.core == core && (line == t.last || line == nextLine t.ascending t.last 1)) v.streams 0

def Cluster.missesOf (v : Cluster) (core : Fin 16) : List Nat :=
  match v.misses.find? fun m => m.core == core with
  | some m => m.lines
  | none => []

def Cluster.setMisses (v : Cluster) (core : Fin 16) (l : List Nat) : Cluster :=
  { v with misses := ⟨core, l⟩ :: v.misses.filter fun m => m.core != core }

/-- Do earlier misses `old`, newest first, make line `l` the third of three consecutive lines of its page in one
direction (R166)? Other misses of the core may come between them. -/
def thirdMiss (x : Xlat) (asc : Bool) (l : Nat) (old : List Nat) : Bool :=
  let b := nextLine (!asc) l 1
  let c := nextLine (!asc) l 2
  x.sameLinePage b && x.sameLinePage c && l != b && b != c && (old.dropWhile (· != b)).contains c

/-- A demand access to a line of a stream advances it, or retires it in an ineligible page; `x` is the page. The third
consecutive miss allocates one, in place of the least recently advanced of 16. -/
def State.streamDemand (s : State) (k : CoreId) (line : Nat) (x : Xlat) (miss : Bool) : State :=
  let c := k.cluster
  let v := s.cluster c
  match v.streamAt k.core line with
  | some (i, t) =>
    let others := v.streams.eraseIdx i
    if !eligible (some x) then s.setCluster c { v with streams := others }
    else
      let f := if t.ascending then max t.furthest line else min t.furthest line
      (s.setCluster c { v with streams := { t with last := line, furthest := f } :: others }).advanceStream c 0
  | none =>
    if !miss then s
    else
      let old := v.missesOf k.core
      let asc := thirdMiss x true line old
      if (asc || thirdMiss x false line old) && eligible (some x) && s.flag (.cch c) CCH_PF_CFG 8 then
        let t : Stream := ⟨k.core, asc, line, line, [], [(line / 2 ^ 15, some x)]⟩
        let v := v.setMisses k.core (old.filter fun l => l != nextLine (!asc) line 1 && l != nextLine (!asc) line 2)
        (s.setCluster c { v with streams := (t :: v.streams).take 16 }).advanceStream c 0
      else s.setCluster c (v.setMisses k.core (line :: old.filter (· != line)))

/-- A demand access of the core to a translated address. -/
def State.demand (s : State) (k : CoreId) (va a : Nat) (x : Xlat) (write : Bool) : State :=
  let r := s.touch k.cluster a write
  if s.cacheable k.cluster a || !eligible (some x) then r.1.streamDemand k (va / 64) x (!r.2 && s.cacheable k.cluster a)
  else r.1

/-- Every stream of the cluster makes the requests that wait for a slot. -/
def State.advanceAll (s : State) (c : ClusterId) : State :=
  (upFrom 0 (s.cluster c).streams.length).foldl (fun s i => s.advanceStream c i) s

end Sys2Proof.Machine
end

