-- ==== Sys2Proof/Machine/Packet.lean ====
section
/-! DEFINITION. Packets as bytes (R290 to R295) and the form of a header (R472). -/
namespace Sys2Proof.Machine

def typPut : Nat := 0
def typMsg : Nat := 1
def typReduce : Nat := 2
def typAck : Nat := 3
def typNack : Nat := 4

/-- The six header words of R291. -/
def Pkt.words (p : Pkt) : List Nat :=
  [p.hver + p.typ * 2 ^ 2 + p.job * 2 ^ 6 + p.gen * 2 ^ 18 + p.units * 2 ^ 34 + b2n p.resent * 2 ^ 39 + p.flow * 2 ^ 40 +
     p.hoplimit * 2 ^ 50 + b2n p.expressed * 2 ^ 56,
   p.src + p.dst * 2 ^ 32,
   p.seq + p.xfer * 2 ^ 24 + p.dtile * 2 ^ 48 + p.dcluster * 2 ^ 51 + p.dunit * 2 ^ 58,
   p.offset + p.lenM1 * 2 ^ 24 + p.step * 2 ^ 48,
   p.base, 0]

/-- The 48 header bytes. -/
def Pkt.header (p : Pkt) : List Byte := p.words.flatMap (leBytes 8)

/-- The CRC-64 of a packet: HOPLIMIT and EXPRESSED are taken as zero (R295). -/
def Pkt.crc (p : Pkt) : Nat := crc64 ({ p with hoplimit := 0, expressed := false }.header ++ p.payload)

/-- The packet as it leaves its source. -/
def Pkt.sealed (p : Pkt) : Pkt := { p with trailer := p.crc }

/-- The bytes a packet occupies (R290). -/
def Pkt.size (p : Pkt) : Nat := 56 + p.units * 256

def Pkt.bytes (p : Pkt) : List Byte := p.header ++ p.payload ++ leBytes 8 p.trailer

/-- The packet that bytes spell: 48 header bytes, the payload, and the last 8 bytes as trailer. -/
def Pkt.ofBytes (l : List Byte) : Pkt :=
  let w i := fieldAt l (8 * i) 8
  { hver := bits (w 0) 0 2, typ := bits (w 0) 2 4, job := bits (w 0) 6 12, gen := bits (w 0) 18 16,
    units := bits (w 0) 34 5, resent := bit (w 0) 39, flow := bits (w 0) 40 10, hoplimit := bits (w 0) 50 6,
    expressed := bit (w 0) 56, src := bits (w 1) 0 32, dst := bits (w 1) 32 32, seq := bits (w 2) 0 24,
    xfer := bits (w 2) 24 24, dtile := bits (w 2) 48 3, dcluster := bits (w 2) 51 7, dunit := bits (w 2) 58 3,
    offset := bits (w 3) 0 24, lenM1 := bits (w 3) 24 24, step := bits (w 3) 48 16, base := bits (w 4) 0 48,
    reserved := bits (w 0) 57 7 != 0 || bits (w 2) 61 3 != 0 || bits (w 4) 48 16 != 0 || w 5 != 0,
    payload := (l.drop 48).take (l.length - 56), trailer := fieldAt l (l.length - 8) 8 }

/-- The payload units of the packet at `offset` of a transfer (R294). -/
def unitsAt (len offset : Nat) : Nat := (min (offset + 4096) len - offset + 255) / 256

/-- A header that breaks its form (R472). -/
def Pkt.badForm (p : Pkt) : Bool :=
  let isMsg := p.typ == typMsg
  let flowOk :=
    if p.typ = typMsg then decide (p.flow < 640)
    else if p.typ = typPut then decide (640 ≤ p.flow) && decide (p.flow < 648)
    else if p.typ = typReduce then decide (648 ≤ p.flow) && decide (p.flow < 656)
    else decide (p.flow < 656)
  !flowOk || (if isMsg then decide (79 < p.dcluster) else p.dcluster != 0) ||
    (if isMsg then decide (2 < p.dunit) else p.dunit != 0) || (p.typ != typPut && p.base != 0) ||
    ((p.typ == typPut || isMsg) &&
      (p.offset % 4096 != 0 || decide (p.lenM1 < p.offset) || p.units != unitsAt (p.lenM1 + 1) p.offset)) ||
    (p.typ == typAck && (p.units != 0 || p.seq != 0)) || (p.typ == typNack && p.units != 1 && p.units != 2)

/-- Check 2 of R296. -/
def Pkt.badHeader (p : Pkt) : Bool :=
  p.hver != 1 || decide (4 < p.typ) || decide (16 < p.units) || p.reserved || p.badForm

/-- The tile that a FLOW names (R293). -/
def flowTile (flow : Nat) : Nat := if flow < 640 then flow / 80 else (flow - 640) % 8

end Sys2Proof.Machine
end

