-- ==== Sys2Proof/Machine/Copy.lean ====
section
/-! DEFINITION. How a copy of the DMA engine moves (R156 to R158, R162, R163): the accesses of a descriptor in progress,
the request slots they hold, and what each moves when it is performed. -/
namespace Sys2Proof.Machine

def DmaDesc.srcAt (d : DmaDesc) : Nat := if d.srcLocal then d.src % 2 ^ 19 else d.src % 2 ^ 48
def DmaDesc.dstAt (d : DmaDesc) : Nat := if d.dstLocal then d.dst % 2 ^ 19 else d.dst % 2 ^ 48
def DmaDesc.readsJob (d : DmaDesc) : Bool := !d.fill && !d.srcLocal
def DmaDesc.writesJob (d : DmaDesc) : Bool := !d.dstLocal

/-- The part of a row of a copy that lies in the aligned 8-byte word of the destination that holds the row's byte `i`. -/
def DmaDesc.wordSpan (d : DmaDesc) (row i : Nat) : Nat × Nat :=
  let o := (d.dstAt + row * d.dstStride + i) % 8
  (i - min i o, min d.rowBytes (i + 8 - o))

/-- Descriptor numbers in progress are 0 to 3 (R158). -/
def Core.freeRun (c : Core) : Nat :=
  match (upFrom 0 4).find? fun i => !c.dmaRun.any fun r => r.id == i with
  | some i => i
  | none => 4

def Core.runOf (c : Core) (id : Nat) : Option DmaRun := c.dmaRun.find? fun r => r.id == id
def Core.putRun (c : Core) (r : DmaRun) : Core := { c with dmaRun := c.dmaRun.map fun x => if x.id = r.id then r else x }

/-- A descriptor begins. -/
def Core.startRun (c : Core) (d : DmaDesc) : Core := { c with dmaRun := c.dmaRun ++ [⟨c.freeRun, d, 0, 0, [], []⟩] }

/-- Where a descriptor stands after `n` more bytes of its row. -/
def DmaRun.after (r : DmaRun) (n : Nat) : DmaRun :=
  if r.desc.rowBytes ≤ r.pos + n then { r with row := r.row + 1, pos := 0 } else { r with pos := r.pos + n }

/-- The bytes of one access: what is left of the row, up to the end of the 256-byte chunk of each job side (R162). -/
def DmaDesc.pieceLen (d : DmaDesc) (src dst left : Nat) : Nat :=
  min left (min (if d.readsJob then 256 - src % 256 else left) (if d.writesJob then 256 - dst % 256 else left))

/-- Where an end of a copy lies: scratch of the core, or a translated job address. -/
def State.dmaReach (s : State) (k : CoreId) (loc : Bool) (a n : Nat) (write : Bool) : State × Reach :=
  if loc then (s, .ok (scratchBase k + a) ⟨0, 0, 0, true, false⟩) else s.reach k (a % 2 ^ 48) n write

/-- The lines of job address that an access demands, under the page that holds them. -/
structure Demand where
  va : Nat
  len : Nat
  page : Xlat
  write : Bool
  deriving DecidableEq, Repr

/-- An access of a descriptor in progress; a page that faults gives the cause and the address. -/
inductive NextPart where
  | fault (cause addr : Nat)
  | part (p : DmaPiece) (lines : List Demand)
  deriving DecidableEq, Repr

/-- The access of a descriptor that begins at byte `pos` of a row. -/
def State.partAt (s : State) (k : CoreId) (r : DmaRun) (row pos : Nat) : State × NextPart :=
  let d := r.desc
  let src := d.srcAt + row * d.srcStride + pos
  let dst := d.dstAt + row * d.dstStride + pos
  let n := d.pieceLen src dst (d.rowBytes - pos)
  let a := if d.fill then (s, Reach.ok 0 ⟨0, 0, 0, true, false⟩) else s.dmaReach k d.srcLocal src n false
  match a.2 with
  | .fault c x => (a.1, .fault c x)
  | .ok sa sx =>
    let b := a.1.dmaReach k d.dstLocal dst n true
    match b.2 with
    | .fault c x => (b.1, .fault c x)
    | .ok da dx =>
      (b.1, .part ⟨r.id, row, pos, sa, da, n⟩ ((if d.readsJob then [⟨src % 2 ^ 48, n, sx, false⟩] else []) ++
        (if d.writesJob then [⟨dst % 2 ^ 48, n, dx, true⟩] else [])))

/-- The lines an access reads or writes reach the cluster cache and its prefetchers. -/
def State.demandLines (s : State) (k : CoreId) (d : Demand) : State :=
  (linesOf d.va d.len).foldl (fun s l => s.demand k (l * 64) (d.page.base + (l * 64 - d.page.jobBase)) d.page d.write) s

/-! ## Taking slots -/

/-- Take a slot for one side of an access, if that side is a job address. -/
def State.dmaSlot (s : State) (k : CoreId) (p : DmaPiece) (write job : Bool) : Option State :=
  if !job then some s
  else if s.slotReady k (if write then p.dst else p.src) then some (s.takeSlot k (.dma p write))
  else none

/-- What becomes of an access that is to issue: it takes its slots, with the lines it demands; its bank is at the cap; or it stops
the descriptor's issue, since no slot is free, its page faults, or it needs no slot. -/
inductive Issued where
  | taken (s : State) (len : Nat) (lines : List Demand)
  | capped (len : Nat)
  | stop
  deriving DecidableEq, Repr

/-- Issue the access of a descriptor that begins at byte `pos` of a row. -/
def State.issueAt (s : State) (k : CoreId) (r : DmaRun) (row pos : Nat) : Issued :=
  let n := s.partAt k r row pos
  match n.2 with
  | .part p l =>
    if l.isEmpty then .stop
    else
      match (n.1.dmaSlot k p false r.desc.readsJob).bind fun t => t.dmaSlot k p true r.desc.writesJob with
      | some u => .taken u p.len l
      | none => if (s.slotsOf k).length + l.length ≤ 48 then .capped p.len else .stop
  | .fault .. => .stop

/-- Issue the accesses that a descriptor has passed, as far as slots allow; those that wait on, and the lines demanded. -/
def State.issuePassed (k : CoreId) (r : DmaRun) : List (Nat × Nat) → State → State × List (Nat × Nat) × List Demand
  | [], s => (s, [], [])
  | x :: rest, s =>
    match s.issueAt k r x.1 x.2 with
    | .taken u _ l =>
      let t := State.issuePassed k r rest u
      (t.1, t.2.1, l ++ t.2.2)
    | .capped _ =>
      let t := State.issuePassed k r rest s
      (t.1, x :: t.2.1, t.2.2)
    | .stop => (s, x :: rest, [])

/-- Issue the accesses of a descriptor that it has not come to, as far as slots allow: one whose bank is at the cap is passed
(R163). -/
def State.issueNext (k : CoreId) : Nat → DmaRun → State → State × DmaRun × List Demand
  | 0, r, s => (s, r, [])
  | n + 1, r, s =>
    if r.desc.rows ≤ r.row then (s, r, [])
    else
      match s.issueAt k r r.row r.pos with
      | .taken u len l =>
        let t := State.issueNext k n (r.after len) u
        (t.1, t.2.1, l ++ t.2.2)
      | .capped len => State.issueNext k n { r.after len with passed := r.passed ++ [(r.row, r.pos)] } s
      | .stop => (s, r, [])

/-- At most this many accesses move a whole copy. -/
def DmaDesc.parts (d : DmaDesc) : Nat := d.rows * (d.rowBytes / 64 + 4) + 1

/-- Issue accesses of the descriptor numbered `id` as far as slots allow; the lines they demand. -/
def State.issueParts (k : CoreId) (id : Nat) (s : State) (l : List Demand) : State × List Demand :=
  match (s.core k).runOf id with
  | none => (s, l)
  | some r =>
    let a := State.issuePassed k r r.passed s
    let b := State.issueNext k r.desc.parts { r with passed := a.2.1 } a.1
    (b.1.setCore k ((b.1.core k).putRun b.2.1), l ++ a.2.2 ++ b.2.2)

/-- The DMA engine takes the slots its descriptors want, oldest descriptor first; only then may the prefetchers that its
accesses train take any (R162). -/
def State.dmaTurn (s : State) (k : CoreId) : State :=
  if s.coreFaulted k then s
  else
    let r := (s.core k).dmaRun.foldl (fun (x : State × List Demand) r => State.issueParts k r.id x.1 x.2) (s, [])
    r.2.foldl (fun s d => s.demandLines k d) r.1

/-! ## Performing accesses -/

def State.dropPart (s : State) (k : CoreId) (p : DmaPiece) : State :=
  let c := s.core k
  s.setCore k { c with slots := c.slots.filter fun x => x.use != .dma p true && x.use != .dma p false }

/-- `n` bytes of the fill pattern from byte `pos` of a row; rows begin on 8-byte boundaries of the pattern. -/
def fillBytes (pattern pos n : Nat) : List Byte :=
  (upFrom pos n).map fun i => BitVec.ofNat 8 (pattern / 2 ^ (8 * (i % 8)))

/-- 64-byte lines that an access begins: one that goes on in the line of the access before it does not count it again. -/
def DmaPiece.newLines (p : DmaPiece) : Nat :=
  (linesOf p.dst p.len).length - (if p.pos ≠ 0 ∧ p.dst % 64 ≠ 0 then 1 else 0)

/-- The first byte an access reads of a line that was lost (R160). -/
def State.lostByte (s : State) (p : DmaPiece) : Option Nat :=
  ((linesOf p.src p.len).find? fun l => s.lineLost (l * 64)).map fun l => max p.src (l * 64)

/-- Bytes of row `row` from place `pos` on. -/
def heldFrom (row pos : Nat) (l : List Byte) : List HeldByte := (l.zip (upFrom pos l.length)).map fun x => ⟨row, x.2, x.1⟩

/-- The bytes of a row from `lo` up to `hi`, if all are held. -/
def heldAll (l : List HeldByte) (row lo hi : Nat) : Option (List Byte) :=
  (upFrom lo (hi - lo)).mapM fun i => (l.find? fun x => x.row == row && x.pos == i).map (·.val)

/-- A destination word that an access shares with its neighbours lands once all of its bytes are held (R158). -/
def State.landWord (s : State) (r : DmaRun) (p : DmaPiece) (w : Nat × Nat) : State × DmaRun :=
  match heldAll r.held p.row w.1 w.2 with
  | some l =>
    (s.writeBytes (p.dst + w.1 - p.pos) l,
      { r with held := r.held.filter fun x => !(x.row == p.row && decide (w.1 ≤ x.pos) && decide (x.pos < w.2)) })
  | none => (s, r)

/-- The bytes of an access land, each aligned 8-byte word of the destination whole (R129, R158): the words that the access holds all
of, and those that it makes whole. -/
def State.landBytes (s : State) (r : DmaRun) (p : DmaPiece) (l : List Byte) : State × DmaRun :=
  let last := p.pos + p.len
  let front := r.desc.wordSpan p.row p.pos
  let back := r.desc.wordSpan p.row (last - 1)
  let a := if front.1 = p.pos then p.pos else min front.2 last
  let b := if back.2 = last then last else max back.1 a
  let s := s.writeBytes (p.dst + (a - p.pos)) (slice l (a - p.pos) (b - a))
  let r := { r with held := r.held ++ heldFrom p.row p.pos (l.take (a - p.pos)) ++ heldFrom p.row b (l.drop (b - p.pos)) }
  let t := if a = p.pos then (s, r) else s.landWord r p front
  if b = last then t else t.1.landWord t.2 p back

/-- An access of a descriptor is performed: its bytes move and its slots are free; the address of a line that was lost,
of which nothing moves. -/
def State.finishPart (s : State) (k : CoreId) (r : DmaRun) (p : DmaPiece) : State × DmaRun × Option Nat :=
  let d := r.desc
  let s := s.dropPart k p
  match (if d.fill then none else s.lostByte p) with
  | some a => (s, r, some a)
  | none =>
    let t := s.landBytes r p (if d.fill then fillBytes d.src p.pos p.len else s.readBytes p.src p.len)
    let s := if d.dstLocal then t.1
      else (linesOf p.dst p.len).foldl (fun s l => s.invalidateLine (some k.cluster) (l * 64)) t.1
    (s.bump (.cor k) COR_CNT_DMA_LINES p.newLines, t.2, none)

/-- The oldest access in flight of the descriptor numbered `id`. -/
def State.flying (s : State) (k : CoreId) (id : Nat) : Option DmaPiece :=
  (s.slotsOf k).findSome? fun x =>
    match x.use with
    | .dma p _ => if p.run = id then some p else none
    | _ => none

/-- Perform every access of a descriptor that is in flight. -/
def State.finishFlying (k : CoreId) : Nat → DmaRun → State → State × DmaRun × Option Nat
  | 0, r, s => (s, r, none)
  | n + 1, r, s =>
    match s.flying k r.id with
    | none => (s, r, none)
    | some p =>
      let t := s.finishPart k r p
      match t.2.2 with
      | some a => (t.1, t.2.1, some a)
      | none => State.finishFlying k n t.2.1 t.1

/-- Perform the access of a descriptor that begins at byte `pos` of a row: its length, or the cause and the address of a fault. -/
def State.finishAt (s : State) (k : CoreId) (r : DmaRun) (row pos : Nat) : State × DmaRun × Nat × Option (Nat × Nat) :=
  let x := s.partAt k r row pos
  match x.2 with
  | .fault c a => (x.1, r, 0, some (c, a))
  | .part p l =>
    let t := (l.foldl (fun s d => s.demandLines k d) x.1).finishPart k r p
    (t.1, t.2.1, p.len, t.2.2.map fun a => (7, a))

/-- Perform the accesses that a descriptor has passed. -/
def State.finishPassed (k : CoreId) : List (Nat × Nat) → DmaRun → State → State × DmaRun × Option (Nat × Nat)
  | [], r, s => (s, r, none)
  | x :: rest, r, s =>
    let t := s.finishAt k r x.1 x.2
    match t.2.2.2 with
    | some e => (t.1, t.2.1, some e)
    | none => State.finishPassed k rest t.2.1 t.1

/-- Perform every access of a descriptor that it has not come to; the cause and the address of the first fault. -/
def State.finishRest (k : CoreId) : Nat → DmaRun → State → State × Option (Nat × Nat)
  | 0, _, s => (s, none)
  | n + 1, r, s =>
    if r.desc.rows ≤ r.row then (s, none)
    else
      let t := s.finishAt k r r.row r.pos
      match t.2.2.2 with
      | some e => (t.1, some e)
      | none => State.finishRest k n (t.2.1.after t.2.2.1) t.1

/-- Perform what is left of a descriptor in progress; the cause and the address of its first fault. -/
def State.dmaFinish (s : State) (k : CoreId) (r : DmaRun) : State × Option (Nat × Nat) :=
  let a := State.finishFlying k 48 r s
  match a.2.2 with
  | some x => (a.1, some (7, x))
  | none =>
    let b := State.finishPassed k r.passed a.2.1 a.1
    match b.2.2 with
    | some e => (b.1, some e)
    | none => State.finishRest k r.desc.parts b.2.1 b.1

/-- An access of the control core finds no slot: the oldest access of DMA that holds the one it needs is performed
first, so that the two take turns (R162, R163). -/
def State.dmaYield (s : State) (k : CoreId) (a : Nat) : State :=
  if s.slotReady k a then s
  else
    let full := decide (48 ≤ (s.slotsOf k).length)
    let p := (s.slotsOf k).findSome? fun x =>
      match x.use with
      | .dma p _ => if full || (bankOf (slotAddr x)).isSome && bankOf (slotAddr x) == bankOf a then some p else none
      | _ => none
    match p with
    | none => s
    | some p =>
      match (s.core k).runOf p.run with
      | none => s
      | some r =>
        let t := s.finishPart k r p
        if t.2.2 = none then t.1.setCore k ((t.1.core k).putRun t.2.1) else s

end Sys2Proof.Machine
end

