-- ==== Sys2Proof/Machine/Flags.lean ====
section
/-! DEFINITION. Flags: the vector engine's sticky flags and refusal reason (R234, R237), the matrix refusal reason
(R189), and the flags of a scaled conversion (R207 to R211). -/
namespace Sys2Proof.Machine

def flagPermRange : Nat := 0
def flagSmxEmpty : Nat := 1
def flagSaturated : Nat := 2

/-- A sticky flag stays set until VSUM FLAGS reads it or the core is enabled (R234). -/
def State.setVecFlag (s : State) (k : CoreId) (i : Nat) : State := s.setFlag (.cor k) VEC_FLAGS i

/-- The vector engine refuses an instruction (R234): the reason is recorded and logged, and the core stops with
cause 4 at the instruction's address. -/
def State.vecRefuse (s : State) (k : CoreId) (reason pc : Nat) : State :=
  let s := s.setReg (.cor k) VEC_FAULT reason
  let s := s.log (.cor k) (0x1200 + reason) 3
  s.coreFault k 4 pc

/-- The matrix array refuses an instruction (R189). -/
def State.mtxRefuse (s : State) (k : CoreId) (reason group pc : Nat) : State :=
  let s := s.setReg (.cor k) MTX_FAULT (reason + group * 16)
  let s := s.log (.cor k) (0x1100 + reason) 3
  s.coreFault k 4 pc

/-! ## A scaled conversion of a tile (R207 to R211) -/

/-- What a conversion gives: the bits of each element, the final attempt, saturation, non-finite, the exponent, the
block scales, and AMAX. -/
structure Converted where
  bits : List Nat
  attempt : Nat
  saturated : Bool
  nonfinite : Bool
  exp : Int
  scales : List Nat
  amax : XVal
  deriving DecidableEq, Repr

/-- The largest magnitude of the finite elements; +0.0 if none. -/
def finiteAmax (l : List XVal) : XVal :=
  l.foldl (fun m x => match x with
    | .num _ n d e => if XVal.lt false m (.num false n d e) then .num false n d e else m
    | _ => m) (.num false 0 1 0)

def anyNonfinite (l : List XVal) : Bool :=
  l.any fun x => match x with
    | .num .. => false
    | _ => true

/-- floor(log2) of a non-zero finite magnitude. -/
def XVal.log2 : XVal → Int
  | .num _ n d e => floorLog2 n d + e
  | _ => 0

/-- The scale exponent of a conversion (R204). -/
def SmEntry.scaleExp (e : SmEntry) (f : NFmt) : Int :=
  let m := finiteAmax (e.hist.map fp32.decode)
  let s := if m.isZero then e.initExp else m.log2 - f.emax + e.headroom
  min (max s (-124)) 124

/-- One attempt at exponent `t` of the FP8 and integer formats. -/
def attemptAll (f : NFmt) (l : List XVal) (t : Int) : List NRes := l.map fun x => f.convert x t

/-- Attempts from `a` on, of at most `n` more (R209, R210). -/
def convertScaled (f : NFmt) (l : List XVal) (s : Int) : Nat → Nat → Converted
  | 0, a =>
    let r := attemptAll f l (s + a)
    ⟨r.map (·.bits), a, r.any (·.ovf), r.any (·.nonfin), s + a, [], finiteAmax l⟩
  | n + 1, a =>
    let r := attemptAll f l (s + a)
    if r.any (·.ovf) then convertScaled f l s n (a + 1)
    else ⟨r.map (·.bits), a, false, r.any (·.nonfin), s + a, [], finiteAmax l⟩

/-- One FP4 block at attempt `a`: its scale byte and elements (R208). -/
def fp4Block (l : List XVal) (a : Nat) : Nat × List NRes :=
  if anyNonfinite l then (0xFF, l.map fun _ => ⟨0, false, true⟩)
  else
    let m := finiteAmax l
    let x : Int := if m.isZero then 0 else min (max (m.log2 - 2 + a) (-127)) 127
    ((x + 127).toNat, l.map fun r => NFmt.e2m1.convert r x)

/-- FP4 conversion of blocks: attempts from `a` on, of at most `n` more. -/
def convertFp4 (blocks : List (List XVal)) : Nat → Nat → Converted
  | 0, a =>
    let r := blocks.map fun b => fp4Block b a
    ⟨(r.flatMap (·.2)).map (·.bits), a, r.any (fun p => p.2.any (·.ovf)), r.any (fun p => p.2.any (·.nonfin)), 0,
      r.map (·.1), finiteAmax blocks.flatten⟩
  | n + 1, a =>
    let r := blocks.map fun b => fp4Block b a
    if r.any (fun p => p.2.any (·.ovf)) then convertFp4 blocks n (a + 1)
    else ⟨(r.flatMap (·.2)).map (·.bits), a, false, r.any (fun p => p.2.any (·.nonfin)), 0, r.map (·.1),
      finiteAmax blocks.flatten⟩

/-- The first 16 bytes and 48 further bytes of the scale sidecar (R211). -/
def sidecarBytes (c : Converted) (fmtCode : Nat) (scales : List Nat) : List Byte :=
  leBytes 1 (unsgn c.exp 8) ++ leBytes 1 (c.attempt + 1) ++ leBytes 1 (b2n c.saturated + 2 * b2n c.nonfinite) ++
    leBytes 1 fmtCode ++ leBytes 4 (fp32.encode c.amax) ++ List.replicate 8 0 ++
    (scales.map fun v => BitVec.ofNat 8 v) ++ List.replicate 16 0

def State.smEntry (s : State) (k : CoreId) (e : Nat) : SmEntry := sget (fun _ => SmEntry.reset) (s.core k).sm e
def State.setSmEntry (s : State) (k : CoreId) (e : Nat) (v : SmEntry) : State :=
  let c := s.core k
  s.setCore k { c with sm := sset (fun _ => SmEntry.reset) c.sm e v }

/-- STEP_MAX takes the larger of itself and AMAX when a conversion's output is written (R204). -/
def State.recordAmax (s : State) (k : CoreId) (e : Nat) (amax : XVal) : State :=
  let x := s.smEntry k e
  s.setSmEntry k e { x with stepMax := fp32.encode (XVal.max (fp32.decode x.stepMax) (fp32.decode (fp32.encode amax))) }

end Sys2Proof.Machine
end

