-- ==== Sys2Proof/Machine/Matrix.lean ====
section
/-! DEFINITION. The matrix and Thinning arrays: operand and output descriptors, leaves, the summation tree, and closing
a group (R172 to R189, R201 to R211). -/
namespace Sys2Proof.Machine

/-- A signal on its way to a sync object (R251). -/
structure Sig where
  core : CoreId
  obj : Nat
  amount : Nat
  deriving DecidableEq, Repr

/-! ## Operand descriptor (R176) -/

structure MaccDesc where
  ctrl : Nat
  done : Nat
  k : Nat
  shape : Nat
  aOff : Nat
  aStride : Nat
  bOff : Nat
  bStride : Nat
  idxOff : Nat
  aScale : Nat
  bScale : Nat
  tail : Bool
  deriving DecidableEq, Repr

def MaccDesc.fmtA (d : MaccDesc) : Nat := bits d.ctrl 0 4
def MaccDesc.fmtB (d : MaccDesc) : Nat := bits d.ctrl 4 4
def MaccDesc.thin (d : MaccDesc) : Bool := bit d.ctrl 8
def MaccDesc.kmaj (d : MaccDesc) : Bool := bit d.ctrl 9
def MaccDesc.btrans (d : MaccDesc) : Bool := bit d.ctrl 10
def MaccDesc.signal (d : MaccDesc) : Bool := bit d.ctrl 11
def MaccDesc.rows (d : MaccDesc) : Nat := bits d.shape 0 5
def MaccDesc.cols (d : MaccDesc) : Nat := bits d.shape 8 7

def State.maccDesc (s : State) (k : CoreId) (o : Nat) : MaccDesc :=
  let f i := s.scrRd k (o + i) 4
  ⟨f 0, f 4, f 8, f 0xC, f 0x10, f 0x14, f 0x18, f 0x1C, f 0x20, f 0x24, f 0x28, allZero (s.scrBytes k (o + 0x2C) 20)⟩

/-- The group KIND a format pair belongs to (R177); none for a pair outside the table. -/
def pairKind (a b : Nat) : Option Nat :=
  if a = 0 ∧ b = 0 then some 0
  else if (a = 1 ∨ a = 2) ∧ (b = 1 ∨ b = 2) then some 0
  else if a = b ∧ (a = 3 ∨ a = 4 ∨ a = 5) then some 0
  else if a = 6 ∧ b = 6 then some 2
  else if a = b ∧ (a = 7 ∨ a = 8) then some 1
  else none

/-- Cycles in which an array retires `k` K-steps of a format (R177). -/
def maccCycles (fmt k : Nat) (thin : Bool) : Nat :=
  let dense := match fmt with
    | 0 => (k + 1) / 2 | 8 => (k + 1) / 2 | 3 => 2 * k | 4 => 2 * k | 5 => 8 * k | 6 => 32 * k | _ => k
  if thin then (if fmt = 0 then (k + 3) / 4 else (k + 1) / 2) else dense

def doneBad (d : Nat) : Bool := bits d 10 22 != 0 || decide (47 < bits d 4 6)

/-- Reserved fields and formats (reason 1 of R189). -/
def MaccDesc.bad1 (d : MaccDesc) : Bool :=
  bits d.ctrl 12 20 != 0 || decide (8 < d.fmtA) || decide (8 < d.fmtB) || doneBad d.done ||
  (!d.signal && d.done != 0) || bits d.shape 5 3 != 0 || bits d.shape 15 17 != 0 || !d.tail ||
  (!d.thin && d.idxOff != 0) || (d.fmtA != 0 && d.aScale != 0) || (d.fmtB != 0 && d.bScale != 0) ||
  [d.aOff, d.bOff, d.idxOff, d.aScale, d.bScale].any (fun v => decide (2 ^ 19 ≤ v))

def MaccDesc.bad2 (d : MaccDesc) : Bool :=
  (pairKind d.fmtA d.fmtB).isNone || (d.thin && (decide (2 < d.fmtA) || decide (2 < d.fmtB) || d.btrans))

def bytesOf (n bitsEach : Nat) : Nat := (n * bitsEach + 7) / 8

/-- The ends of every range the descriptor names (R178, R179). -/
def MaccDesc.ends (d : MaccDesc) : List Nat :=
  let ea := elemBits d.fmtA
  let eb := elemBits d.fmtB
  let a := if d.kmaj then d.aOff + (d.k - 1) * bytesOf 16 ea + bytesOf d.rows ea
    else d.aOff + (d.rows - 1) * d.aStride + bytesOf d.k ea
  let b := if d.thin then d.bOff + (d.k / 4 - 1) * d.bStride + bytesOf (2 * d.cols) eb
    else if d.btrans then d.bOff + (d.cols - 1) * d.bStride + bytesOf d.k eb
    else d.bOff + (d.k - 1) * d.bStride + bytesOf d.cols eb
  let i := if d.thin then [d.idxOff + 8 * d.k] else []
  let sa := if d.fmtA = 0 then [d.aScale + (d.rows - 1) * ((d.k + 31) / 32) + d.k / 32] else []
  let sb := if d.fmtB = 0 then [d.bScale + (d.k / 32 - 1) * 64 + d.cols] else []
  [a, b] ++ i ++ sa ++ sb

def MaccDesc.bad3 (d : MaccDesc) : Bool := d.ends.any fun e => decide (scratchBytes < e)

def MaccDesc.bad4 (d : MaccDesc) : Bool :=
  d.k == 0 || decide (65536 < d.k) || (d.thin && d.k % 4 != 0) ||
  ((d.fmtA == 0 || d.fmtB == 0) && d.k % 32 != 0) || ((d.fmtA == 8 || d.fmtB == 8) && d.k % 2 != 0) ||
  d.rows == 0 || decide (16 < d.rows) || d.cols == 0 || decide (64 < d.cols) ||
  (!d.kmaj && d.aStride % 64 != 0) || d.bStride % 64 != 0 ||
  (d.thin && decide (d.bStride < bytesOf 128 (elemBits d.fmtB))) ||
  (!d.thin && !d.btrans && decide (d.bStride < bytesOf 64 (elemBits d.fmtB)))

/-- The index nibble of group `q` of K-positions and column `n` (R179). -/
def State.idxNibble (s : State) (k : CoreId) (d : MaccDesc) (q n : Nat) : Nat :=
  bits (s.scrRd k (d.idxOff + 32 * q + n / 2) 1) (4 * (n % 2)) 4

def nibbleBad (v : Nat) : Bool := decide (bits v 2 2 ≤ bits v 0 2)

def State.bad5 (s : State) (k : CoreId) (d : MaccDesc) : Bool :=
  d.thin && (upFrom 0 (d.k / 4)).any fun q => (upFrom 0 64).any fun n => nibbleBad (s.idxNibble k d q n)

/-! ## Leaves (R180, R186) -/

/-- Element a[m][j]. -/
def State.aElem (s : State) (k : CoreId) (d : MaccDesc) (m j : Nat) : Nat :=
  if d.kmaj then s.scrElem k (d.aOff + j * bytesOf 16 (elemBits d.fmtA)) d.fmtA m
  else s.scrElem k (d.aOff + m * d.aStride) d.fmtA j

/-- Element b[j][n] of a dense operand, or of the tile a compressed operand describes; none at a skipped position. -/
def State.bElem (s : State) (k : CoreId) (d : MaccDesc) (j n : Nat) : Option Nat :=
  if d.thin then
    let q := j / 4
    let v := s.idxNibble k d q n
    if j % 4 = bits v 0 2 then some (s.scrElem k (d.bOff + q * d.bStride) d.fmtB (2 * n))
    else if j % 4 = bits v 2 2 then some (s.scrElem k (d.bOff + q * d.bStride) d.fmtB (2 * n + 1))
    else none
  else if d.btrans then some (s.scrElem k (d.bOff + n * d.bStride) d.fmtB j)
  else some (s.scrElem k (d.bOff + j * d.bStride) d.fmtB n)

def State.aScaleOf (s : State) (k : CoreId) (d : MaccDesc) (m j : Nat) : XVal :=
  if d.fmtA = 0 then decodeE8M0 (s.scrRd k (d.aScale + m * ((d.k + 31) / 32) + j / 32) 1) else intVal 1

def State.bScaleOf (s : State) (k : CoreId) (d : MaccDesc) (j n : Nat) : XVal :=
  if d.fmtB = 0 then decodeE8M0 (s.scrRd k (d.bScale + j / 32 * 64 + n) 1) else intVal 1

/-- The accumulator format of a floating KIND. -/
def kindFmt (kind : Nat) : FFmt := if kind = 2 then fp64 else fp32

/-- The leaf of a kept position on either array: the product of the elements with their scales, in the kind's format (R180). -/
def keptLeaf (kind : Nat) (a b scale : XVal) : Nat :=
  if kind = 1 then unsgn (a.mul b).toIntRne 32
  else (kindFmt kind).encode ((a.mul b).mul scale)

/-- The leaf of a skipped position of the Thinning array (R186): +0.0 for a finite A element, the canonical NaN for one that is
NaN or infinite, as the dense product +0.0 × a, scales included, would be (R187). -/
def skippedLeaf (kind : Nat) (a scale : XVal) : Nat :=
  if ((a.mul (.num false 0 1 0)).mul scale).isNaN then (kindFmt kind).nanBits else 0

/-- The leaf of K-step `j` in cell (m, n), as bits of the group's kind (R180, R186). -/
def State.leaf (s : State) (k : CoreId) (d : MaccDesc) (kind j m n : Nat) : Nat :=
  if d.rows ≤ m ∨ d.cols ≤ n then 0
  else
    let a := decodeElem d.fmtA (s.aElem k d m j)
    let scale := (s.aScaleOf k d m j).mul (s.bScaleOf k d j n)
    match s.bElem k d j n with
    | some v => keptLeaf kind a (decodeElem d.fmtB v) scale
    | none => skippedLeaf kind a scale

/-! ## Groups (R174, R181, R183) -/

/-- The add of a KIND: FP32, 32-bit integer, or binary64. -/
def kindAdd (kind : Nat) (a b : Nat) : Nat :=
  if kind = 1 then (a + b) % 2 ^ 32
  else (kindFmt kind).encode (((kindFmt kind).decode a).add ((kindFmt kind).decode b))

def Group.stack (g : Group) (m n : Nat) : List (Nat × Nat) := sget (fun _ => []) g.cells (m * 64 + n)

/-- Append the K-steps of a MACC to every cell, in ascending k (R174). -/
def State.accumulate (s : State) (k : CoreId) (d : MaccDesc) (g : Group) : Group :=
  let cells := (upFrom 0 1024).foldl (fun cs i =>
    let st := (upFrom 0 d.k).foldl (fun st j => carryPush (kindAdd g.kind) st (s.leaf k d g.kind j (i / 64) (i % 64)) 0)
      (sget (fun _ => []) cs i)
    sset (fun _ => []) cs i st) g.cells
  { g with kcount := g.kcount + d.k, cells := cells }

def State.group (s : State) (k : CoreId) (g : Fin 4) : Group := (s.core k).groups.getD g.val Group.closed
def State.setGroup (s : State) (k : CoreId) (g : Fin 4) (v : Group) : State :=
  s.setCore k { s.core k with groups := (s.core k).groups.set g.val v }

/-- The partner of a group in an FP64 pair (R175). -/
def partner (g : Fin 4) : Fin 4 := if g.val % 2 = 0 then g + 1 else g - 1

/-- Does the group's partner hold an open FP64 group, so that naming this one breaks R175? -/
def State.pairedAway (s : State) (k : CoreId) (g : Fin 4) : Bool :=
  g.val % 2 == 1 && (s.group k (partner g)).isOpen && (s.group k (partner g)).kind == 2

/-! ## MACC -/

/-- Why a MACC is refused; 0 when it is not. -/
def State.maccReason (s : State) (k : CoreId) (g : Fin 4) (o : Nat) : Nat :=
  if o % 64 ≠ 0 ∨ !inCoreScratch o 64 then 3
  else
    let d := s.maccDesc k o
    let gr := s.group k g
    if d.bad1 then 1
    else if d.bad2 then 2
    else if d.bad4 then 4
    else if d.bad3 then 3
    else if s.bad5 k d then 5
    else if s.pairedAway k g then 7
    else if !gr.isOpen || pairKind d.fmtA d.fmtB != some gr.kind then 6
    else if 65536 < gr.kcount + d.k then 8
    else 0

/-- Cycles that the manual fixes count by cause while profiling mode is active (R169, R195). -/
def State.stalled (s : State) (k : CoreId) (o n : Nat) : State :=
  if s.flag (.clu k.cluster) CLU_PROFILE 1 then s.bump (.cor k) o n else s

/-- The array an ACC needs is woken and the other gated (R172): 1 matrix, 2 Thinning. -/
def State.useArray (s : State) (k : CoreId) (a : Nat) : State :=
  if (s.core k).activeArray = a then s
  else ((s.setCore k { s.core k with activeArray := a }).bump (.cor k) MTX_CNT_SWITCH).stalled k MTX_STALL_WAKE 64

def doneSig (k : CoreId) (done : Nat) : Sig := ⟨k.cluster.coreAt (Fin.ofNat 16 (bits done 0 4)), bits done 4 6, 1⟩

/-- The scratch ranges that `n` rows of a stride take. -/
def rowReads (o stride n bytes : Nat) : List (Nat × Nat) := (upFrom 0 n).map fun i => (o + i * stride, bytes)

/-- The scratch a MACC reads: its descriptor, operands, index nibbles and scales (R178, R179). -/
def MaccDesc.reads (d : MaccDesc) (o : Nat) : List (Nat × Nat) :=
  let ea := elemBits d.fmtA
  let eb := elemBits d.fmtB
  [(o, 64)] ++
  (if d.kmaj then rowReads d.aOff (bytesOf 16 ea) d.k (bytesOf d.rows ea) else rowReads d.aOff d.aStride d.rows (bytesOf d.k ea)) ++
  (if d.thin then rowReads d.bOff d.bStride (d.k / 4) (bytesOf (2 * d.cols) eb)
   else if d.btrans then rowReads d.bOff d.bStride d.cols (bytesOf d.k eb)
   else rowReads d.bOff d.bStride d.k (bytesOf d.cols eb)) ++
  (if d.thin then [(d.idxOff, 8 * d.k)] else []) ++
  (if d.fmtA = 0 then rowReads d.aScale ((d.k + 31) / 32) d.rows (d.k / 32) else []) ++
  (if d.fmtB = 0 then rowReads d.bScale 64 (d.k / 32) d.cols else [])

/-- MACC (R176); a double-bit error in the words it reads stops the core with cause 7 (R153). -/
def State.runMacc (s : State) (k : CoreId) (g : Fin 4) (o : Nat) (ecc : Ecc) (pc : Nat) : State × List Sig :=
  let r := s.maccReason k g o
  if r ≠ 0 then (s.mtxRefuse k r g.val pc, [])
  else
    let d := s.maccDesc k o
    match eccLost ecc (d.reads o) with
    | some a => (s.coreFault k 7 a, [])
    | none =>
    let s := s.countEcc k (d.reads o) ecc
    let s1 := s.setGroup k g (s.accumulate k d (s.group k g))
    let s2 := s1.useArray k (if d.thin then 2 else 1)
    let s3 := s2.bump (.cor k) (if d.thin then MTX_CNT_THIN_CYC else MTX_CNT_DENSE_CYC) (maccCycles d.fmtA d.k d.thin)
    (s3.stalled k MTX_STALL_STAGE 6, if d.signal then [doneSig k d.done] else [])

/-! ## MBEGIN and MABORT -/

def State.runMbegin (s : State) (k : CoreId) (g : Fin 4) (kind : Nat) (pc : Nat) : State :=
  let bad := (s.group k g).isOpen || s.pairedAway k g ||
    (kind == 2 && (g.val % 2 == 1 || (s.group k (partner g)).isOpen))
  if bad then s.mtxRefuse k 7 g.val pc else s.setGroup k g ⟨true, kind, 0, []⟩

def State.runMabort (s : State) (k : CoreId) (g : Fin 4) (pc : Nat) : State :=
  if s.pairedAway k g then s.mtxRefuse k 7 g.val pc else s.setGroup k g Group.closed

/-! ## MEND (R184, R185) -/

structure MendDesc where
  ctrl : Nat
  done : Nat
  out : Nat
  outStride : Nat
  c : Nat
  cStride : Nat
  inExp : Nat
  shape : Nat
  sidecar : Nat
  scaleId : Nat
  tail : Bool
  deriving DecidableEq, Repr

def State.mendDesc (s : State) (k : CoreId) (o : Nat) : MendDesc :=
  let f i := s.scrRd k (o + i) 4
  ⟨f 0, f 4, f 8, f 0xC, f 0x10, f 0x14, f 0x18, f 0x1C, f 0x20, f 0x24, allZero (s.scrBytes k (o + 0x28) 24)⟩

def MendDesc.fmt (d : MendDesc) : Nat := bits d.ctrl 0 4
def MendDesc.addC (d : MendDesc) : Bool := bit d.ctrl 4
def MendDesc.rows (d : MendDesc) : Nat := bits d.shape 0 5
def MendDesc.cols (d : MendDesc) : Nat := bits d.shape 8 7
def MendDesc.exp (d : MendDesc) : Int := sgn d.inExp 9
/-- Is OUT_FMT one of the scaled formats (R201)? -/
def MendDesc.scaled (d : MendDesc) : Bool := d.fmt == 3 || d.fmt == 4 || d.fmt == 5 || d.fmt == 7

/-- Output element size in bits of an OUT_FMT (R184). -/
def outBits (fmt : Nat) : Nat :=
  match fmt with
  | 0 => 32 | 1 => 16 | 2 => 16 | 3 => 8 | 4 => 8 | 5 => 4 | 6 => 32 | 7 => 8 | _ => 64

def MendDesc.bad1 (d : MendDesc) : Bool :=
  bits d.ctrl 5 27 != 0 || decide (8 < d.fmt) || doneBad d.done || bits d.inExp 9 23 != 0 || d.exp == -256 ||
  bits d.shape 5 3 != 0 || bits d.shape 15 17 != 0 || !d.tail || (!d.addC && (d.c != 0 || d.cStride != 0)) ||
  (!d.scaled && d.sidecar != 0) || (d.sidecar == 0 && d.scaleId != 0) || decide (63 < d.scaleId) ||
  ((d.fmt == 6 || d.fmt == 7) && d.inExp != 0) ||
  [d.out, d.c, d.sidecar].any (fun v => decide (2 ^ 19 ≤ v))

/-- Size in bytes of a C element (R184). -/
def cBytes (kind : Nat) : Nat := if kind = 2 then 8 else 4

def MendDesc.bad4 (d : MendDesc) (kind : Nat) : Bool :=
  d.rows == 0 || decide (16 < d.rows) || d.cols == 0 || decide (64 < d.cols) ||
  d.outStride % (if d.fmt = 5 then 32 else 64) != 0 || decide (d.outStride < 64 * outBits d.fmt / 8) ||
  (d.addC && (d.cStride % 64 != 0 || decide (d.cStride < 64 * cBytes kind)))

def rowRange (o stride rows bytes : Nat) : Nat := o + (rows - 1) * stride + bytes

def MendDesc.bad3 (d : MendDesc) (kind : Nat) : Bool :=
  decide (scratchBytes < rowRange d.out d.outStride d.rows (bytesOf d.cols (outBits d.fmt))) ||
  (d.addC && decide (scratchBytes < rowRange d.c d.cStride d.rows (d.cols * cBytes kind))) ||
  (d.scaled && (d.sidecar % 64 != 0 || !inCoreScratch d.sidecar 64))

/-- Accepted OUT_FMT of a KIND (R184). -/
def outOk (kind fmt : Nat) : Bool :=
  if kind = 0 then decide (fmt ≤ 5) else if kind = 1 then fmt == 0 || fmt == 6 || fmt == 7 else fmt == 0 || fmt == 8

/-- Does C overlap the output without occupying exactly its bytes? -/
def MendDesc.cOverlap (d : MendDesc) (kind : Nat) : Bool :=
  let ow := bytesOf d.cols (outBits d.fmt)
  let cw := d.cols * cBytes kind
  let same := d.c == d.out && ow == cw && (d.cStride == d.outStride || d.rows == 1)
  d.addC && !same && (upFrom 0 d.rows).any fun i => (upFrom 0 d.rows).any fun j =>
    decide (d.out + i * d.outStride < d.c + j * d.cStride + cw) && decide (d.c + j * d.cStride < d.out + i * d.outStride + ow)

def State.mendReason (s : State) (k : CoreId) (g : Fin 4) (o : Nat) : Nat :=
  if o % 64 ≠ 0 ∨ !inCoreScratch o 64 then 3
  else
    let d := s.mendDesc k o
    let gr := s.group k g
    if d.bad1 then 1
    else if d.bad4 gr.kind then 4
    else if d.bad3 gr.kind then 3
    else if s.pairedAway k g then 7
    else if !gr.isOpen || !outOk gr.kind d.fmt || d.cOverlap gr.kind then 6
    else 0

/-- The element (m, n) after draining, scaling and adding C (steps 1 to 3 of R185), as an exact value; `r` bits are
FP32, INT32 or binary64 as `mendKind` says. -/
def State.mendElem (s : State) (k : CoreId) (d : MendDesc) (g : Group) (m n : Nat) : XVal :=
  let r := carryClose (kindAdd g.kind) 0 (g.stack m n)
  let cAt := d.c + m * d.cStride + n * cBytes g.kind
  if g.kind = 1 then
    if d.fmt = 0 then
      let v := fp32.encode ((intVal (sgn r 32)).scale2 d.exp)
      fp32.decode (if d.addC then f32add (s.scrRd k cAt 4) v else v)
    else intVal (sgn (if d.addC then r + s.scrRd k cAt 4 else r) 32)
  else
    let f := kindFmt g.kind
    let v := f.encode ((f.decode r).scale2 d.exp)
    f.decode (if d.addC then kindAdd g.kind (s.scrRd k cAt (cBytes g.kind)) v else v)

/-- Bits of an unscaled output element (R185, step 4). -/
def mendPlain (fmt : Nat) (x : XVal) : Nat :=
  match fmt with
  | 0 => fp32.encode x
  | 1 => bf16.encode x
  | 2 => fp16.encode x
  | 6 => unsgn x.toIntRne 32
  | _ => fp64.encode x

def mendNfmt (fmt : Nat) : NFmt :=
  match fmt with
  | 3 => .e4m3 | 4 => .e5m2 | 5 => .e2m1 | _ => .int8

/-- Write an output element of `b` bits at column `n` of a row. -/
def State.putElem (s : State) (k : CoreId) (row b n v : Nat) : State :=
  if b = 4 then
    let o := row + n / 2
    s.scrWr k o 1 (setBits (s.scrRd k o 1) (n % 2 * 4) 4 v)
  else s.scrWr k (row + n * (b / 8)) (b / 8) v

/-- The two FP4 blocks of row `m`: columns 32 j up to COLS (R208). -/
def fp4Row (cols : Nat) (f : Nat → XVal) : List (List XVal) :=
  [(upFrom 0 (min cols 32)).map f, (upFrom 32 (cols - 32)).map f]

def isNonfinite : XVal → Bool
  | .num .. => false
  | _ => true

/-- The scratch a MEND reads: its descriptor and C. -/
def MendDesc.reads (d : MendDesc) (o kind : Nat) : List (Nat × Nat) :=
  [(o, 64)] ++ (if d.addC then rowReads d.c d.cStride d.rows (d.cols * cBytes kind) else [])

/-- MEND (R184, R185); a double-bit error in the words it reads stops the core with cause 7 (R153). -/
def State.runMend (s : State) (k : CoreId) (g : Fin 4) (o : Nat) (ecc : Ecc) (pc : Nat) : State × List Sig :=
  let r := s.mendReason k g o
  if r ≠ 0 then (s.mtxRefuse k r g.val pc, [])
  else
    let d := s.mendDesc k o
    let gr := s.group k g
    match eccLost ecc (d.reads o gr.kind) with
    | some a => (s.coreFault k 7 a, [])
    | none =>
    let s := s.countEcc k (d.reads o gr.kind) ecc
    let cells := (upFrom 0 d.rows).flatMap fun m => (upFrom 0 d.cols).map fun n => (m, n)
    let vals := cells.map fun p => s.mendElem k d gr p.1 p.2
    let cv : Converted :=
      if d.fmt = 5 then
        convertFp4 ((upFrom 0 d.rows).flatMap fun m => fp4Row d.cols (fun n => s.mendElem k d gr m n)) 3 0
      else convertScaled (mendNfmt d.fmt) vals ((s.smEntry k d.scaleId).scaleExp (mendNfmt d.fmt)) 3 0
    let outBitsList := if d.scaled then cv.bits else vals.map (mendPlain d.fmt)
    let nonfin := (vals.filter fun x =>
      if d.fmt = 5 ∨ d.fmt = 7 then false
      else if d.scaled then isNonfinite x else isNonfinite (if d.fmt = 1 then bf16.decode (bf16.encode x)
        else if d.fmt = 2 then fp16.decode (fp16.encode x)
        else if d.fmt = 0 then fp32.decode (fp32.encode x) else x)).length
    let s1 := (cells.zip outBitsList).foldl (fun s p =>
      s.putElem k (d.out + p.1.1 * d.outStride) (outBits d.fmt) p.1.2 p.2) s
    let s2 :=
      if d.scaled then
        let scales := if d.fmt = 5 then (cv.scales ++ List.replicate 32 0x7F).take 32 else List.replicate 32 0
        let s := s1.scrWrBytes k d.sidecar (sidecarBytes cv d.fmt scales)
        let s := s.recordAmax k d.scaleId cv.amax
        if cv.saturated then s.log (.cor k) 0x1110 2 else s
      else s1
    let s3 := s2.setGroup k g Group.closed
    let s4 := (s3.bump (.cor k) MTX_CNT_GROUPS).bump (.cor k) MTX_CNT_NONFINITE nonfin
    (s4.stalled k MTX_STALL_DRAIN 16, [doneSig k d.done])

/-- Execute one matrix instruction from the queue. -/
def State.mtxExec (s : State) (k : CoreId) (op : MOp) (pc : Nat) : State × List Sig :=
  match op with
  | .begin_ g kind => (s.runMbegin k g kind.val pc, [])
  | .macc g o ecc => s.runMacc k g o ecc pc
  | .mend g o ecc => s.runMend k g o ecc pc
  | .abort g => (s.runMabort k g pc, [])

end Sys2Proof.Machine
end

