-- ==== Sys2Proof/Machine/Transcend.lean ====
section
/-! DEFINITION. exp, log, tanh and sigmoid (R215): the exact result as a fixed-point value of 640 fraction bits, and a
result within one unit in the last place of it, which Config.lastPlace chooses (log entry 6). -/
namespace Sys2Proof.Machine

/-! ## Fixed point -/

/-- Fraction bits: far more than an operand of 8 exponent bits needs to tell a result from a neighbouring number. -/
def fxBits : Nat := 640
def fxOne : Nat := 2 ^ fxBits

/-- At most `n` further terms of the exponential series of `r`, from term `t` with number `i` on. -/
def expTerms (r : Nat) : Nat → Nat → Nat → Nat
  | 0, _, _ => 0
  | n + 1, i, t => t + expTerms r n (i + 1) (t * r / fxOne / (i + 1))

/-- At most `n` further terms of the series of the inverse hyperbolic tangent: `t` is the power with number `i`. -/
def atanhTerms (z2 : Nat) : Nat → Nat → Nat → Nat
  | 0, _, _ => 0
  | n + 1, i, t => t / (2 * i + 1) + atanhTerms z2 n (i + 1) (t * z2 / fxOne)

/-- The inverse hyperbolic tangent of a fixed-point value up to 1/3. -/
def fxAtanh (z : Nat) : Nat := atanhTerms (z * z / fxOne) 210 0 z

def fxLn2 : Nat := 2 * fxAtanh (fxOne / 3)

/-- A dyadic value as a fixed-point integer, towards zero; magnitudes from `lim` on count as `lim`. -/
def fxOf (s : Bool) (n : Nat) (e : Int) (lim : Nat) : Int :=
  let sh := e + fxBits
  let m := if 64 ≤ e then lim * fxOne else if 0 ≤ sh then min (n * 2 ^ sh.toNat) (lim * fxOne) else n / 2 ^ (-sh).toNat
  if s then -(m : Int) else m

/-- e to the power of a fixed-point value: a significand between 1 and 2 as a fixed-point integer, and an exponent. -/
def fxExp (x : Int) : Nat × Int :=
  let k := x / (fxLn2 : Int)
  (expTerms (x - k * fxLn2).toNat 140 0 fxOne, k)

/-! ## Exact results -/

/-- The exponential of a finite value; operands beyond 256 leave the range of every format and count as 256. -/
def exactExp (s : Bool) (n : Nat) (e : Int) : XVal :=
  let r := fxExp (fxOf s n e 256)
  .num false r.1 1 (r.2 - fxBits)

/-- The natural logarithm of a positive value. -/
def exactLog (n : Nat) (e : Int) : XVal :=
  let l := Nat.log2 n
  let z := (n - 2 ^ l) * fxOne / (n + 2 ^ l)
  let v := (e + l) * (fxLn2 : Int) + (2 * fxAtanh z : Nat)
  .num (decide (v < 0)) v.natAbs 1 (-(fxBits : Int))

/-- e to the power of minus a magnitude, in fixed point. -/
def fxDecay (n : Nat) (e : Int) (lim : Nat) : Nat :=
  let r := fxExp (fxOf true n e lim)
  r.1 / 2 ^ (-r.2).toNat

/-- The hyperbolic tangent: its sign is the operand's. -/
def exactTanh (s : Bool) (n : Nat) (e : Int) : XVal :=
  let y := fxDecay n (e + 1) 256
  .num s (fxOne - y) (fxOne + y) 0

/-- The sigmoid 1 / (1 + e^-x). -/
def exactSigmoid (s : Bool) (n : Nat) (e : Int) : XVal :=
  let y := fxDecay n e 256
  if s then
    let r := fxExp (fxOf true n e 256)
    .num false r.1 (fxOne + y) r.2
  else .num false fxOne (fxOne + y) 0

/-! ## Numbers within one unit in the last place -/

/-- The exponent of the unit in the last place at an exact value. -/
def FFmt.unitAt (f : FFmt) (n d : Nat) (e : Int) : Int := if n = 0 then f.qmin else ulpExp f.mbits f.qmin n d e

/-- Is the finite number of pattern `p` within one unit in the last place of an exact value? -/
def FFmt.near (f : FFmt) (n d : Nat) (e : Int) (x : XVal) (p : Nat) : Bool :=
  !XVal.lt false (.num false 1 1 (f.unitAt n d e)) (x.sub (f.decodeFinite p)).abs

/-- The patterns within one unit in the last place of an exact value, overflow as infinity: the sign is the value's, and
either one for a value of zero. -/
def FFmt.nearest (f : FFmt) (s : Bool) (n d : Nat) (e : Int) : List Nat :=
  let q := f.unitAt n d e
  let p := f.packMag (inUnits n d e q).1 q
  let top := f.infBits false
  if top + 2 ≤ p then [f.infBits s]
  else
    let mags := (upFrom (p - 2) 5).filter fun m => f.near n d e (.num false n d e) m
    (if n = 0 then [s, !s] else [s]).flatMap fun t => mags.map fun m => f.signed t (min m top)

/-- The result that the engine's algorithm has among those that R215 allows. -/
def FFmt.within (f : FFmt) (which vfmt v : Nat) (x : XVal) : Nat :=
  match x with
  | .num s n d e =>
    let l := f.nearest s n d e
    l.getD (Config.lastPlace which vfmt v % l.length) (f.encode x)
  | y => f.encode y

/-! ## Lane functions, with the special values of R215 -/

def vexpBits (vfmt v : Nat) : Nat :=
  let f := vffmt vfmt
  match f.decode v with
  | .nan => f.nanBits
  | .inf s => if s then 0 else f.infBits false
  | .num s n _ e => if n = 0 then f.encode (intVal 1) else f.within 0 vfmt v (exactExp s n e)

def vlogBits (vfmt v : Nat) : Nat :=
  let f := vffmt vfmt
  match f.decode v with
  | .nan => f.nanBits
  | .inf s => if s then f.nanBits else f.infBits false
  | .num s n _ e => if n = 0 then f.infBits true else if s then f.nanBits else f.within 1 vfmt v (exactLog n e)

def vtanhBits (vfmt v : Nat) : Nat :=
  let f := vffmt vfmt
  match f.decode v with
  | .nan => f.nanBits
  | .inf s => f.encode (intVal (if s then -1 else 1))
  | .num s n _ e => f.within 2 vfmt v (exactTanh s n e)

def vsigmBits (vfmt v : Nat) : Nat :=
  let f := vffmt vfmt
  match f.decode v with
  | .nan => f.nanBits
  | .inf s => if s then 0 else f.encode (intVal 1)
  | .num s n _ e => f.within 3 vfmt v (exactSigmoid s n e)

end Sys2Proof.Machine
end

