-- ==== Sys2Proof/Machine/VectorLanes.lean ====
section
/-! DEFINITION. Lane functions of the vector engine: element-wise results (R223), conversions (R224), reductions (R227),
mean-variance triples (R228) and softmax (R229 to R231). -/
namespace Sys2Proof.Machine

/-! ## Element-wise results -/

def wbits (vfmt : Nat) : Nat := vwidth vfmt * 8

def float2 (vfmt : Nat) (op : XVal → XVal → XVal) (a b : Nat) : Nat :=
  let f := vffmt vfmt
  f.encode (op (f.decode a) (f.decode b))

def int2 (vfmt : Nat) (op : Int → Int → Int) (a b : Nat) : Nat :=
  let w := wbits vfmt
  unsgn (op (sgn a w) (sgn b w)) w

def both2 (vfmt : Nat) (fop : XVal → XVal → XVal) (iop : Int → Int → Int) (a b : Nat) : Nat :=
  if isFloatFmt vfmt then float2 vfmt fop a b else int2 vfmt iop a b

def cmp2 (vfmt : Nat) (fop : XVal → XVal → Bool) (iop : Int → Int → Bool) (a b : Nat) : Nat :=
  b2n (if isFloatFmt vfmt then fop ((vffmt vfmt).decode a) ((vffmt vfmt).decode b)
    else iop (sgn a (wbits vfmt)) (sgn b (wbits vfmt)))

/-- VABS and VNEG: for the most negative integer the spec states no result, so it is the free value `fr`. -/
def signForm (vfmt : Nat) (flip : Bool) (fr a : Nat) : Nat :=
  if isFloatFmt vfmt then
    let x := (vffmt vfmt).decode a
    (vffmt vfmt).encode (if flip then x.neg else x.abs)
  else
    let w := wbits vfmt
    if a = 2 ^ (w - 1) then fr % 2 ^ w
    else
      let i := sgn a w
      unsgn (if flip then -i else i.natAbs) w

/-- The result of an element-wise form in one lane: `a`, `b`, `d` are the lanes of VA, VB and VD, `m` says whether
v0's lane bits are not all zero, `fr` is a free value. Conversions, VUPD and VBERN stand apart. -/
def ewLane (f : EwOp) (vfmt : Nat) (a b d : Nat) (m : Bool) (fr : Nat) : Nat :=
  let w := wbits vfmt
  let ff := vffmt vfmt
  match f with
  | .vadd => both2 vfmt XVal.add (· + ·) a b
  | .vsub => both2 vfmt XVal.sub (· - ·) a b
  | .vmul => both2 vfmt XVal.mul (· * ·) a b
  | .vfma => ff.encode (((ff.decode a).mul (ff.decode b)).add (ff.decode d))
  | .vmin => both2 vfmt XVal.min (fun x y => min x y) a b
  | .vmax => both2 vfmt XVal.max (fun x y => max x y) a b
  | .vdiv => float2 vfmt XVal.div a b
  | .vsqrt => ff.encode (ff.decode a).sqrt
  | .vrcp => ff.encode ((intVal 1).div (ff.decode a))
  | .vexp => vexpBits vfmt a
  | .vlog => vlogBits vfmt a
  | .vtanh => vtanhBits vfmt a
  | .vsigm => vsigmBits vfmt a
  | .vabs => signForm vfmt false fr a
  | .vneg => signForm vfmt true fr a
  | .vcmpeq => cmp2 vfmt XVal.eq (fun x y => x == y) a b
  | .vcmplt => cmp2 vfmt (XVal.lt false) (fun x y => decide (x < y)) a b
  | .vcmple => cmp2 vfmt (fun x y => XVal.lt false x y || XVal.eq x y) (fun x y => decide (x ≤ y)) a b
  | .vcmpne => cmp2 vfmt (fun x y => !XVal.eq x y) (fun x y => x != y) a b
  | .vsel => if m then a else b
  | .vand => Nat.land a b
  | .vor => Nat.lor a b
  | .vxor => Nat.xor a b
  | .vshl => a * 2 ^ (b % w) % 2 ^ w
  | .vshr => unsgn (sgn a w / 2 ^ (b % w)) w
  | .vmov => a
  | .vldexp => ff.encode ((ff.decode a).scale2 (sgn b w))
  | .vresadd => fp32.encode ((fp32.decode d).add ((fp32.decode a).scale2 (sgn b 32)))
  | _ => d

/-- The VFMT codes a form is defined for (R223). -/
def ewFmtOk (f : EwOp) (vfmt : Nat) : Bool :=
  match f with
  | .vadd | .vsub | .vmul | .vmin | .vmax | .vabs | .vneg | .vcmpeq | .vcmplt | .vcmple | .vcmpne | .vsel
  | .vand | .vor | .vxor | .vmov | .vcvtw => true
  | .vshl | .vshr | .vbern => !isFloatFmt vfmt
  | .vresadd | .vcvtn => vfmt == 0
  | _ => isFloatFmt vfmt

/-- MOD values a form takes: reserved ones are refused with reason 1 (R223, R225, R234). -/
def ewModOk (f : EwOp) (m : Nat) : Bool :=
  match f with
  | .vcvtw | .vcvtn | .vcvts => true
  | .vupd => decide (m ≤ 2)
  | _ => m == 0

/-- The pairs VCVTW accepts: exact ones only (R224). -/
def cvtwOk (m vfmt : Nat) : Bool :=
  match m with
  | 0 => vfmt == 0 || vfmt == 1
  | 1 | 2 => isFloatFmt vfmt
  | 3 | 4 => true
  | _ => vfmt == 0

/-- Bits of a packed element of the MOD formats. -/
def modBits (m : Nat) : Nat :=
  match m with
  | 0 => 4 | 4 => 4 | 5 => 16 | 6 => 16 | _ => 8

/-- Widening of element `v` of format MOD, with the E8M0 scale `sc` of its block for FP4 (R224). -/
def cvtwLane (m vfmt v sc : Nat) : Nat :=
  if m = 3 ∨ m = 4 then
    let i := sgn v (modBits m)
    if isFloatFmt vfmt then (vffmt vfmt).encode (intVal i) else unsgn i (wbits vfmt)
  else
    let x := match m with
      | 0 => (decodeE2M1 v).mul (decodeE8M0 sc)
      | 1 => decodeE4M3 v
      | 2 => e5m2.decode v
      | 5 => bf16.decode v
      | 6 => fp16.decode v
      | _ => decodeE8M0 v
    (vffmt vfmt).encode x

/-- The storage format VCVTS writes for a MOD value. -/
def nfmtOf (m : Nat) : NFmt :=
  match m with
  | 0 => .e2m1 | 1 => .e4m3 | 2 => .e5m2 | 3 => .int8 | _ => .int4

/-! ## Reductions (R227) -/

/-- An element widened: FP32 bits of a float, a sign-extended 32-bit integer otherwise. -/
def widen (vfmt v : Nat) : Nat :=
  if isFloatFmt vfmt then fp32.encode ((vffmt vfmt).decode v) else unsgn (sgn v (wbits vfmt)) 32

def i32add (a b : Nat) : Nat := (a + b) % 2 ^ 32
def i32max (a b : Nat) : Nat := if sgn a 32 < sgn b 32 then b else a
def i32min (a b : Nat) : Nat := if sgn b 32 < sgn a 32 then b else a

/-- The reduction of the elements of one lane group, already widened; `raw` says which are not all zero bits. -/
def reduceGroup (f : ClOp) (fl : Bool) (l : List Nat) (nz : List Bool) : Nat :=
  match f with
  | .vrssq =>
    if fl then carryTree f32add 0 (l.map fun x => f32mul x x)
    else carryTree i32add 0 (l.map fun x => x * x % 2 ^ 32)
  | .vrmax => if l.isEmpty then (if fl then f32negInf else 2 ^ 31) else carryTree (if fl then f32max else i32max) 0 l
  | .vrmin =>
    if l.isEmpty then (if fl then f32posInf else 2 ^ 31 - 1) else carryTree (if fl then f32min else i32min) 0 l
  | .vrcnt => (nz.filter id).length
  | _ => carryTree (if fl then f32add else i32add) 0 l

/-- A (count, mean, M2) triple, FP32 bits; the count is exact. -/
structure MV where
  n : Nat
  mean : Nat
  m2 : Nat
  deriving DecidableEq, Repr

def MV.zero : MV := ⟨0, 0, 0⟩

/-- combine(a, b) of R228, each operation rounded to FP32 in the order written. -/
def MV.combine (a b : MV) : MV :=
  if (fp32.decode a.n).isZero then b
  else if (fp32.decode b.n).isZero then a
  else
    let n := f32add a.n b.n
    let d := f32sub b.mean a.mean
    let mean := f32add a.mean (f32mul d (f32div b.n n))
    let m2 := f32add (f32add a.m2 b.m2) (f32mul (f32mul d d) (f32div (f32mul a.n b.n) n))
    ⟨n, mean, m2⟩

/-! ## Softmax (R229 to R231) -/

structure Smx where
  m : Nat
  l : Nat
  act : Nat
  nan : Nat
  aOld : Nat
  aNew : Nat
  deriving DecidableEq, Repr

def isNegInf (v : Nat) : Bool := v == f32negInf
def isPosInf (v : Nat) : Bool := v == f32posInf

/-- e(x, m) of R229. -/
def smE (x m : Nat) : Nat :=
  if isNegInf m then 0
  else if isPosInf m then (if isPosInf x then f32one else 0)
  else vexpBits 0 (f32sub x m)

/-- scale(mi, m) of R230. -/
def smScale (mi m : Nat) : Nat :=
  if XVal.eq (fp32.decode mi) (fp32.decode m) then f32one
  else if isNegInf mi || isPosInf m then 0
  else vexpBits 0 (f32sub mi m)

/-- merge(a, b) of R230. -/
def Smx.merge (a b : Smx) : Smx :=
  let m := f32max a.m b.m
  let ao := smScale a.m m
  let an := smScale b.m m
  ⟨m, f32add (f32mul a.l ao) (f32mul b.l an), i32add a.act b.act, b2n (a.nan != 0 || b.nan != 0), ao, an⟩

/-- The chunk state of the active elements, both factors 1.0 (R229). -/
def Smx.chunk (l : List Nat) : Smx :=
  let ok := l.filter fun x => !(fp32.decode x).isNaN
  let m := if ok.isEmpty then f32negInf else ok.tail.foldl f32max (ok.headD f32negInf)
  ⟨m, carryTree f32add 0 (l.map fun x => smE x m), l.length, b2n (ok.length != l.length), f32one, f32one⟩

def Core.smx (c : Core) (r : Nat) : Smx :=
  ⟨c.vword r 0, c.vword r 1, c.vword r 2, c.vword r 3, c.vword r 4, c.vword r 5⟩

def Core.setSmx (c : Core) (r : Nat) (x : Smx) : Core :=
  c.setLanes 4 r [(0, x.m), (1, x.l), (2, x.act), (3, x.nan), (4, x.aOld), (5, x.aNew)]

end Sys2Proof.Machine
end

