-- ==== Sys2Proof/Machine/Vector.lean ====
section
/-! DEFINITION. The vector engine's execution of one queue entry (R220 to R234, R243 to R247). -/
namespace Sys2Proof.Machine

/-! ## Refusal reasons in the order of R234 -/

def isSoftmax (f : ClOp) : Bool :=
  match f with
  | .vsmstat | .vsmmerge | .vsmexp | .vsmnorm => true
  | _ => false

def isReduction (f : ClOp) : Bool :=
  match f with
  | .vrsum | .vrssq | .vrmax | .vrmin | .vrcnt | .vmv => true
  | _ => false

/-- The parameter pair of VCVTS: scale-manager entry and sidecar offset (R224). -/
def cvtsParams (c : Core) (x : VForm) : Nat × Nat :=
  let w := vwidth c.vfmt
  (c.laneB w x 0, c.laneB w x 1)

/-- Why an element-wise form is refused; 0 when it is not. -/
def ewReason (c : Core) (f : EwOp) (x : VForm) : Nat :=
  if decide (4 < c.vfmt) || !ewModOk f x.mod.val then 1
  else if !ewFmtOk f c.vfmt then 2
  else if f = .vcvtw ∧ !cvtwOk x.mod.val c.vfmt then 2
  else if f = .vcvtn ∧ x.mod.val ≠ 5 ∧ x.mod.val ≠ 6 then 2
  else if f = .vcvts ∧ 4 < x.mod.val then 2
  else if f = .vupd ∧ x.mod.val = 2 ∧ c.vfmt ≠ 0 then 2
  else if f = .vupd ∧ x.mod.val = 2 ∧ x.vd.val = 31 then 3
  else if f = .vcvts then
    let p := cvtsParams c x
    if 63 < p.1 ∨ p.2 % 64 ≠ 0 ∨ !inCoreScratch p.2 64 then 3 else 0
  else 0

/-- Why a cross-lane form is refused; 0 when it is not. -/
def clReason (c : Core) (f : ClOp) (x : VForm) : Nat :=
  if decide (4 < c.vfmt) || (isSoftmax f && x.bzero) then 1
  else if !isReduction f && x.mod.val != 0 && !(f == .vsmstat && x.mod.val == 1) then 1
  else if isReduction f && vwidth c.vfmt == 2 && x.mod.val == 0 then 1
  else if (isSoftmax f || f == .vmvcomb) && c.vfmt != 0 then 2
  else if f == .vmv && !isFloatFmt c.vfmt then 2
  else if f == .vmv && decide (29 < x.vd.val) then 3
  else if f == .vmvcomb && (decide (29 < x.vd.val) || decide (29 < x.va.val) || decide (29 < x.vb.val)) then 3
  else 0

/-! ## Element-wise -/

/-- The (lane, value) pairs of a form that has no rule of its own. -/
def ewWrites (c : Core) (f : EwOp) (x : VForm) (fr : Nat → Nat) : List (Nat × Nat) :=
  let w := vwidth c.vfmt
  (c.activeLanes w x.masked).map fun i =>
    (i, ewLane f c.vfmt (c.lane w x.va.val i) (c.laneB w x i) (c.lane w x.vd.val i) (c.lane w 0 i != 0) (fr i))

def cvtwWrites (c : Core) (x : VForm) : List (Nat × Nat) :=
  let w := vwidth c.vfmt
  let b := modBits x.mod.val
  (c.activeLanes w x.masked).map fun i =>
    (i, cvtwLane x.mod.val c.vfmt (c.vbits x.va.val (i * b) b)
      (c.vbits x.vb.val ((if x.bzero then 0 else i / 32) * 8) 8))

/-- Zero every bit of register `r` from bit `p` on, in steps of `len` bits. -/
def Core.zeroFrom (c : Core) (r p len : Nat) : Core :=
  (upFrom (p / len) ((2048 - p) / len)).foldl (fun c i => c.setVbits r (i * len) len 0) c

/-- Packed results at `b` bits each; the bytes beyond the packed result are written zero (R224). -/
def Core.setPacked (c : Core) (r b : Nat) (l : List (Nat × Nat)) : Core :=
  let c1 := l.foldl (fun c p => c.setVbits r (p.1 * b) b p.2) c
  let bytes := (c.vl * b + 7) / 8
  let c2 := if c.vl * b % 8 = 4 then c1.setVbits r (c.vl * b) 4 0 else c1
  c2.zeroFrom r (bytes * 8) 8

def cvtnWrites (c : Core) (x : VForm) : List (Nat × Nat) :=
  let f := if x.mod.val = 5 then bf16 else fp16
  (c.activeLanes 4 x.masked).map fun i => (i, f.encode (fp32.decode (c.lane 4 x.va.val i)))

/-- The tile of a VCVTS: its active lanes, grouped in runs of 32 for FP4. -/
def cvtsConvert (c : Core) (x : VForm) (e : SmEntry) : Converted :=
  let w := vwidth c.vfmt
  let val i := (vffmt c.vfmt).decode (c.lane w x.va.val i)
  let ls := c.activeLanes w x.masked
  if x.mod.val = 0 then
    convertFp4 ((upFrom 0 ((c.vl + 31) / 32)).map fun b => (ls.filter fun i => i / 32 == b).map val) 3 0
  else convertScaled (nfmtOf x.mod.val) (ls.map val) (e.scaleExp (nfmtOf x.mod.val)) 3 0

/-- The OUT_FMT code a sidecar records (R184, R211); INT4 has none, so it takes the free value `fr`. -/
def sidecarFmt (m fr : Nat) : Nat :=
  match m with
  | 0 => 5 | 1 => 3 | 2 => 4 | 3 => 7 | _ => fr % 256

def State.runVcvts (s : State) (k : CoreId) (x : VForm) : State :=
  let c := s.core k
  let p := cvtsParams c x
  let r := cvtsConvert c x (s.smEntry k p.1)
  let b := modBits x.mod.val
  let ls := c.activeLanes (vwidth c.vfmt) x.masked
  let scales := if x.mod.val = 0 then (r.scales ++ List.replicate 32 0x7F).take 32 else List.replicate 32 0
  let side := sidecarBytes r (sidecarFmt x.mod.val s.free) scales
  let s := s.useFree
  let s := s.setCore k (c.setPacked x.vd.val b (ls.zip r.bits))
  let s := s.scrWrBytes k p.2 side
  let s := s.recordAmax k p.1 r.amax
  let s := (s.bump (.cor k) VEC_CNT_RETRIES r.attempt).bump (.cor k) VEC_CNT_LINES
  if r.saturated then
    ((s.setVecFlag k flagSaturated).bump (.cor k) VEC_CNT_SATURATED).log (.cor k) 0x1210 2
  else s

/-- The exact x of VUPD in lane `i` (R225), with VD read as XM40 for MOD 2. -/
def vupdX (c : Core) (x : VForm) (i : Nat) : XVal :=
  let w := vwidth c.vfmt
  let f := vffmt c.vfmt
  let p := (f.decode (c.lane w x.va.val i)).mul (f.decode (c.laneB w x i))
  let d := if x.mod.val = 2 then decodeXm40 (c.lane 4 x.vd.val i * 256 + c.vbits (x.vd.val + 1) (i * 8) 8)
    else f.decode (c.lane w x.vd.val i)
  p.add d

/-- XM40 result bits: the word over the extension, with a zero extension for infinities and NaN (R199). -/
def xm40Bits (x : XVal) : Nat := xm40.encode x

def State.runVupd (s : State) (k : CoreId) (x : VForm) : State :=
  let c := s.core k
  let w := vwidth c.vfmt
  let f := vffmt c.vfmt
  let ls := c.activeLanes w x.masked
  let c1 :=
    if x.mod.val = 2 then
      let r := ls.map fun i => (i, xm40Bits (vupdX c x i))
      (c.setLanes 4 x.vd.val (r.map fun p => (p.1, p.2 / 256))).setLanes 1 (x.vd.val + 1) (r.map fun p => (p.1, p.2 % 256))
    else if x.mod.val = 1 then c.setLanes w x.vd.val (ls.map fun i => (i, f.sround (vupdX c x i) (c.gen.draw i)))
    else c.setLanes w x.vd.val (ls.map fun i => (i, f.encode (vupdX c x i)))
  s.setCore k (if x.mod.val = 1 then { c1 with gen := c1.gen.advance c.vl } else c1)

def State.runVbern (s : State) (k : CoreId) (x : VForm) : State :=
  let c := s.core k
  let w := vwidth c.vfmt
  let c1 := c.setLanes w x.vd.val ((c.activeLanes w x.masked).map fun i =>
    (i, b2n (decide (c.gen.draw i < c.lane w x.va.val i % 65536))))
  s.setCore k { c1 with gen := c1.gen.advance c.vl }

def State.runEw (s : State) (k : CoreId) (f : EwOp) (x : VForm) : State :=
  let c := s.core k
  let w := vwidth c.vfmt
  match f with
  | .vcvts => s.runVcvts k x
  | .vupd => s.runVupd k x
  | .vbern => s.runVbern k x
  | .vcvtw => s.setCore k (c.setLanes w x.vd.val (cvtwWrites c x))
  | .vcvtn => s.setCore k (c.setPacked x.vd.val 16 (cvtnWrites c x))
  | .vabs | .vneg =>
    let fr i := (Config.freeValue (s.freeCount + i)).toNat
    { s.setCore k (c.setLanes w x.vd.val (ewWrites c f x fr)) with freeCount := s.freeCount + c.vl }
  | _ => s.setCore k (c.setLanes w x.vd.val (ewWrites c f x fun _ => 0))

/-! ## Cross-lane -/

/-- The active lanes below VL of group `g` of size `n`. -/
def Core.groupLanes (c : Core) (masked : Bool) (n g : Nat) : List Nat :=
  (c.activeLanes (vwidth c.vfmt) masked).filter fun i => i / n == g

def Core.reduceLanes (c : Core) (f : ClOp) (va : Nat) (ls : List Nat) : Nat :=
  let w := vwidth c.vfmt
  reduceGroup f (isFloatFmt c.vfmt) (ls.map fun i => widen c.vfmt (c.lane w va i)) (ls.map fun i => c.lane w va i != 0)

def groupCount (vl n : Nat) : Nat := (vl + n - 1) / n

def Core.mvLanes (c : Core) (va : Nat) (ls : List Nat) : MV :=
  carryTree MV.combine MV.zero (ls.map fun i => ⟨f32one, widen c.vfmt (c.lane (vwidth c.vfmt) va i), 0⟩)

def Core.mvAt (c : Core) (r i : Nat) : MV := ⟨c.vword (r + 2) i, c.vword r i, c.vword (r + 1) i⟩

def Core.setMvs (c : Core) (r : Nat) (l : List (Nat × MV)) : Core :=
  l.foldl (fun c p => ((c.setLane 4 r p.1 p.2.mean).setLane 4 (r + 1) p.1 p.2.m2).setLane 4 (r + 2) p.1 p.2.n) c

def State.runPerm (s : State) (k : CoreId) (x : VForm) : State :=
  let c := s.core k
  let w := vwidth c.vfmt
  let ls := c.activeLanes w x.masked
  let s1 := s.setCore k (c.setLanes w x.vd.val (ls.map fun i =>
    let j := c.laneB w x i
    (i, if j < c.vl then c.lane w x.va.val j else 0)))
  if ls.any fun i => decide (c.vl ≤ c.laneB w x i) then s1.setVecFlag k flagPermRange else s1

def State.runSmNorm (s : State) (k : CoreId) (x : VForm) : State :=
  let c := s.core k
  let st := c.smx x.vb.val
  let all := upFrom 0 c.vl
  if st.nan = 1 then s.setCore k (c.setLanes 4 x.vd.val (all.map fun i => (i, fp32.nanBits)))
  else if isNegInf st.m then
    (s.setCore k (c.setLanes 4 x.vd.val (all.map fun i => (i, 0)))).setVecFlag k flagSmxEmpty
  else s.setCore k (c.setLanes 4 x.vd.val (all.map fun i =>
    (i, if c.active 4 x.masked i then f32div (smE (c.lane 4 x.va.val i) st.m) st.l else 0)))

def State.runCl (s : State) (k : CoreId) (f : ClOp) (x : VForm) : State :=
  let c := s.core k
  let n := 2 ^ x.mod.val
  let gs := upFrom 0 (groupCount c.vl n)
  match f with
  | .vperm => s.runPerm k x
  | .vmv => s.setCore k (c.setMvs x.vd.val (gs.map fun g => (g, c.mvLanes x.va.val (c.groupLanes x.masked n g))))
  | .vmvcomb => s.setCore k (c.setMvs x.vd.val ((c.activeLanes 4 x.masked).map fun i =>
      (i, (c.mvAt x.va.val i).combine (c.mvAt x.vb.val (if x.bzero then 0 else i)))))
  | .vsmstat =>
    let ch := Smx.chunk ((c.activeLanes 4 x.masked).map fun i => c.lane 4 x.va.val i)
    s.setCore k (c.setSmx x.vd.val (if x.mod.val = 1 then ch else (c.smx x.vd.val).merge ch))
  | .vsmmerge => s.setCore k (c.setSmx x.vd.val ((c.smx x.va.val).merge (c.smx x.vb.val)))
  | .vsmexp => s.setCore k (c.setLanes 4 x.vd.val ((upFrom 0 c.vl).map fun i =>
      (i, if c.active 4 x.masked i then smE (c.lane 4 x.va.val i) (c.smx x.vb.val).m else 0)))
  | .vsmnorm => s.runSmNorm k x
  | _ => s.setCore k (c.setLanes 4 x.vd.val (gs.map fun g => (g, c.reduceLanes f x.va.val (c.groupLanes x.masked n g))))

/-! ## Loads and stores (R222) -/

/-- The scratch offset of element `i`, as an integer. -/
def vmemOff (base stride imm i : Nat) : Int := (base : Int) + imm * 64 + i * sgn stride 32

/-- The first fault of the elements: cause 6 misaligned or 3 beyond scratch, with its offset. -/
def vmemFault (w base stride imm : Nat) : List Nat → Option (Nat × Nat)
  | [] => none
  | i :: t =>
    let o := vmemOff base stride imm i
    if o % w ≠ 0 then some (6, unsgn o 32)
    else if o < 0 ∨ (scratchBytes : Int) < o + w then some (3, unsgn o 32)
    else vmemFault w base stride imm t

def distinctLines (l : List Nat) : Nat := (l.map (· / 64)).eraseDups.length

/-- VLD (R222); a double-bit error in a word it reads stops the core with cause 7 (R153). -/
def State.runVld (s : State) (k : CoreId) (vd : Fin 32) (base stride imm : Nat) (ecc : Ecc) (pc : Nat) : State :=
  let c := s.core k
  let w := vwidth c.vfmt
  let ls := upFrom 0 c.vl
  if sgn stride 32 % w ≠ 0 then s.vecRefuse k 4 pc
  else
    match vmemFault w base stride imm ls with
    | some (cause, o) => s.coreFault k cause o
    | none =>
      let offs := ls.map fun i => (vmemOff base stride imm i).toNat
      s.scratchEcc k (offs.map fun o => (o, w)) ecc fun s =>
        (s.setCore k (c.setLanes w vd.val (ls.zip (offs.map fun o => s.scrRd k o w)))).bump (.cor k) VEC_CNT_LINES
        (distinctLines offs)

/-- VST (R222). Its elements are partial writes, which read the words they change (R152, R153). -/
def State.runVst (s : State) (k : CoreId) (vs : Fin 32) (base stride imm : Nat) (ecc : Ecc) (pc : Nat) : State :=
  let c := s.core k
  let w := vwidth c.vfmt
  let ls := upFrom 0 c.vl
  if sgn stride 32 = 0 ∨ sgn stride 32 % w ≠ 0 then s.vecRefuse k 4 pc
  else
    match vmemFault w base stride imm ls with
    | some (cause, o) => s.coreFault k cause o
    | none =>
      let offs := ls.map fun i => (vmemOff base stride imm i).toNat
      s.scratchEcc k (offs.map fun o => (o, w)) ecc fun s =>
        ((ls.zip offs).foldl (fun s p => s.scrWr k p.2 w (c.lane w vs.val p.1)) s).bump (.cor k) VEC_CNT_LINES
          (distinctLines offs)

/-! ## Summaries and control (R232, R233, R205, R244) -/

/-- The summary of FUNC [2:0] (R232); FLAGS is read apart. A bit of ZBLK whose lanes lie beyond VL, as those
past the register do, is set: no lane of its range is active (DEDUCED, log entry 91). -/
def Core.summary (c : Core) (va func : Nat) : Nat :=
  let w := vwidth c.vfmt
  let ls := c.activeLanes w (bit func 3)
  let nz i := c.lane w va i != 0
  match func % 8 with
  | 0 => b2n (ls.any nz)
  | 1 => b2n (ls.all nz)
  | 2 => c.reduceLanes .vrmax va ls
  | 3 => c.reduceLanes .vrmin va ls
  | 4 => c.reduceLanes .vrsum va ls
  | 5 => c.reduceLanes .vrcnt va ls
  | _ =>
    let zero i := if isFloatFmt c.vfmt then ((vffmt c.vfmt).decode (c.lane w va i)).isZero else !nz i
    (upFrom 0 32).foldl (fun m b => if ls.all fun i => i / 32 != b || zero i then m + 2 ^ b else m) 0

/-- A summary reaches the control core, which stalled for it. -/
def State.deliverSummary (s : State) (k : CoreId) (rd : Fin 32) (v : Nat) : State :=
  let s := s.setGpr k rd (BitVec.ofNat 32 v)
  let s := s.bump (.cor k) VEC_CNT_SUMMARIES
  match (s.core k).stall with
  | .summary _ => s.setStall k .none
  | _ => s

def State.runSum (s : State) (k : CoreId) (rd va : Fin 32) (func : Nat) : State :=
  if func % 8 = 7 then
    let v := s.reg (.cor k) VEC_FLAGS % 16
    (s.setReg (.cor k) VEC_FLAGS 0).deliverSummary k rd v
  else s.deliverSummary k rd ((s.core k).summary va.val func)

/-- SMCFG of the value `v` of g[RS] (R233). -/
def State.runSmcfg (s : State) (k : CoreId) (v pc : Nat) : State :=
  let e := sgn (bits v 16 8) 8
  if bits v 6 2 ≠ 0 ∨ bits v 10 6 ≠ 0 ∨ bits v 24 8 ≠ 0 ∨ e < -124 ∨ 124 < e then s.vecRefuse k 1 pc
  else s.setSmEntry k (bits v 0 6) { SmEntry.reset with headroom := bits v 8 2, initExp := e }

/-- SMCOMMIT stores |v| in HIST[PTR]: NaN as +0.0, infinity as the largest finite value (R205). -/
def State.runSmcommit (s : State) (k : CoreId) (e v : Nat) : State :=
  let x := s.smEntry k e
  let h := match fp32.decode v with
    | .nan => 0
    | .inf _ => 0x7F7FFFFF
    | y => fp32.encode y.abs
  s.setSmEntry k e { x with hist := x.hist.set x.ptr h, ptr := (x.ptr + 1) % 16, stepMax := 0 }

/-- VRNGSET loads the record (R243, R244). -/
def State.runRngset (s : State) (k : CoreId) (o : Nat) (ecc : Ecc) (pc : Nat) : State :=
  if o % 64 ≠ 0 ∨ !inCoreScratch o 64 then s.vecRefuse k 3 pc
  else if bits (s.scrRd k (o + 0x20) 4) 1 31 ≠ 0 ∨ !allZero (s.scrBytes k (o + 0x24) 28) then s.vecRefuse k 3 pc
  else
    s.scratchEcc k [(o, 64)] ecc fun s =>
      let f i := BitVec.ofNat 64 (s.scrRd k (o + i) 8)
      (s.setCore k { s.core k with gen := ⟨f 0, f 8, f 0x10, f 0x18, bit (s.scrRd k (o + 0x20) 4) 0⟩ }).bump (.cor k)
        VEC_CNT_LINES

/-! ## One entry -/

/-- What one vector instruction does. -/
def State.vecRun (s : State) (k : CoreId) (op : VOp) (pc : Nat) : State :=
  match op with
  | .ew f x =>
    let r := ewReason (s.core k) f x
    if r = 0 then s.runEw k f x else s.vecRefuse k r pc
  | .cl f x =>
    let r := clReason (s.core k) f x
    if r = 0 then s.runCl k f x else s.vecRefuse k r pc
  | .ld vd base stride imm ecc => s.runVld k vd base stride imm ecc pc
  | .st vs base stride imm ecc => s.runVst k vs base stride imm ecc pc
  | .cfg vl vfmt => s.setCore k { s.core k with vl := vl, vfmt := vfmt }
  | .sum rd va func => s.runSum k rd va func
  | .smcfg v => s.runSmcfg k v pc
  | .smread rd e => s.deliverSummary k rd (s.smEntry k e).stepMax
  | .smcommit e v => s.runSmcommit k e v
  | .rngset o ecc => s.runRngset k o ecc pc
  | .bad r => s.vecRefuse k r pc

/-- Execute one vector instruction from the queue; one that is refused or stops the core has not executed (R234, R237). -/
def State.vecExec (s : State) (k : CoreId) (op : VOp) (pc : Nat) : State :=
  let t := s.vecRun k op pc
  if t.coreFaulted k then t else (t.bump (.cor k) VEC_CNT_INSTR).bump (.cor k) VEC_CNT_BUSY

end Sys2Proof.Machine
end

