-- ==== Sys2Proof/Machine/Sync.lean ====
section
/-! DEFINITION. Sync objects (R251 to R258), the engine queues they hold and release, and barrier objects (R259 to
R264). -/
namespace Sys2Proof.Machine

/-! ## Counts, overflow and underflow -/

def State.syncCount (s : State) (k : CoreId) (o : Nat) : Nat := s.field (.cor k) (SYN_OBJ o) 0 16
def State.setSyncCount (s : State) (k : CoreId) (o v : Nat) : State := s.setField (.cor k) (SYN_OBJ o) 0 16 v

/-- A manual set (R256): it is counted and logged with the old and the new count. -/
def State.manualSet (s : State) (k : CoreId) (o v : Nat) : State :=
  ((s.setSyncCount k o v).bump (.cor k) SYN_CNT_SETS).log (.cor k) 0x1012 1 [o, s.syncCount k o, v]

/-- A stop under R255: SYN_ERROR takes the reason, the core stops with CAUSE 0, the code is logged, Blaze fires and a
job fault is raised. `field` packs OBJ or BAR of SYN_ERROR. -/
def State.syncStop (s : State) (k : CoreId) (reason field amount code : Nat) (args : List Nat) : State :=
  let b := Blk.cor k
  let s := s.setReg b SYN_ERROR (reason + field + min amount 0xFFFF * 2 ^ 16)
  let s := (s.stopCore k).log b code 3 args
  (s.fireBlaze 3 (s.beat + 128) code b.base).faultCluster k.cluster code b.base s.blazeTakes

/-- An overflow of object `o` of core `k`; a core whose ENABLE is 0 only records and logs it (R255). -/
def State.syncOverflow (s : State) (k : CoreId) (o amount : Nat) : State :=
  let args := [o, amount, s.syncCount k o]
  if s.enabled (.cor k) then s.syncStop k 1 (o * 8) amount 0x1010 args
  else (s.setReg (.cor k) SYN_ERROR (1 + o * 8 + min amount 0xFFFF * 2 ^ 16)).log (.cor k) 0x1010 2 args

/-! ## Engine queues (R145, R253) -/

def Core.queue (c : Core) : EngineId → List QEntry
  | .mtx => c.mtxQ
  | .vec => c.vecQ
  | .dma => c.dmaQ

def Core.setQueue (c : Core) (e : EngineId) (q : List QEntry) : Core :=
  match e with
  | .mtx => { c with mtxQ := q }
  | .vec => { c with vecQ := q }
  | .dma => { c with dmaQ := q }

def State.setQueue (s : State) (k : CoreId) (e : EngineId) (q : List QEntry) : State :=
  s.setCore k ((s.core k).setQueue e q)

/-- A queue has 16 places. -/
def State.queueFull (s : State) (k : CoreId) (e : EngineId) : Bool := decide (16 ≤ ((s.core k).queue e).length)

/-- A satisfied wait subtracts its threshold (R251). -/
def State.takeWait (s : State) (k : CoreId) (o t : Nat) : State :=
  (s.setSyncCount k o (s.syncCount k o - t)).bump (.cor k) SYN_CNT_WAITS

/-- The clock at which a wait that begins now has blocked for SYN_WDOG.LIMIT_US (R257). -/
def State.syncDue (s : State) (k : CoreId) : Nat := s.clock + s.field (.cor k) SYN_WDOG 0 20 * beatsPerUs

/-- Run an engine's queue until it is empty, a wait holds it, or the core has stopped; the signals it sent. A wait that
begins here is settled in the next cycle. -/
def State.runEngine (k : CoreId) (e : EngineId) : Nat → State → State × List Sig
  | 0, s => (s, [])
  | n + 1, s =>
    if s.coreFaulted k then (s, [])
    else
      match (s.core k).queue e with
      | [] => (s, [])
      | x :: rest =>
        let popped := s.setQueue k e rest
        match x with
        | .wait o t due r => (if due = 0 then s.setQueue k e (.wait o t (s.syncDue k) r :: rest) else s, [])
        | .sig c o a =>
          if e = .dma ∧ (s.core k).dmaRun ≠ [] then (s, [])
          else
            let r := State.runEngine k e n popped
            (r.1, ⟨k.cluster.coreAt c, o, a⟩ :: r.2)
        | .vec op pc => State.runEngine k e n (popped.vecExec k op pc)
        | .mtx op pc =>
          let m := popped.mtxExec k op pc
          let r := State.runEngine k e n m.1
          (r.1, m.2 ++ r.2)
        | .dma d =>
          let c := popped.core k
          if c.dmaRun.length < 4 ∧ (d.ordered = true → c.dmaRun = []) then
            State.runEngine k e n (popped.setCore k (c.startRun d))
          else (s, [])

/-! ## The control core's waits -/

/-- The control core blocks, with COR_STATE.WAITING for a wait on a sync object or barrier (R170). -/
def State.beginWait (s : State) (k : CoreId) (w : Stall) : State :=
  (s.setStall k w).setFlag (.cor k) COR_STATE stWaiting

def State.endWait (s : State) (k : CoreId) : State := (s.setStall k .none).clearFlag (.cor k) COR_STATE stWaiting

def isDmaEntry (q : QEntry) : Bool :=
  match q with
  | .dma _ => true
  | _ => false

/-- Every earlier load and store has been performed and every DMA descriptor has signalled (FENCE, R150). -/
def State.fenceDone (s : State) (k : CoreId) : Bool :=
  let c := s.core k
  !(c.slots.any slotIsCore) && c.dmaRun.isEmpty && !(c.dmaQ.any isDmaEntry)

/-- Every engine queue has drained (HALT, R150). -/
def State.enginesDrained (s : State) (k : CoreId) : Bool :=
  let c := s.core k
  c.dmaRun.isEmpty && c.dmaQ.isEmpty && c.mtxQ.isEmpty && c.vecQ.isEmpty

/-- Does a form 2 resume keep the core's groups open (R457)? -/
def Core.keepsGroups (c : Core) : Bool :=
  match c.resume with
  | some r => r.keepGroups
  | none => false

/-- A disabled core whose matrix queue has drained, or whose engines a fault has stopped, closes every group without
writing (R188); groups that a restore has since opened stay open (R457). -/
def State.closeIdle (s : State) (k : CoreId) : State :=
  let c := s.core k
  if !s.enabled (.cor k) && !c.keepsGroups && (c.mtxQ.isEmpty || s.coreFaulted k) then
    s.setCore k { c with groups := List.replicate 4 Group.closed }
  else s

/-- The DMA engine takes free slots, and a FENCE or HALT that was waiting completes. -/
def State.coreProgress (s : State) (k : CoreId) : State :=
  let s := s.dmaTurn k
  match (s.core k).stall with
  | .fence => if s.fenceDone k then s.setStall k .none else s
  | .halt =>
    if s.enginesDrained k then
      ((s.setStall k .none).clearFlag (.cor k) COR_STATE stRunning).setFlag (.cor k) COR_STATE stHalted
    else s
  | _ => s

/-- A cycle grants the control core's own wait first (R254). -/
def State.grantCore (s : State) (k : CoreId) : State :=
  match (s.core k).stall with
  | .swait o t _ _ =>
    if t ≤ s.syncCount k o then (s.takeWait k o t).endWait k else s
  | _ => s

/-- The wait that holds a queue. -/
def Core.headWait (c : Core) (e : EngineId) : Option (Nat × Nat) :=
  match c.queue e with
  | .wait o t _ _ :: _ => some (o, t)
  | _ => none

/-- A cycle grants at most the wait that holds a queue, if its object has the count. -/
def State.grantHead (s : State) (k : CoreId) (e : EngineId) : State :=
  match (s.core k).headWait e with
  | some (o, t) => if t ≤ s.syncCount k o then (s.setQueue k e ((s.core k).queue e).tail).takeWait k o t else s
  | none => s

/-- Is a wait of the core satisfied, to be granted in the next cycle? -/
def State.grantable (s : State) (k : CoreId) : Bool :=
  !s.coreFaulted k &&
  ((match (s.core k).stall with
    | .swait o t _ _ => decide (t ≤ s.syncCount k o)
    | _ => false) ||
  [EngineId.mtx, .vec, .dma].any fun e =>
    match (s.core k).headWait e with
    | some (o, t) => decide (t ≤ s.syncCount k o)
    | none => false)

def queueFuel : Nat := 64

/-- The waits of one core in one cycle, in the fixed order control core, matrix, vector, DMA, and what they release
(R254). -/
def State.grantAll (s : State) (k : CoreId) : State × List Sig :=
  let busy := !(s.core k).mtxQ.isEmpty
  let s := if s.coreFaulted k then s else (((s.grantCore k).grantHead k .mtx).grantHead k .vec).grantHead k .dma
  let a := State.runEngine k .mtx queueFuel s
  let a := (if busy then a.1.closeIdle k else a.1, a.2)
  let b := State.runEngine k .vec queueFuel a.1
  let c := State.runEngine k .dma queueFuel b.1
  (c.1.coreProgress k, a.2 ++ b.2 ++ c.2)

/-- The signals of one cycle to one object, added together (R254). -/
structure SigSum where
  core : CoreId
  obj : Nat
  amount : Nat
  signals : Nat
  deriving DecidableEq, Repr

def SigSum.is (x : SigSum) (g : Sig) : Bool := x.core == g.core && x.obj == g.obj

def addSig (l : List SigSum) (g : Sig) : List SigSum :=
  if l.any (·.is g) then l.map fun x => if x.is g then { x with amount := x.amount + g.amount, signals := x.signals + 1 } else x
  else l ++ [⟨g.core, g.obj, g.amount, 1⟩]

/-- Do the combined signals of a cycle overflow an object (R255)? -/
def State.overflows (s : State) (g : SigSum) : Bool := decide (0xFFFF < s.syncCount g.core g.obj + g.amount)

/-- The combined signals of a cycle settle on one object (R254, R255). -/
def State.applySum (s : State) (g : SigSum) : State :=
  let n := s.syncCount g.core g.obj
  if s.overflows g then s.syncOverflow g.core g.obj g.amount
  else (s.setSyncCount g.core g.obj (n + g.amount)).bump (.cor g.core) SYN_CNT_SIGNALS g.signals

/-- The waits of each core in turn; the signals they send arrive in the next cycle. -/
def State.grantCores (s : State) (ks : List CoreId) : State × List Sig :=
  ks.foldl (fun (r : State × List Sig) k =>
    let q := r.1.grantAll k
    (q.1, r.2 ++ q.2)) (s, [])

def addCore (ks : List CoreId) (k : CoreId) : List CoreId := if ks.contains k then ks else ks ++ [k]

/-- Cycles of the sync units (R254): the signals settle on their objects, the waits of the cores `ks` and of those
signalled are checked, but for a core with an overflow in the cycle, of which no wait is granted (R255), and a further cycle
follows while a signal or a grant is left. -/
def State.settle : Nat → List CoreId → List Sig → State → State
  | 0, _, _, s => s
  | n + 1, ks, l, s =>
    let sums := l.foldl addSig []
    let ks := (sums.map (·.core)).foldl addCore ks
    if ks.isEmpty then s
    else
      let lost := (sums.filter s.overflows).map (·.core)
      let r := (sums.foldl State.applySum s).grantCores (ks.filter fun k => !lost.contains k)
      State.settle n (ks.filter fun k => r.1.grantable k) r.2 r.1

def settleFuel : Nat := 4096

/-- Signals sent by any unit reach their sync objects. -/
def State.signal (s : State) (l : List Sig) : State := State.settle settleFuel [] l s

/-- Let a core's queues and waits move on, and deliver what they signal. -/
def State.kick (s : State) (k : CoreId) : State :=
  let r := s.grantAll k
  State.settle settleFuel ([k].filter fun k => r.1.grantable k) r.2 r.1

/-- An entry joins an engine's queue, which then runs as far as it can. -/
def State.enqueue (s : State) (k : CoreId) (e : EngineId) (x : QEntry) : State :=
  (s.setQueue k e ((s.core k).queue e ++ [x])).kick k

/-- A DONE field of a unit's record: CORE in [3:0] and SYNC in [9:4] of the unit's cluster, increment 1 (R251). -/
def State.signalDone (s : State) (c : ClusterId) (done : Nat) : State :=
  s.signal [⟨c.coreAt (Fin.ofNat 16 (bits done 0 4)), bits done 4 6, 1⟩]

/-- SYNC of a plan entry: CORE [3:0], CLUSTER [10:4], TILE [13:11], OBJ [19:14] (R277). -/
def syncTarget (v : Nat) : CoreId × Nat :=
  (⟨Fin.ofNat 8 (bits v 11 3), Fin.ofNat 80 (bits v 4 7), Fin.ofNat 16 (bits v 0 4)⟩, bits v 14 6)

/-! ## Barriers (R259 to R264) -/

def State.barMask (s : State) (c : ClusterId) (b : Nat) : Nat := s.field (.clu c) (BAR_CFG b) 0 16
def State.arrived (s : State) (c : ClusterId) (b k : Nat) : Bool := s.flag (.clu c) (BAR_STATE b) k
def State.early (s : State) (c : ClusterId) (b k : Nat) : Bool := s.flag (.clu c) (BAR_STATE b) (16 + k)

def cores16 : List (Fin 16) := (upFrom 0 16).map (Fin.ofNat 16)

/-- A core that waits at barrier `b` proceeds when neither ARRIVED nor EARLY is set for it (R262). -/
def State.releaseWaiter (s : State) (c : ClusterId) (b : Nat) (i : Fin 16) : State :=
  let k := c.coreAt i
  match (s.core k).stall with
  | .bwait b' _ _ => if b' = b ∧ !s.arrived c b i.val ∧ !s.early c b i.val then s.endWait k else s
  | _ => s

/-- A participant stalled at a second early arrival of barrier `b` records it and proceeds, or waits on if it was a BSYNC (R261). -/
def State.releaseStalled (s : State) (c : ClusterId) (b : Nat) (i : Fin 16) : State :=
  let k := c.coreAt i
  match (s.core k).stall with
  | .barr b' _ _ thenWait =>
    if b' = b then
      let s := (s.setFlag (.clu c) (BAR_STATE b) (16 + i.val)).clearFlag (.clu c) (BAR_PHASE b) i.val
      if thenWait then s.setStall k (.bwait b s.clock false) else s.endWait k
    else s
  | _ => s

/-- Phases complete while every participant has arrived (R261), at most `n` of them. -/
def State.completePhases (c : ClusterId) (b : Nat) : Nat → State → State
  | 0, s => s
  | n + 1, s =>
    let mask := s.barMask c b
    let st := s.reg (.clu c) (BAR_STATE b)
    if mask ≠ 0 ∧ Nat.land (bits st 0 16) mask = mask then
      let s := s.setField (.clu c) (BAR_PHASE b) 16 1 (1 - s.field (.clu c) (BAR_PHASE b) 16 1)
      let s := (s.setReg (.clu c) (BAR_STATE b) (bits st 16 16)).bump (.clu c) (BAR_CNT_DONE b)
      let s := cores16.foldl (fun s i => s.releaseStalled c b i) s
      State.completePhases c b n (cores16.foldl (fun s i => s.releaseWaiter c b i) s)
    else s

def State.settleBarrier (s : State) (c : ClusterId) (b : Nat) : State := State.completePhases c b 4 s

/-- A non-participant's access (R263). -/
def State.barNonpart (s : State) (k : CoreId) (b : Nat) : State :=
  (s.syncStop k 3 (b * 2 ^ 9) 0 0x1014 []).setFlag (.clu k.cluster) BAR_STATUS (8 + b)

/-- BARR by a participant, BSYNC when `thenWait` (R260, R262). -/
def State.barArrive (s : State) (k : CoreId) (b : Nat) (thenWait : Bool) : State :=
  let c := k.cluster
  let i := k.core.val
  if !s.arrived c b i then
    let s := s.setFlag (.clu c) (BAR_STATE b) i
    (if thenWait then s.beginWait k (.bwait b s.clock false) else s).settleBarrier c b
  else if !s.early c b i then
    let s := (s.setFlag (.clu c) (BAR_STATE b) (16 + i)).bump (.clu c) BAR_CNT_EARLY
    (if thenWait then s.beginWait k (.bwait b s.clock false) else s).settleBarrier c b
  else
    (s.setFlag (.clu c) (BAR_PHASE b) i).beginWait k (.barr b s.clock false thenWait)

end Sys2Proof.Machine
end

