-- ==== Sys2Proof/Machine/Fabric.lean ====
section
/-! DEFINITION. The fabric block of a tile: routes and spraying (R300 to R302), injection and the resend buffer (R306 to
R311), and the batches of the cluster units (R280, R292). -/
namespace Sys2Proof.Machine

def State.fabric (s : State) (t : Fin 8) : Fabric := sget (fun _ => Fabric.reset) s.fabrics t.val
def State.setFabric (s : State) (t : Fin 8) (f : Fabric) : State :=
  { s with fabrics := sset (fun _ => Fabric.reset) s.fabrics t.val f }
def State.portQ (s : State) (m : Nat) : PortQ := sget (fun _ => PortQ.reset) s.ports m
def State.setPortQ (s : State) (m : Nat) (q : PortQ) : State :=
  { s with ports := sset (fun _ => PortQ.reset) s.ports m q }

def tiles8 : List (Fin 8) := (upFrom 0 8).map (Fin.ofNat 8)
def State.coord (s : State) (t : Fin 8) : Nat := s.reg (.til t) TIL_COORD
def State.gen (s : State) (t : Fin 8) : Nat := s.field (.til t) TIL_GEN 0 16

/-! ## Route table (R300, R312) -/

/-- The entry index of a coordinate; none outside the table's ranges. -/
def coordIndex (c : Nat) : Option Nat :=
  if bits c 0 8 < 16 ∧ bits c 8 8 < 16 ∧ bits c 16 8 < 4 then some (bits c 0 8 + 16 * bits c 8 8 + 256 * bits c 16 8)
  else none

/-- Word `w` of entry `e` of a tile's table. -/
def State.routeWord (s : State) (t : Fin 8) (e w : Nat) : Nat := (sget (fun _ => 0) s.routes (4096 * t.val + e * 4 + w)).toNat
def State.setRouteWord (s : State) (t : Fin 8) (i v : Nat) : State :=
  { s with routes := sset (fun _ => 0) s.routes (4096 * t.val + i) (BitVec.ofNat 32 v) }

def State.routeValid (s : State) (t : Fin 8) (c : Nat) : Bool :=
  match coordIndex c with
  | some e => bit (s.routeWord t e 3) 0
  | none => false

def State.minMask (s : State) (t : Fin 8) (e : Nat) : Nat := s.routeWord t e 0 + s.routeWord t e 1 % 2 ^ 16 * 2 ^ 32
def State.expMask (s : State) (t : Fin 8) (e : Nat) : Nat := s.routeWord t e 1 / 2 ^ 16 + s.routeWord t e 2 * 2 ^ 16

/-! ## Ports (R300 to R302, R355, R356) -/

/-- The direction of a module port (R355): 0 to 5 for +x, −x, +y, −y, +z, −z; none for an express or service port. -/
def portDir (m : Nat) : Option Nat :=
  [[0, 7, 14, 21, 28, 36], [1, 8, 15, 22, 30, 37], [2, 9, 16, 24, 31, 38], [3, 10, 18, 25, 32, 39],
   [4, 12, 19, 26, 33, 42], [6, 13, 20, 27, 34, 43]].findIdx? fun l => l.contains m

/-- Does the link of port `m` wrap its dimension from coordinate `c` of a slice of shape `shape`? -/
def linkWraps (shape c m : Nat) : Bool :=
  match portDir m with
  | some d =>
    let k := d / 2
    if d % 2 = 0 then bits c (8 * k) 8 + 1 == bits shape (8 * k) 8 else bits c (8 * k) 8 == 0
  | none => false

def isExpress (m : Nat) : Bool := (portDir m).isNone

def State.portState (s : State) (m : Nat) : Nat := s.field (.opt (portOfIdx m)) OPT_STATE 0 3
def State.portService (s : State) (m : Nat) : Bool := s.flag (.opt (portOfIdx m)) OPT_CTRL 16

/-- The wavelengths of a port whose feed has power; without one the port has no light to send (R4, R335). -/
def State.feed (s : State) (q : PortId) : Nat := s.field (.opt q) OPT_STATE 24 8

/-- A message leaves on a port that has light to carry it. -/
def State.emitOn (s : State) (q : PortId) (m : OutMsg) : State := if s.feed q = 0 then s else s.emit m

/-- A port in a data mode, which frames the packets that arrive on it (R342, R346); a service port frames none. -/
def State.framesPackets (s : State) (m : Nat) : Bool := (s.portState m == 3 || s.portState m == 4) && !s.portService m

/-- A port that a packet may leave on: up in a data mode, not a service port, its tile's block enabled. -/
def State.portOpen (s : State) (m : Nat) : Bool :=
  s.portState m == 3 && !s.portService m && s.enabled (.til (portOfIdx m).tile)

/-- The lane on which a packet leaves on port `m`. -/
def State.laneOn (s : State) (t : Fin 8) (m lane : Nat) : Nat :=
  if lane = 1 ∨ isExpress m ∨ linkWraps s.shape (s.coord t) m then 1 else 0

def PortQ.lane (q : PortQ) (l : Nat) : List Pkt := if l = 0 then q.lane0 else q.lane1
def PortQ.credit (q : PortQ) (l : Nat) : Nat := if l = 0 then q.credit0 else q.credit1
def PortQ.put (q : PortQ) (l : Nat) (x : List Pkt) (c : Nat) : PortQ :=
  if l = 0 then { q with lane0 := x, credit0 := c } else { q with lane1 := x, credit1 := c }

/-- Bytes queued for a port on a lane; none ever queue on a tile-to-tile path, which a packet crosses at once (log entry 93). -/
def State.occupancy (s : State) (m l : Nat) : Nat := (((s.portQ m).lane l).map (·.size)).foldl (· + ·) 0

/-- The candidate ports of R300, ascending. -/
def State.candidates (s : State) (t : Fin 8) (p : Pkt) : List Nat :=
  match coordIndex p.dst with
  | none => []
  | some e =>
    let mask := s.minMask t e
    let exp := if s.flag (.til t) TIL_CFG 6 && !p.expressed then s.expMask t e else 0
    (upFrom 0 48).filter fun m => (bit mask m || bit exp m) && s.portOpen m

/-- The candidate of least occupancy, ties to the lowest at or after the rotating pointer (R300). -/
def State.choose (s : State) (t : Fin 8) (p : Pkt) (lane : Nat) : Option Nat :=
  let c := s.candidates t p
  let occ m := s.occupancy m (s.laneOn t m lane)
  match (c.map occ).min? with
  | none => none
  | some least =>
    let tied := c.filter fun m => occ m == least
    match tied.find? fun m => decide ((s.fabric t).ptr ≤ m) with
    | some m => some m
    | none => tied.head?

/-- Packets leave a lane while credits last. -/
def State.pump (m l : Nat) : Nat → State → State
  | 0, s => s
  | n + 1, s =>
    let q := s.portQ m
    match q.lane l with
    | [] => s
    | p :: rest =>
      if q.credit l = 0 ∨ s.portState m ≠ 3 ∨ s.feed (portOfIdx m) = 0 then s
      else State.pump m l n ((s.setPortQ m (q.put l rest (q.credit l - 1))).emit (.packet m l p))

/-- A packet joins a port's lane and leaves as soon as a credit stands (R302). -/
def State.toPort (s : State) (m l : Nat) (p : Pkt) : State :=
  let q := s.portQ m
  State.pump m l ((q.lane l).length + 1) (s.setPortQ m (q.put l (q.lane l ++ [p]) (q.credit l)))

/-- Count a drop, set its status bit and log it with the arguments of R298. -/
def State.dropPkt (s : State) (t : Fin 8) (p : Pkt) (port cnt : Nat) (status code : Option Nat) : State :=
  let b := Blk.til t
  let s := s.bump b cnt
  let s := match status with
    | some i => s.setFlag b TIL_STATUS i
    | none => s
  match code with
  | some c => s.logAs b c 2 [p.src, p.gen + t.val * 2 ^ 16 + port * 2 ^ 19, p.job] true
  | none => s

/-- The module port that a drop of a packet of the module's own names: none, said with 63 (log entry 31). -/
def ownPort : Nat := 63

/-- A packet leaves towards another module, or is dropped for want of a route (check 5); `lane` is the lane it came on. -/
def State.forward (s : State) (t : Fin 8) (p : Pkt) (lane port : Nat) : State :=
  match s.choose t p lane with
  | none => s.dropPkt t p port TIL_CNT_DROP_ROUTE (some 3) (some 0x3004)
  | some m =>
    let f := s.fabric t
    let s := s.setFabric t { f with ptr := (f.ptr + 1) % 48 }
    let l := s.laneOn t m lane
    if isExpress m then (s.bump (.til t) TIL_CNT_EXPRESS).toPort m l { p with expressed := true } else s.toPort m l p

/-- A tile injects a sealed packet: towards its destination, past checks 5 and 6 of R296, or back into the module
(log entry 99). -/
def State.inject (s : State) (t : Fin 8) (p : Pkt) : State :=
  let s := s.bump (.til t) TIL_CNT_TX
  if p.dst = s.coord t then { s with loopback := s.loopback ++ [p] }
  else if bits p.dst 24 8 ≠ bits (s.coord t) 24 8 ∨ !s.routeValid t p.dst then
    s.dropPkt t p ownPort TIL_CNT_DROP_ROUTE (some 3) (some 0x3004)
  else if p.hoplimit = 0 ∧ (s.choose t p 0).isSome then s.dropPkt t p ownPort TIL_CNT_DROP_HOPS (some 4) (some 0x3005)
  else s.forward t { p with hoplimit := p.hoplimit - 1 } 0 ownPort

/-! ## Sequence numbers (R293) -/

def nextSeq (l : List SeqOf) (coord flow : Nat) : Option Nat :=
  match l.find? fun x => x.coord == coord && x.flow == flow with
  | some x => x.next
  | none => some 0

def setSeq (l : List SeqOf) (coord flow : Nat) (n : Option Nat) : List SeqOf :=
  ⟨coord, flow, n⟩ :: l.filter fun x => !(x.coord == coord && x.flow == flow)

/-! ## Transfers at the source (R294, R306) -/

/-- Packets of a transfer of `len` bytes. -/
def pktCount (len : Nat) : Nat := (len + 4095) / 4096

def padTo (n : Nat) (l : List Byte) : List Byte := l ++ List.replicate (n - l.length) 0

/-- Packet `i` of a transfer, with the bytes read as it is injected. -/
def State.buildPkt (s : State) (t : Fin 8) (x : TxXfer) (i seq : Nat) : Pkt :=
  let off := i * 4096
  let n := min (off + 4096) x.len - off
  let u := unitsAt x.len off
  let data := if x.typ = typPut then s.readBytes (x.src + off) n else (x.body.drop off).take n
  { hver := 1, typ := x.typ, job := x.job, gen := s.gen t, units := u, resent := false, flow := x.flow,
    hoplimit := s.field (.til t) TIL_CFG 0 6, expressed := false, src := s.coord t, dst := x.dst, seq := seq,
    xfer := x.xfer, dtile := x.dtile, dcluster := x.dcluster, dunit := x.dunit, offset := off, lenM1 := x.len - 1,
    step := x.step % 2 ^ 16, base := x.base, reserved := false, payload := padTo (u * 256) data,
    trailer := 0 : Pkt }.sealed

/-- Packets of a transfer, and those not yet injected that are ready to be. -/
def TxXfer.total (x : TxXfer) : Nat := if x.typ = typReduce then (x.len + 3071) / 3072 else pktCount x.len
def TxXfer.waits (x : TxXfer) : Bool := if x.typ = typReduce then x.ready != [] else decide (x.next < x.total)

/-- A packet of a REDUCE transfer (R322). -/
def State.buildReduce (s : State) (t : Fin 8) (x : TxXfer) (i seq : Nat) (payload : List Byte) : Pkt :=
  { hver := 1, typ := typReduce, job := x.job, gen := s.gen t, units := payload.length / 256, resent := false, flow := x.flow,
    hoplimit := s.field (.til t) TIL_CFG 0 6, expressed := false, src := s.coord t, dst := x.dst, seq := seq, xfer := x.xfer,
    dtile := x.dtile, dcluster := 0, dunit := 0, offset := 3072 * i, lenM1 := x.len - 1, step := x.step % 2 ^ 16,
    base := 0, reserved := false, payload := payload, trailer := 0 : Pkt }.sealed

/-- What protection found in the ranges that an agent outside the clusters reads: the address of the word or the line that is lost, an
address of scratch or of memory (R153, R160, R444). -/
def State.outsideRead (s : State) (reads : List (Nat × Nat)) (e : Ecc) : State × Bool :=
  match (eccLost e reads).bind scratchCore with
  | some x => (s.log (.cor x.1) 0x4010 4 [x.2], true)
  | none =>
    if s.lostIn reads then (s, true)
    else
      match e with
      | .line n err =>
        match lineAt reads n, err with
        | some a, .dramCorrected => (s.dramCorrected a, false)
        | some a, .dramUncorrectable => (s.dramUncorrectable a 0, (memCtl a).isSome)
        | _, _ => (s, false)
      | _ => ((s.windowEcc reads e).1, false)

/-- A fabric or Landing block reads for the job of a slot: an error raises a job fault, and the read delivers nothing (R444, log
entry 103). -/
def State.slotRead (s : State) (b : Blk) (j : Nat) (reads : List (Nat × Nat)) (e : Ecc) : State × Bool :=
  let r := s.outsideRead reads e
  let code := if ((eccLost e reads).bind scratchCore).isSome then 0x4010 else if s.lostIn reads then 0x4012 else 0x4002
  (if r.2 then r.1.faultSlot j code b.base false else r.1, r.2)

/-- The bytes of memory that the packet a transfer injects next is read from: those of a PUT. -/
def TxXfer.nextReads (x : TxXfer) : List (Nat × Nat) :=
  if x.typ = typPut ∧ x.next < x.total then [(x.src + 4096 * x.next, min 4096 (x.len - 4096 * x.next))] else []

/-- The packet that a transfer injects next, if any. -/
def State.nextPkt (s : State) (t : Fin 8) (x : TxXfer) (seq : Nat) : Option Pkt :=
  if x.typ = typReduce then x.ready.head?.map fun r => s.buildReduce t x r.1 seq r.2
  else if x.next < x.total then some (s.buildPkt t x x.next seq)
  else none

def State.landing (s : State) (t : Fin 8) : Landing := sget (fun _ => Landing.reset) s.landings t.val
def State.setLanding (s : State) (t : Fin 8) (v : Landing) : State :=
  { s with landings := sset (fun _ => Landing.reset) s.landings t.val v }

/-- An entry of a step is complete (R279, R318). -/
def State.markComplete (s : State) (j : Nat) (m : Mark) : State :=
  let v := s.job j
  if v.done.contains m then s else s.setJob j { v with done := v.done ++ [m] }

/-- A NODE's output packet has been injected; its entry completes with the last one (R318). -/
def State.reduceInjected (s : State) (t : Fin 8) (x : TxXfer) : State :=
  let s := s.bump (.lnd t) LND_CNT_PKT_OUT
  if x.next = x.total then
    let l := s.landing t
    let mine (y : LndStream) : Bool := y.job == x.job && y.step == x.step && y.xfer == x.xfer
    let s := (l.streams.filter mine).foldl (fun s y => s.markComplete y.slot ⟨t.val, y.idx, y.step⟩) s
    (s.setLanding t { l with streams := l.streams.map fun y => if mine y then { y with complete := true } else y }).bump (.lnd t)
      LND_CNT_DONE
  else s

/-- Bytes held in a tile's resend buffer. -/
def Fabric.rsbUsed (f : Fabric) : Nat := (f.tx.map fun x => (x.held.map (·.size)).foldl (· + ·) 0).foldl (· + ·) 0

def State.rsbRoom (s : State) (t : Fin 8) (n : Nat) : Bool :=
  decide ((s.fabric t).rsbUsed + n ≤ s.field (.til t) TIL_RSB_CFG 0 11 * 2 ^ 20)

/-- Inject the next packet of transfer `i` of a tile if the resend buffer has room; did it? The copies that the buffer holds stand in
`held`, and not in the HBM area of TIL_RSB (DESIGN CHOICE, log entry 104). -/
def State.injectNext (s : State) (t : Fin 8) (i : Nat) : State × Bool :=
  match (s.fabric t).tx[i]? with
  | none => (s, false)
  | some x =>
    let seq := (nextSeq (s.fabric t).txSeq x.dst x.flow).getD 0
    match s.nextPkt t x seq with
    | none => (s, false)
    | some p =>
      if !s.rsbRoom t p.size then (s, false)
      else
        let f := s.fabric t
        let timer := if x.next + 1 = x.total then some s.beat else x.timer
        let y := { x with held := x.held ++ [p], ready := x.ready.drop 1, next := x.next + 1, timer := timer }
        let f := { f with tx := f.tx.set i y, txSeq := setSeq f.txSeq x.dst x.flow (some ((seq + 1) % 2 ^ 24)) }
        let s := (s.setFabric t f).inject t p
        (if x.typ = typReduce then s.reduceInjected t y else s, true)

/-- Inject packets of transfer `i` while the resend buffer has room. -/
def State.injectMany (t : Fin 8) (i : Nat) : Nat → State → State
  | 0, s => s
  | n + 1, s =>
    let r := s.injectNext t i
    if r.2 then State.injectMany t i n r.1 else r.1

/-- Transfers of a tile inject in order: is an earlier one waiting for room? -/
def Fabric.blocked (f : Fabric) (i : Nat) : Bool := (f.tx.take i).any (·.waits)

/-- A new transfer of a tile begins (R278, R306). -/
def State.startXfer (s : State) (t : Fin 8) (x : TxXfer) : State :=
  let f := s.fabric t
  let i := f.tx.length
  let s := s.setFabric t { f with tx := f.tx ++ [x] }
  if f.blocked i then s else State.injectMany t i (pktCount x.len) s

/-- An ACK or a NACK for a transfer of `dst` (R307, R308). -/
def State.sendControl (s : State) (t : Fin 8) (typ job dst flow step xfer : Nat) (payload : List Byte) : State :=
  s.inject t { hver := 1, typ := typ, job := job, gen := s.gen t, units := payload.length / 256, resent := false,
               flow := flow, hoplimit := s.field (.til t) TIL_CFG 0 6, expressed := false, src := s.coord t, dst := dst,
               seq := 0, xfer := xfer, dtile := flowTile flow, dcluster := 0, dunit := 0, offset := 0, lenM1 := 0,
               step := step % 2 ^ 16, base := 0, reserved := false, payload := payload, trailer := 0 : Pkt }.sealed

/-! ## Plans of a job slot -/

/-- The plan under which a step runs (R281): the newest that does not begin after it. -/
def JobSlot.planFor (j : JobSlot) (step : Nat) : Option Plan :=
  (j.plan.toList ++ j.oldPlans).find? fun p => !later32 p.firstStep step

def JobSlot.entry (j : JobSlot) (m : Mark) : Option PlanEntry :=
  match j.planFor m.step with
  | none => none
  | some p => ((p.tiles[m.tile]?).getD [])[m.idx]?

/-- The frame of an entry of a step (R281). -/
def JobSlot.entryFrame (j : JobSlot) (m : Mark) : Option Nat :=
  match j.planFor m.step, j.entry m with
  | some p, some e =>
    some ((p.startFrame + ((m.step + (2 ^ 32 - p.firstStep)) % 2 ^ 32) * p.stepFrames + e.frameOfs) % 2 ^ 32)
  | _, _ => none

/-! ## Batches of the cluster units (R280, R292) -/

/-- The open window under which a batch of a cluster travels: the first of its class and hop that the cluster has not
used for this destination. -/
def JobSlot.windowFor (j : JobSlot) (c : ClusterId) (m : UnitMsg) : Option (Mark × PlanEntry) :=
  j.opened.findSome? fun k =>
    if k.tile = c.tile.val ∧ k.step = m.step then
      match j.entry k with
      | some e =>
        if e.kind = 2 ∧ bits e.param 0 3 = m.cls ∧ (m.cls ≠ 0 ∨ bits e.param 3 6 + 1 = m.hop) ∧
            !(j.winUses.any fun u => u.mark == k && u.cluster == clusterIdx c && u.dst == m.dst) then some (k, e)
        else none
      | none => none
    else none

def unitOfClass (cls : Nat) : Nat := if cls = 0 then 0 else if cls = 3 then 2 else 1

def State.mailroom (s : State) (c : ClusterId) : Mailroom := sget (fun _ => Mailroom.reset) s.mailrooms (clusterIdx c)
def State.setMailroom (s : State) (c : ClusterId) (m : Mailroom) : State :=
  { s with mailrooms := sset (fun _ => Mailroom.reset) s.mailrooms (clusterIdx c) m }

/-- Counters of requests sent (R76, R101, R122), as a batch leaves. -/
def State.countSent (s : State) (c : ClusterId) (m : UnitMsg) : State :=
  let n := fieldAt m.body 0x0C 4
  if m.cls = 0 then (if fieldAt m.body 0 1 = 1 then s.bump (.cru c) CRU_CNT_REQ_SENT n else s)
  else if m.cls = 3 then s.bump (.sil c) SIL_CNT_SENT
  else if fieldAt m.body 0 1 = 1 ∨ fieldAt m.body 0 1 = 3 then s.bump (.skd c) SKD_CNT_HAULS_SENT
  else s

/-- Send every batch of a cluster whose window is open, in order (R280). -/
def State.drainOutbox (c : ClusterId) : Nat → List UnitMsg → State → State
  | 0, _, s => s
  | _, [], s => s
  | n + 1, m :: rest, s =>
    let go :=
      match s.slotOfJob m.job with
      | none => none
      | some j => ((s.job j).windowFor c m).map fun w => (j, w)
    match go with
    | none => State.drainOutbox c n rest s
    | some (j, k, e) =>
      let r := s.mailroom c
      let s := s.setMailroom c { r with outbox := dropFirst (fun x => x == m) r.outbox }
      let x := s.job j
      let s := s.setJob j { x with winUses := x.winUses ++ [⟨k, clusterIdx c, m.dst⟩] }
      let s := s.countSent c m
      let s := s.startXfer c.tile
        { job := m.job, dst := m.dst, flow := clusterIdx c, step := m.step, xfer := e.xfer, typ := typMsg,
          dtile := m.cluster / 80, dcluster := m.cluster % 80, dunit := unitOfClass m.cls, base := 0, src := 0,
          body := m.body, len := m.body.length, held := [], ready := [], next := 0, whole := 0, timer := none }
      State.drainOutbox c n rest s

def State.drain (s : State) (c : ClusterId) : State :=
  let o := (s.mailroom c).outbox
  if s.enabled (.til c.tile) then State.drainOutbox c o.length o s else s

/-- A unit hands the fabric a batch; it leaves when a window of its class is open. -/
def State.post (s : State) (c : ClusterId) (m : UnitMsg) : State :=
  let r := s.mailroom c
  (s.setMailroom c { r with outbox := r.outbox ++ [m] }).drain c

/-- The first batch handed to a unit that meets a test, and the state without it. -/
def State.takeMsg (s : State) (c : ClusterId) (p : InMsg → Bool) : Option (InMsg × State) :=
  let r := s.mailroom c
  match r.inbox.find? p with
  | some m => some (m, s.setMailroom c { r with inbox := dropFirst p r.inbox })
  | none => none

end Sys2Proof.Machine
end

