-- ==== Sys2Proof/Machine/Delivery.lean ====
section
/-! DEFINITION. Packets that arrive (R296 to R305), recovery of lost ones (R307 to R311), and the plan entries that start
and expect transfers (R278 to R280). -/
namespace Sys2Proof.Machine

/-! ## Records of transfers -/

def Pkt.key (p : Pkt) : XferKey := ⟨p.job, p.src, p.flow, p.step, p.xfer⟩
def RxXfer.key (x : RxXfer) : XferKey := ⟨x.job, x.src, x.flow, x.step % 2 ^ 16, x.xfer⟩
def TxXfer.key (x : TxXfer) : XferKey := ⟨x.job, x.dst, x.flow, x.step % 2 ^ 16, x.xfer⟩

def RxXfer.total (x : RxXfer) : Nat := if x.typ = typReduce then (x.len + 3071) / 3072 else pktCount x.len

def State.rxOf (s : State) (t : Fin 8) (k : XferKey) : Option RxXfer := (s.fabric t).rx.find? fun x => x.key == k

def State.setRx (s : State) (t : Fin 8) (x : RxXfer) : State :=
  let f := s.fabric t
  let l := if f.rx.any fun y => y.key == x.key then f.rx.map fun y => if y.key = x.key then x else y else f.rx ++ [x]
  s.setFabric t { f with rx := l }

/-- A record of a transfer that no packet has told of. -/
def RxXfer.fresh (job src flow step xfer typ len now : Nat) : RxXfer :=
  { job := job, src := src, flow := flow, step := step, xfer := xfer, typ := typ, len := len, got := [], pieces := [],
    dcluster := 0, dunit := 0, firstSeq := 0, seen := false, complete := false, handed := false, nacks := 0, failed := false,
    timer := now }

/-- The step of a job's record window whose low 16 bits are `low` (R305). -/
def stepInWindow (n low : Nat) : Option Nat :=
  [2 ^ 32 - 2 + n, 2 ^ 32 - 1 + n, n, n + 1].map (· % 2 ^ 32) |>.find? fun x => x % 2 ^ 16 == low

/-! ## Completion (R279, R303, R304, R307) -/

def State.ackRx (s : State) (t : Fin 8) (k : XferKey) : State := s.sendControl t typAck k.job k.peer k.flow k.step k.xfer []

/-- Does a record complete an EXPECT entry? -/
def RxXfer.meets (x : RxXfer) (t : Fin 8) (m : Mark) (e : PlanEntry) : Bool :=
  x.complete && x.typ == typPut && m.tile == t.val && e.kind == 1 && x.src == e.peer && x.flow == 640 + t.val &&
    x.xfer == e.xfer && x.step == m.step && decide (e.length ≤ x.len)

/-- Signal every waiting EXPECT that is complete. -/
def State.signalExpects (s : State) (j : Nat) : State :=
  let v := s.job j
  let l := v.waiting.filter v.done.contains
  let s := s.setJob j { v with waiting := v.waiting.filter fun m => !v.done.contains m }
  s.signal (l.filterMap fun m => (v.entry m).map fun e =>
    let g := syncTarget e.sync
    ⟨g.1, g.2, 1⟩)

/-- The EXPECT entries of a tile that a complete transfer meets, of a step that has begun or not. -/
def State.expectsMet (s : State) (t : Fin 8) (j : Nat) (x : RxXfer) : List Mark :=
  let l := (((s.job j).planFor x.step).map fun p => (p.tiles[t.val]?).getD []).getD []
  (((upFrom 0 l.length).zip l).filter fun p => x.meets t ⟨t.val, p.1, x.step⟩ p.2).map fun p => ⟨t.val, p.1, x.step⟩

/-- The bytes of a reassembled transfer. -/
def RxXfer.bytes (x : RxXfer) : List Byte := (upFrom 0 x.total).flatMap fun i => sget (fun _ => []) x.pieces i

/-- Count a batch for the open or coming windows of its entry (R280, R304). -/
def State.countBatch (s : State) (t : Fin 8) (j : Nat) (x : RxXfer) : State :=
  let v := s.job j
  let c := t.val * 80 + x.dcluster
  let l := ((v.planFor x.step).map fun p => (p.tiles[t.val]?).getD []).getD []
  match findIdx? (fun (e : PlanEntry) => e.kind == 2 && e.xfer == x.xfer) l 0 with
  | none => s
  | some (i, _) =>
    let m : Mark := ⟨t.val, i, x.step⟩
    let w := match v.winCounts.find? fun w => w.mark == m && w.cluster == c with
      | some w => { w with count := w.count + 1 }
      | none => ⟨m, c, 1⟩
    s.setJob j { v with winCounts := w :: v.winCounts.filter fun y => !(y.mark == m && y.cluster == c) }

/-- The complete transfer of a (source, FLOW) pair that is next in order (R304): an older one first. -/
def Fabric.nextHand (f : Fabric) (src flow : Nat) : Option (RxXfer × Option Nat) :=
  let l := f.rx.filter fun x => x.typ == typMsg && x.complete && !x.handed && x.src == src && x.flow == flow
  match nextSeq f.rxSeq src flow with
  | none => l.head?.map fun x => (x, some ((x.firstSeq + x.total) % 2 ^ 24))
  | some n =>
    let behind (x : RxXfer) : Nat := (n + (2 ^ 24 - x.firstSeq)) % 2 ^ 24
    match l.find? fun x => decide (1 ≤ behind x) && decide (behind x < 2 ^ 23) with
    | some x => some (x, some n)
    | none => (l.find? fun x => behind x == 0).map fun x => (x, some ((x.firstSeq + x.total) % 2 ^ 24))

/-- Hand complete transfers to their units, in the order that their source injected them. -/
def State.handOver (t : Fin 8) (j src flow : Nat) : Nat → State → State
  | 0, s => s
  | n + 1, s =>
    match (s.fabric t).nextHand src flow with
    | none => s
    | some (x, next) =>
      let c : ClusterId := ⟨t, Fin.ofNat 80 x.dcluster⟩
      let r := s.mailroom c
      let s := s.setMailroom c { r with inbox := r.inbox ++ [⟨x.dunit, x.src, x.job, x.step, x.bytes.take x.len⟩] }
      let s := s.setRx t { x with handed := true, pieces := [] }
      let f := s.fabric t
      let s := s.setFabric t { f with rxSeq := setSeq f.rxSeq src flow next }
      State.handOver t j src flow n (s.countBatch t j x)

/-- Every packet of a transfer is in. -/
def State.completeRx (s : State) (t : Fin 8) (j : Nat) (x : RxXfer) : State :=
  let x := { x with complete := true }
  let s := (s.setRx t x).ackRx t x.key
  if x.typ = typPut then ((s.expectsMet t j x).foldl (fun s m => s.markComplete j m) s).signalExpects j
  else State.handOver t j x.src x.flow ((s.fabric t).rx.length + 1) s

/-! ## Delivery (R303 to R305) -/

/-- Bytes reserved in a tile's reassembly area. -/
def Fabric.rxUsed (f : Fabric) : Nat :=
  ((f.rx.filter fun x => x.typ == typMsg && x.seen && !x.handed).map (·.len)).foldl (· + ·) 0

def State.rxRoom (s : State) (t : Fin 8) (n : Nat) : Bool :=
  decide ((s.fabric t).rxUsed + n ≤ s.field (.til t) TIL_RX_CFG 0 11 * 2 ^ 20)

/-- A packet of a transfer whose bytes are not yet counted. What is reassembled of a MSG stands in `pieces`, and not in the HBM area of
TIL_RX (DESIGN CHOICE, log entry 104). -/
def State.takePacket (s : State) (t : Fin 8) (j : Nat) (p : Pkt) (x : RxXfer) : State :=
  let x := if x.seen then x else { x with typ := p.typ, len := p.lenM1 + 1, dcluster := p.dcluster, dunit := p.dunit }
  let x := { x with timer := s.beat }
  if x.typ = typMsg ∧ x.seen = false ∧ !s.rxRoom t x.len then
    (((s.setRx t x).bump (.til t) TIL_CNT_RX_FULL).setFlag (.til t) TIL_STATUS 8).log (.til t) 0x3009 2
  else
    let i := p.offset / 4096
    let data := p.payload.take (min 4096 (x.len - p.offset))
    let s := s.bump (.til t) TIL_CNT_RX
    let a := p.base + p.offset
    let s := if x.typ = typPut ∧ rangeBacked a data.length then s.outsideWrite a data else s
    let x := { x with seen := true, got := i :: x.got, firstSeq := if i = 0 then p.seq else x.firstSeq,
                      pieces := if x.typ = typMsg then sset (fun _ => []) x.pieces i data else [] }
    if x.got.length = x.total then s.completeRx t j x else s.setRx t x

/-- Check 10 and delivery of a PUT or MSG packet. -/
def State.deliverData (s : State) (t : Fin 8) (j step : Nat) (p : Pkt) : State :=
  match s.rxOf t p.key with
  | none => s.takePacket t j p (RxXfer.fresh p.job p.src p.flow step p.xfer p.typ (p.lenM1 + 1) s.beat)
  | some x =>
    if x.complete then (s.bump (.til t) TIL_CNT_DUP).ackRx t x.key
    else if x.seen && (x.got.contains (p.offset / 4096) || decide (x.total ≤ p.offset / 4096)) then
      (s.setRx t { x with timer := s.beat }).bump (.til t) TIL_CNT_DUP
    else s.takePacket t j p x

/-- Is the Landing slot of a job valid on a tile (R329)? -/
def State.lndValid (s : State) (t : Fin 8) (j job : Nat) : Bool :=
  s.flag (.lnd t) (LND_SLOT j) 12 && s.field (.lnd t) (LND_SLOT j) 0 12 == job

/-- Checks 7 to 10 at the destination (R296). -/
def State.deliverPkt (s : State) (port : Nat) (p : Pkt) : State :=
  let t : Fin 8 := Fin.ofNat 8 p.dtile
  if !s.enabled (.til t) then s
  else if p.trailer ≠ p.crc then s.dropPkt t p port TIL_CNT_DROP_CRC (some 6) none
  else
    let noJob := s.dropPkt t p port TIL_CNT_DROP_JOB (some 7) (some 0x3007)
    match s.slotOfJob p.job with
    | none => noJob
    | some j =>
      if p.typ = typReduce ∧ !s.lndValid t j p.job then noJob
      else
        match stepInWindow (s.job j).step p.step with
        | none => s.dropPkt t p port TIL_CNT_DROP_STEP none none
        | some step =>
          if p.typ = typPut ∨ p.typ = typMsg then s.deliverData t j step p
          else
            let f := s.fabric t
            (s.setFabric t { f with arrived := f.arrived ++ [p] }).bump (.til t) TIL_CNT_RX

/-! ## Ingress (R296 to R299) -/

/-- Generation `a` is newer than `b` (R299). -/
def newerGen (a b : Nat) : Bool :=
  let d := (a % 2 ^ 16 + (2 ^ 16 - b % 2 ^ 16)) % 2 ^ 16
  decide (1 ≤ d) && decide (d < 2 ^ 15)

def sameGroup (a b : Nat) : Bool := bits a 24 8 == bits b 24 8

/-- Checks 5 and 6 for a packet on its way elsewhere. -/
def State.transit (s : State) (t : Fin 8) (p : Pkt) (lane port : Nat) : State :=
  if !sameGroup p.dst (s.coord t) || !s.routeValid t p.dst || (s.choose t p lane).isNone then
    s.dropPkt t p port TIL_CNT_DROP_ROUTE (some 3) (some 0x3004)
  else if p.hoplimit = 0 then s.dropPkt t p port TIL_CNT_DROP_HOPS (some 4) (some 0x3005)
  else (s.bump (.til t) TIL_CNT_FWD).forward t { p with hoplimit := p.hoplimit - 1 } lane port

/-- Checks 1 to 6 of a packet that arrives on module port `m`; `fecOk` is false if an uncorrectable codeword carries any
part of it, which the port counts (R351, log entry 85). A port that is in no data mode frames no packet (log entry 99). -/
def State.ingress (s : State) (m lane : Nat) (fecOk : Bool) (raw : List Byte) : State :=
  let t := (portOfIdx m).tile
  let p := Pkt.ofBytes raw
  if !s.enabled (.til t) ∨ !s.powered (.opt (portOfIdx m)) then s
  else if !s.framesPackets m then s.dropPkt t p m TIL_CNT_DROP_FEC none none
  else if !fecOk then (s.bump (.opt (portOfIdx m)) OPT_CNT_UNCORR).dropPkt t p m TIL_CNT_DROP_FEC none none
  else if raw.length != 56 + 256 * p.units then s.dropPkt t p m TIL_CNT_DROP_FEC none none
  else if p.badHeader then s.dropPkt t p m TIL_CNT_DROP_HDR (some 5) (some 0x3006)
  else if p.gen ≠ s.gen t then
    if newerGen (s.gen t) p.gen then s.dropPkt t p m TIL_CNT_DROP_STALE (some 0) (some 0x3001)
    else s.dropPkt t p m TIL_CNT_DROP_AHEAD (some 1) (some 0x3002)
  else if !s.routeValid t p.src || !sameGroup p.src (s.coord t) then
    s.dropPkt t p m TIL_CNT_DROP_MEMBER (some 2) (some 0x3003)
  else if p.dst ≠ s.coord t then s.transit t p lane m
  else s.deliverPkt m p

/-- PACKET_RECEIVE (R296). -/
def execPacketReceive (a : Arrival) (s : State) : Host.Outcome State Fault Refusal :=
  .next (match a with
    | .port m lane fecOk raw => s.ingress m.val lane.val fecOk raw
    | .loopback =>
      match s.loopback with
      | [] => s
      | p :: rest => { s with loopback := rest }.deliverPkt ownPort p)

/-! ## ACK, NACK and timers (R307 to R311) -/

/-- The first packet of a type that arrived at a tile, and the state without it. -/
def State.takeArrived (s : State) (t : Fin 8) (typ : Nat) : Option (Pkt × State) :=
  let f := s.fabric t
  if !s.enabled (.til t) then none
  else (f.arrived.find? fun p => p.typ == typ).map fun p =>
    (p, s.setFabric t { f with arrived := dropFirst (fun p => p.typ == typ) f.arrived })

/-- ACK_RECEIVE (R307). -/
def execAckReceive (t : Fin 8) (s : State) : Host.Outcome State Fault Refusal :=
  .next (match s.takeArrived t typAck with
    | none => s
    | some (p, s) =>
      let f := s.fabric t
      if f.tx.any fun x => x.key == p.key then
        s.setFabric t { f with tx := f.tx.filter fun x => x.key != p.key, released := p.key :: f.released }
      else s.bump (.til t) TIL_CNT_DUP)

/-- The packet index of a held packet. -/
def Pkt.index (p : Pkt) : Nat := p.offset / (if p.typ = typReduce then 3072 else 4096)

/-- Send again the held packets of a transfer that meet a test, in ascending packet order (R309, R310). -/
def State.resend (s : State) (t : Fin 8) (x : TxXfer) (want : Pkt → Bool) : State :=
  let l := (upFrom 0 x.total).flatMap fun i => x.held.filter fun p => p.index == i && want p
  l.foldl (fun s p => s.inject t { p with resent := true }.sealed) s

/-- NACK_RECEIVE (R309). -/
def execNackReceive (t : Fin 8) (s : State) : Host.Outcome State Fault Refusal :=
  .next (match s.takeArrived t typNack with
    | none => s
    | some (p, s) =>
      let s := s.bump (.til t) TIL_CNT_NACK_RCVD
      let f := s.fabric t
      match findIdx? (fun (x : TxXfer) => x.key == p.key) f.tx 0 with
      | none => if f.released.contains p.key then s.bump (.til t) TIL_CNT_DUP else s
      | some (i, x) =>
        if x.held = [] then s
        else
          let map := leVal p.payload
          let want (q : Pkt) : Bool := !bit map q.index
          let x' := { x with timer := x.timer.map fun _ => s.beat }
          let s := s.setFabric t { f with tx := f.tx.set i x' }
          let s := s.bump (.til t) TIL_CNT_RESENT (x.held.filter want).length
          s.resend t x want)

/-- A transfer is declared failed (R311). -/
def State.failXfer (s : State) (t : Fin 8) (k : XferKey) (side : Nat) : State :=
  let b := Blk.til t
  let s := s.log b 0x3008 3 [k.peer, k.xfer + k.step % 256 * 2 ^ 24, k.job + k.flow * 2 ^ 12 + side * 2 ^ 22]
  ((s.setFlag b TIL_STATUS 9).bump b TIL_CNT_FAILED).faultJob k.job 0x3008 b.base

def State.retryLimit (s : State) (t : Fin 8) : Nat := s.field (.til t) TIL_RETRY 0 4

/-- The bitmap of a NACK (R308). -/
def RxXfer.bitmap (x : RxXfer) : List Byte :=
  let units := if x.seen ∨ x.typ ≠ typPut then (x.total + 2047) / 2048 else 1
  leBytes (256 * units) ((x.got.map fun i => 2 ^ i).foldl (· + ·) 0)

/-- GAP_TIMER_EXPIRY (R308, R311) of record `idx` of a tile; not due before TIL_GAP.BEATS beats. -/
def execGapTimerExpiry (t : Fin 8) (idx : Nat) (s : State) : Host.Outcome State Fault Refusal :=
  .next (match (s.fabric t).rx[idx]? with
    | none => s
    | some x =>
      if !s.enabled (.til t) ∨ x.complete ∨ x.failed ∨ s.beat < x.timer + s.field (.til t) TIL_GAP 0 24 then s
      else if s.retryLimit t ≤ x.nacks then (s.setRx t { x with failed := true }).failXfer t x.key 0
      else
        let s := s.setRx t { x with nacks := x.nacks + 1, timer := s.beat }
        (s.sendControl t typNack x.job x.src x.flow x.step x.xfer x.bitmap).bump (.til t) TIL_CNT_NACK_SENT)

/-- ACK_TIMER_EXPIRY (R310, R311) of transfer `idx` of a tile; not due before TIL_ACK_TO.BEATS beats. -/
def execAckTimerExpiry (t : Fin 8) (idx : Nat) (s : State) : Host.Outcome State Fault Refusal :=
  .next (match (s.fabric t).tx[idx]? with
    | none => s
    | some x =>
      match x.timer with
      | none => s
      | some t0 =>
        let f := s.fabric t
        if !s.enabled (.til t) ∨ s.beat < t0 + s.field (.til t) TIL_ACK_TO 0 24 then s
        else if s.retryLimit t ≤ x.whole then
          (s.setFabric t { f with tx := f.tx.set idx { x with timer := none } }).failXfer t x.key 1
        else
          let s := s.setFabric t { f with tx := f.tx.set idx { x with timer := some s.beat, whole := x.whole + 1 } }
          (s.bump (.til t) TIL_CNT_ACK_TO).resend t x fun _ => true)

/-- PACKET_INJECT (R306): the tile's next waiting packet, once the resend buffer has room for it; `t.ecc` is what protection found in
the bytes that it is read from. -/
def execPacketInject (t : Checked (Fin 8)) (s : State) : Host.Outcome State Fault Refusal :=
  .next (if !s.enabled (.til t.val) then s
    else match findIdx? (fun (x : TxXfer) => x.waits) (s.fabric t.val).tx 0 with
      | none => s
      | some (i, x) =>
        let r := match s.slotOfJob x.job with
          | some j => s.slotRead (.til t.val) j x.nextReads t.ecc
          | none => s.outsideRead x.nextReads t.ecc
        if r.2 then r.1 else (r.1.injectNext t.val i).1)

/-- CREDIT_RETURN (R302): one more packet may leave on a lane of a port. -/
def execCreditReturn (m : Fin 48) (lane : Fin 2) (s : State) : Host.Outcome State Fault Refusal :=
  let q := s.portQ m.val
  .next (if !s.mainOn then s
    else State.pump m.val lane.val 1 (s.setPortQ m.val (q.put lane.val (q.lane lane.val) (q.credit lane.val + 1))))

/-! ## Plan entries (R278 to R281) -/

/-- Has the entry's frame and beat come? -/
def State.entryDue (s : State) (j : Nat) (m : Mark) (e : PlanEntry) : Bool :=
  match (s.job j).entryFrame m with
  | some f => (f == s.frame && decide (s.time.frameStart + e.beat ≤ s.beat)) || later32 s.frame f
  | none => false

/-- The earliest step in which entry `idx` of a tile is due and not yet taken. -/
def State.dueEntry (s : State) (j : Nat) (t : Fin 8) (idx : Nat) (kind : Nat) : Option (Mark × PlanEntry) :=
  let v := s.job j
  if !v.running || !s.enabled .ftb then none
  else v.owed.findSome? fun m =>
    if m.tile = t.val ∧ m.idx = idx then
      match v.entry m with
      | some e => if e.kind = kind ∧ s.entryDue j m e then some (m, e) else none
      | none => none
    else none

/-- An entry has been taken. -/
def State.markDone (s : State) (j : Nat) (m : Mark) : State :=
  let v := s.job j
  s.setJob j { v with owed := v.owed.filter (· != m) }


/-- Does an entry's object hold at least 1? -/
def State.entryReady (s : State) (e : PlanEntry) : Bool :=
  let g := syncTarget e.sync
  decide (1 ≤ s.syncCount g.1 g.2)

/-- PLAN_SEND (R278, R279): not due while an earlier entry of the tile is ready too. -/
def execPlanSend (j : Fin 16) (t : Fin 8) (idx : Nat) (found : Ecc) (s : State) : Host.Outcome State Fault Refusal :=
  let earlier := (upFrom 0 idx).any fun i => match s.dueEntry j.val t i 0 with
    | some (_, e) => s.entryReady e
    | none => false
  .next (match s.dueEntry j.val t idx 0 with
    | none => s
    | some (m, e) =>
      if !s.enabled (.til t) || !s.entryReady e || earlier then s
      else
        let g := syncTarget e.sync
        let r := ((s.takeWait g.1 g.2 1).markDone j.val m).slotRead (.til t) j.val [(e.src, e.length)] found
        if r.2 then r.1
        else r.1.startXfer t
          { job := (s.job j.val).job, dst := e.peer, flow := 640 + t.val, step := m.step, xfer := e.xfer, typ := typPut,
            dtile := t.val, dcluster := 0, dunit := 0, base := e.dst, src := e.src, body := [], len := e.length,
            held := [], ready := [], next := 0, whole := 0, timer := none })

/-- PLAN_EXPECT (R279, R308). -/
def execPlanExpect (j : Fin 16) (t : Fin 8) (idx : Nat) (s : State) : Host.Outcome State Fault Refusal :=
  .next (match s.dueEntry j.val t idx 1 with
    | none => s
    | some (m, e) =>
      let s := s.markDone j.val m
      let v := s.job j.val
      let k : XferKey := ⟨v.job, e.peer, 640 + t.val, m.step % 2 ^ 16, e.xfer⟩
      let s := s.setJob j.val { v with waiting := v.waiting ++ [m] }
      if v.done.contains m then s.signalExpects j.val
      else
        let at_ := if v.entryFrame m = some s.frame then s.time.frameStart + e.beat else s.beat
        if s.enabled (.til t) ∧ s.rxOf t k = none then
          s.setRx t (RxXfer.fresh v.job e.peer (640 + t.val) m.step e.xfer typPut e.length at_)
        else s)

def clusters80 : List (Fin 80) := (upFrom 0 80).map (Fin.ofNat 80)

/-- WINDOW_OPEN (R280). -/
def execWindowOpen (j : Fin 16) (t : Fin 8) (idx : Nat) (s : State) : Host.Outcome State Fault Refusal :=
  .next (match s.dueEntry j.val t idx 2 with
    | none => s
    | some (m, _) =>
      let s := s.markDone j.val m
      let v := s.job j.val
      clusters80.foldl (fun s c => s.drain ⟨t, c⟩) (s.setJob j.val { v with opened := v.opened ++ [m] }))

/-! ## ENABLE (R312, R313) -/

def inRange (v lo hi : Nat) : Bool := decide (lo ≤ v) && decide (v ≤ hi)

/-- The first register whose value the block refuses. -/
def State.tilBad (s : State) (t : Fin 8) : Option Nat :=
  let b := Blk.til t
  let gap := s.field b TIL_GAP 0 24
  let ack := s.field b TIL_ACK_TO 0 24
  let region lo hi cfg : Option Nat :=
    let n := s.field b cfg 0 11
    if !rangeHbm (s.pair b lo hi) (2 ^ 20 * max 1 n) then some lo else if !inRange n 16 1024 then some cfg else none
  if s.field b TIL_CFG 0 6 < 4 then some TIL_CFG
  else if !inRange gap 1024 10000000 then some TIL_GAP
  else if !inRange ack 1024 10000000 || decide (ack ≤ 2 * gap) then some TIL_ACK_TO
  else if s.field b TIL_RETRY 0 4 = 0 then some TIL_RETRY
  else
    match region TIL_RSB_LO TIL_RSB_HI TIL_RSB_CFG with
    | some o => some o
    | none =>
      match region TIL_RX_LO TIL_RX_HI TIL_RX_CFG with
      | some o => some o
      | none => if s.routeValid t (s.coord t) then none else some 0

def State.tilStart (s : State) (t : Fin 8) : State :=
  let s := s.setFabric t { Fabric.reset with ptr := (s.fabric t).ptr }
  clusters80.foldl (fun s c => s.drain ⟨t, c⟩) s

/-- The packets that a tile sends, or is to receive, within the module go. -/
def State.dropLoop (s : State) (t : Fin 8) : State :=
  { s with loopback := s.loopback.filter fun p => flowTile p.flow != t.val && p.dtile != t.val }

/-- Every held packet, reservation and record goes. -/
def State.tilStop (s : State) (t : Fin 8) : State :=
  let s := (s.setFabric t { Fabric.reset with ptr := (s.fabric t).ptr }).dropLoop t
  (upFrom (6 * t.val) 6).foldl (fun s m =>
    let q := s.portQ m
    s.setPortQ m { q with lane0 := [], lane1 := [] }) s

/-- TIL_ENABLE (R313). -/
def execTilEnable (t : Fin 8) (s : State) : Host.Outcome State Fault Refusal :=
  .next (s.enableWith (.til t) (s.tilBad t) fun s => s.tilStart t)

/-- TIL_DISABLE (R313). -/
def execTilDisable (t : Fin 8) (s : State) : Host.Outcome State Fault Refusal :=
  .next (s.disableWith (.til t) fun s => s.tilStop t)

end Sys2Proof.Machine
end

