-- ==== Sys2Proof/Machine/ChaCha.lean ====
section
/-! DEFINITION. The keystream of a sampling act: the ChaCha block function with 12 rounds (R59 to R61). -/
namespace Sys2Proof.Machine

def rotl32 (v : W32) (n : Nat) : W32 := v.rotateLeft n

/-- One quarter round on four words of the state. -/
def quarter (a b c d : W32) : W32 × W32 × W32 × W32 :=
  let a := a + b
  let d := rotl32 (d ^^^ a) 16
  let c := c + d
  let b := rotl32 (b ^^^ c) 12
  let a := a + b
  let d := rotl32 (d ^^^ a) 8
  let c := c + d
  let b := rotl32 (b ^^^ c) 7
  (a, b, c, d)

/-- Apply a quarter round to words `i j k l`. -/
def quarterAt (w : List W32) (i j k l : Nat) : List W32 :=
  let r := quarter (w.getD i 0) (w.getD j 0) (w.getD k 0) (w.getD l 0)
  (((w.set i r.1).set j r.2.1).set k r.2.2.1).set l r.2.2.2

def doubleRound (w : List W32) : List W32 :=
  let w := quarterAt (quarterAt (quarterAt (quarterAt w 0 4 8 12) 1 5 9 13) 2 6 10 14) 3 7 11 15
  quarterAt (quarterAt (quarterAt (quarterAt w 0 5 10 15) 1 6 11 12) 2 7 8 13) 3 4 9 14

def doubleRounds : Nat → List W32 → List W32
  | 0, w => w
  | n + 1, w => doubleRounds n (doubleRound w)

/-- The 16 words of a block. -/
def chachaBlock (key : List W32) (counter nonce : Nat) : List W32 :=
  let w : List W32 := [0x61707865, 0x3320646E, 0x79622D32, 0x6B206574] ++ key ++
    [BitVec.ofNat 32 counter, BitVec.ofNat 32 (counter / 2 ^ 32), BitVec.ofNat 32 nonce, BitVec.ofNat 32 (nonce / 2 ^ 32)]
  (w.zip (doubleRounds 6 w)).map fun p => p.1 + p.2

/-- A keystream: the key, the nonce, what is fixed of the counter, the next block, and the words left of the block
before it. -/
structure Keystream where
  key : List W32
  nonce : Nat
  walk : Bool
  fixed : Nat
  block : Nat
  left : List W32
  deriving DecidableEq, Repr

/-- The counter of block `b` (R60). -/
def Keystream.counter (k : Keystream) (b : Nat) : Nat :=
  if k.walk then k.fixed + b * 2 ^ 46 + 2 ^ 63 else k.fixed + b % 16 * 2 ^ 42 + b / 16 * 2 ^ 46

/-- Blocks of the layout. -/
def Keystream.blocks (k : Keystream) : Nat := if k.walk then 2 ^ 17 else 2 ^ 21

/-- next64 (R61); none past the last block of the layout. -/
def Keystream.next64 (k : Keystream) : Option (Nat × Keystream) :=
  match k.left with
  | a :: b :: t => some (a.toNat + b.toNat * 2 ^ 32, { k with left := t })
  | _ =>
    if k.blocks ≤ k.block then none
    else
      match chachaBlock k.key (k.counter k.block) k.nonce with
      | a :: b :: t => some (a.toNat + b.toNat * 2 ^ 32, { k with block := k.block + 1, left := t })
      | _ => none

/-- draw(n) with at most `fuel` rejections left. -/
def Keystream.drawLoop (n t : Nat) : Nat → Keystream → Option (Nat × Keystream)
  | 0, _ => none
  | fuel + 1, k =>
    match k.next64 with
    | none => none
    | some (x, k) =>
      let m := x * n
      if m % 2 ^ 64 < t then Keystream.drawLoop n t fuel k else some (m / 2 ^ 64, k)

/-- draw(n) (R61): exactly uniform over 0 to n − 1; none past the last block. -/
def Keystream.draw (k : Keystream) (n : Nat) : Option (Nat × Keystream) :=
  Keystream.drawLoop n ((2 ^ 64 - n) % n) (k.blocks * 8) k

end Sys2Proof.Machine
end

