-- ==== Sys2Proof/Machine/Graph.lean ====
section
/-! DEFINITION. The objects the cluster units share: array references (R21 to R23), owner maps (R24 to R28), stand
files (R29 to R34) and the shape of a plot (R36). -/
namespace Sys2Proof.Machine

/-! ## Array references -/

def State.arrRef (s : State) (w : Nat) : ArrRef :=
  let a := bits w 0 48
  let n := bits w 48 5
  { word := w, addr := a, stripes := n, granule := 64 * 4 ^ bits w 53 2,
    bases := if n ≤ 24 then (upFrom 0 n).map fun i => s.rd (a + 8 * i) 8 else [] }

/-- The address of byte `o` of an array (R22). -/
def ArrRef.at_ (r : ArrRef) (o : Nat) : Nat :=
  if r.stripes = 0 then r.addr + o
  else
    let g := o / r.granule
    r.bases.getD (g % r.stripes) 0 + g / r.stripes * r.granule + o % r.granule

/-- The addresses of the lines that hold `n` bytes of an array from byte `o` on; no line crosses a granule. -/
def ArrRef.lines (r : ArrRef) (o n : Nat) : List Nat := (linesOf o n).map fun l => r.at_ (l * 64)

/-- The tier, 1 or 2, in which a range lies wholly; 0 if none. -/
def dramTier (a n : Nat) : Nat := if rangeTier a n = 1 ∨ rangeTier a n = 2 then rangeTier a n else 0

/-- The range of base `i` that the first `extent` bytes of a striped array use: its length. -/
def ArrRef.stripeLen (r : ArrRef) (extent i : Nat) : Nat :=
  let g := (extent + r.granule - 1) / r.granule
  if g ≤ i then 0
  else
    let n := (g - i + r.stripes - 1) / r.stripes
    if (g - 1) % r.stripes = i then (n - 1) * r.granule + (extent - (g - 1) * r.granule) else n * r.granule

/-- An invalid array reference (R23) for an array of `extent` bytes. -/
def ArrRef.invalid (r : ArrRef) (extent : Nat) : Bool :=
  r.addr % 64 != 0 || decide (24 < r.stripes) || bits r.word 55 9 != 0 ||
    (if r.stripes = 0 then extent != 0 && dramTier r.addr extent == 0
     else
      let t := dramTier r.addr (8 * r.stripes)
      t == 0 || (r.bases.any fun b => bits b 48 16 != 0 || b % r.granule != 0) ||
        (upFrom 0 r.stripes).any fun i =>
          let n := r.stripeLen extent i
          n != 0 && dramTier (r.bases.getD i 0) n != t)

/-- The little-endian value of `n` bytes at byte offset `o` of an array; elements do not cross a granule. -/
def State.arrRd (s : State) (r : ArrRef) (o n : Nat) : Nat := s.rd (r.at_ o) n

/-! ## Owner maps -/

def rangesOverlap (a n b m : Nat) : Bool := decide (a < b + m) && decide (b < a + n)

def ascending : List Nat → Bool
  | a :: b :: t => decide (a < b) && ascending (b :: t)
  | _ => true

/-- Read an owner map image; CAUSE 0 if it is accepted (R27), else the lowest-numbered cause that holds (DESIGN CHOICE, log
entry 86). -/
def State.loadOwnerMap (s : State) (a : Nat) : OwnerMap × Nat :=
  let f o n := s.rd (a + o) n
  let rc := f 8 4
  let mc := f 0xC 2
  let mo := f 0x10 4
  let ro := f 0x14 4
  if f 0 4 ≠ 0x524E574F then (OwnerMap.empty, 1)
  else if f 4 1 ≠ 1 then (OwnerMap.empty, 2)
  else if rc = 0 ∨ 65536 < rc ∨ mc = 0 ∨ 1024 < mc then (OwnerMap.empty, 3)
  else
    let mods := (upFrom 0 mc).map fun i => f (mo + 4 * i) 4
    let words := (upFrom 0 rc).map fun i => (f (ro + 16 * i) 8, f (ro + 16 * i + 8) 8)
    let ranges : List OwnerRange := words.map fun w => ⟨bits w.1 0 40, bits w.1 40 12, bits w.2 0 40⟩
    let last := ranges.getLastD ⟨0, 0, 0⟩
    if !ascending (ranges.map (·.first)) ∨ last.owner ≠ 0xFFF then (OwnerMap.empty, 4)
    else if ranges.any fun r => r.owner != 0xFFF && decide (mc ≤ r.owner) then (OwnerMap.empty, 5)
    else if f 6 2 ≠ 0 ∨ f 0xE 2 ≠ 0 ∨ !allZero (s.readBytes (a + 0x18) 36) ∨
        (words.any fun w => bits w.1 52 12 != 0 || bits w.2 40 24 != 0) ∨ mo % 64 ≠ 0 ∨ ro % 64 ≠ 0 ∨
        rangesOverlap 0 64 mo (4 * mc) ∨ rangesOverlap 0 64 ro (16 * rc) ∨ rangesOverlap mo (4 * mc) ro (16 * rc) then
      (OwnerMap.empty, 6)
    else if f 0x3C 4 ≠ crc32c (s.readBytes a 60 ++ List.replicate 4 0 ++ s.readBytes (a + mo) (4 * mc) ++
        s.readBytes (a + ro) (16 * rc)) then (OwnerMap.empty, 7)
    else (⟨mods, ranges⟩, 0)

/-- Why a node ID is invalid (R27). -/
inductive Invalid where
  | sentinel | beyond | deleted
  deriving DecidableEq, Repr

/-- What an ID resolves to. -/
inductive Resolved where
  | bad (why : Invalid)
  | node (owner row idx : Nat)
  deriving DecidableEq, Repr

/-- The last range whose FIRST_ID is at most `id`. -/
def lastRange (id : Nat) : List OwnerRange → Option OwnerRange → Option OwnerRange
  | [], acc => acc
  | r :: t, acc => if r.first ≤ id then lastRange id t (some r) else acc

/-- Resolution of an ID by the map alone (R27); the owner checks the row. -/
def OwnerMap.resolve (m : OwnerMap) (id : Nat) : Resolved :=
  if bit id 39 then .bad .sentinel
  else
    match lastRange id m.ranges none with
    | none => .bad .beyond
    | some r =>
      if r.owner = 0xFFF then .bad .beyond
      else .node (m.modules.getD r.owner 0) (r.base + (id - r.first)) r.owner

/-- The length of the range that begins at position `i`. -/
def rangeLen : List OwnerRange → Nat
  | a :: b :: _ => b.first - a.first
  | [a] => 2 ^ 39 - a.first
  | [] => 0

/-- The global ID of a local row of module `me`: the range of lowest FIRST_ID that holds it (R69). -/
def OwnerMap.idOfRow (m : OwnerMap) (me row : Nat) : List OwnerRange → Option Nat
  | [] => none
  | r :: t =>
    if r.owner ≠ 0xFFF ∧ m.modules.getD r.owner 0 = me ∧ r.base ≤ row ∧ row - r.base < rangeLen (r :: t) then
      some (r.first + (row - r.base))
    else m.idOfRow me row t

/-! ## Stand files -/

structure Stand where
  addr : Nat
  weighted : Bool
  attrMode : Nat
  segmented : Bool
  cap : Nat
  rows : Nat
  edges : Nat
  offs : ArrRef
  edge : ArrRef
  cumw : ArrRef
  segs : ArrRef
  segCount : Nat
  deriving DecidableEq, Repr

def State.stand (s : State) (a : Nat) : Stand :=
  let f o n := s.rd (a + o) n
  { addr := a, weighted := bit (f 8 4) 0, attrMode := bits (f 8 4) 1 2, segmented := bit (f 8 4) 3, cap := f 0xC 4,
    rows := f 0x10 8, edges := f 0x18 8, offs := s.arrRef (f 0x20 8), edge := s.arrRef (f 0x28 8),
    cumw := s.arrRef (f 0x30 8), segs := s.arrRef (f 0x38 8), segCount := f 0x40 8 }

/-- A stand file is refused (R34). -/
def State.standRefused (s : State) (a : Nat) : Bool :=
  let f o n := s.rd (a + o) n
  let d := s.stand a
  f 0 4 != 0x444E5453 || f 4 1 != 1 || f 0xF8 4 != crc32c (s.readBytes a 0xF8) || f 6 2 != 256 ||
    bits (f 8 4) 4 28 != 0 || !allZero (s.readBytes (a + 0x54) 164) || f 0xFC 4 != 0 ||
    (if d.segmented then decide (d.cap < 16) || decide (4096 < d.cap) || d.cap % 16 != 0 else d.cap != 0) ||
    (!d.segmented && d.segCount != 0) || decide (2 ^ 40 - 1 < d.rows) || decide (2 ^ 48 - 1 < d.edges) ||
    d.attrMode == 3 || d.offs.invalid ((d.rows + 1) * 8) || d.edge.invalid (d.edges * 8) ||
    (d.weighted && d.cumw.invalid (d.edges * 4)) || (d.segmented && d.segs.invalid (d.segCount * 16))

/-- A row's offsets entry (R30). -/
def State.offsetEntry (s : State) (d : Stand) (r : Nat) : Nat := s.arrRd d.offs (r * 8) 8

/-- The row's first edge and degree; `malformed` is an offset found decreasing or beyond EDGE_COUNT (R34). -/
structure RowInfo where
  first : Nat
  degree : Nat
  deleted : Bool
  malformed : Bool
  deriving DecidableEq, Repr

/-- The row's entries (R30, R34); reserved bits [62:48], and the OFFSET and DELETED of the last entry, are not checked
(DESIGN CHOICE, log entry 87). -/
def State.rowInfo (s : State) (d : Stand) (r : Nat) : RowInfo :=
  if d.rows ≤ r then ⟨0, 0, true, false⟩
  else
    let a := s.offsetEntry d r
    let b := s.offsetEntry d (r + 1)
    if bit a 63 then ⟨0, 0, true, false⟩
    else
      let x := bits a 0 48
      let y := bits b 0 48
      if y < x ∨ d.edges < y then ⟨0, 0, true, true⟩ else ⟨x, y - x, false, false⟩

def State.edgeEntry (s : State) (d : Stand) (i : Nat) : Nat := s.arrRd d.edge (i * 8) 8
def State.cumWeight (s : State) (d : Stand) (i : Nat) : Nat := s.arrRd d.cumw (i * 4) 4

/-! ## Plot shape (R36) -/

/-- Slot counts p[h] of the hops. -/
def hopCounts (seeds : Nat) : List Nat → List Nat
  | [] => [seeds]
  | f :: t => seeds :: hopCounts (seeds * f) t

/-- A 64-byte multiple at or above `n`. -/
def up64 (n : Nat) : Nat := (n + 63) / 64 * 64

end Sys2Proof.Machine
end

