-- ==== Sys2Proof/Machine/Sampling.lean ====
section
/-! DEFINITION. The selection rules of a sampling act (R60 to R68): which entries of a row fill a parent's block. -/
namespace Sys2Proof.Machine

/-- MODE of R51. -/
def modeUniform : Nat := 0
def modeRepl : Nat := 1
def modeWeighted : Nat := 2
def modeFull : Nat := 3
def modeWalk : Nat := 4

/-- What an act chose: the entry of each slot, or that the row's weights are malformed, or that the act reached the last
block of its layout. -/
inductive Picks where
  | ok (l : List (Option Nat))
  | badWeights
  | exhausted
  deriving DecidableEq, Repr

def nullPicks (n : Nat) : List (Option Nat) := List.replicate n none

/-- The reservoir of R63 from entry `i` on, `n` entries more. -/
def reservoir (f : Nat) : Nat → Nat → List Nat → Keystream → Option (List Nat × Keystream)
  | 0, _, res, k => some (res, k)
  | n + 1, i, res, k =>
    match k.draw (i + 1) with
    | none => none
    | some (j, k) => reservoir f n (i + 1) (if j < f then res.set j i else res) k

/-- The reservoir over `d` entries with `f` slots, d > f or not (R63). -/
def reservoirOf (d f : Nat) (k : Keystream) : Option (List Nat × Keystream) :=
  if d ≤ f then some (upFrom 0 d, k) else reservoir f (d - f) f (upFrom 0 f) k

/-- UNIFORM of a row of at most 4,096 entries (R63). -/
def pickReservoir (d f : Nat) (k : Keystream) : Picks :=
  match reservoirOf d f k with
  | none => .exhausted
  | some (l, _) => .ok ((l.map some ++ nullPicks f).take f)

/-- Floyd's selection (R64), `n` draws from entry `i` on. -/
def floyd : Nat → Nat → List Nat → Keystream → Option (List Nat × Keystream)
  | 0, _, c, k => some (c, k)
  | n + 1, i, c, k =>
    match k.draw (i + 1) with
    | none => none
    | some (t, k) => floyd n (i + 1) (if c.contains t then i :: c else t :: c) k

/-- Stage 2 of R64: the reservoir within each block, ascending. -/
def hubBlocks (d : Nat) (chosen : List Nat) : List Nat → List Nat → Keystream → Option (List Nat)
  | [], acc, _ => some acc
  | b :: t, acc, k =>
    let n := min (4096 * (b + 1)) d - 4096 * b
    let c := (chosen.filter fun x => x / 4096 == b).length
    match reservoirOf n c k with
    | none => none
    | some (l, k) => hubBlocks d chosen t (acc ++ l.map (4096 * b + ·)) k

/-- UNIFORM of a hub row (R64). -/
def pickHub (d f : Nat) (k : Keystream) : Picks :=
  match floyd f (d - f) [] k with
  | none => .exhausted
  | some (chosen, k) =>
    let blocks := ((chosen.map (· / 4096)).foldr insertNat []).eraseDups
    match hubBlocks d chosen blocks [] k with
    | none => .exhausted
    | some l => .ok (l.map some)

/-- UNIFORM_REPL and an unweighted walk: `n` draws (R65, R68). -/
def pickRepl (d : Nat) : Nat → List (Option Nat) → Keystream → Picks
  | 0, acc, _ => .ok acc
  | n + 1, acc, k =>
    match k.draw d with
    | none => .exhausted
    | some (j, k) => pickRepl d n (acc ++ [some j]) k

/-! ## Weighted search (R66, R67) -/

/-- A weight that is NaN, infinite or less than zero. -/
def badWeight (v : Nat) : Bool :=
  match fp32.decode v with
  | .nan => true
  | .inf _ => true
  | x => XVal.lt false x (.num false 0 1 0)

def f32lt (a b : Nat) : Bool := XVal.lt false (fp32.decode a) (fp32.decode b)

/-- A probed entry that contradicts another one: smaller at a higher index. -/
def probeClash (l : List (Nat × Nat)) : Bool :=
  l.any fun p => badWeight p.2 || l.any fun q => decide (p.1 < q.1) && f32lt q.2 p.2

/-- Stage 1: the block, and the entries compared. -/
def stageOne (cw : Nat → Nat) (d u : Nat) : Nat → Nat → Nat → List (Nat × Nat) → Nat × List (Nat × Nat)
  | 0, lo, _, acc => (lo, acc)
  | n + 1, lo, hi, acc =>
    if hi ≤ lo then (lo, acc)
    else
      let mid := lo + (hi - lo) / 2
      let e := min (16 * mid + 15) (d - 1)
      let acc := acc ++ [(e, cw e)]
      if f32lt u (cw e) then stageOne cw d u n lo mid acc else stageOne cw d u n (mid + 1) hi acc

/-- The threshold u of R66 for the draw x. -/
def weightPoint (x w : Nat) : Nat :=
  let r := XVal.num false (x / 2 ^ 40 % 2 ^ 24) 1 (-24)
  let u := fp32.encode (XVal.mul r (fp32.decode w))
  if f32lt u w then u else w - 1

/-- One slot: the chosen entry and every entry probed. -/
def weightedSlot (cw : Nat → Nat) (d w x : Nat) : Nat × List (Nat × Nat) :=
  let u := weightPoint x w
  let nb := (d + 15) / 16
  let r := stageOne cw d u 64 0 (nb - 1) []
  let es := upFrom (16 * r.1) (min (16 * r.1 + 16) d - 16 * r.1)
  let e := (es.find? fun i => f32lt u (cw i)).getD (d - 1)
  (e, r.2 ++ es.map fun i => (i, cw i))

/-- The weighted search of `n` slots: what it picks, and the entries it probed. -/
def searchWeighted (cw : Nat → Nat) (d w : Nat) :
    Nat → List (Option Nat) → List (Nat × Nat) → Keystream → Picks × List (Nat × Nat)
  | 0, acc, probed, _ => (.ok acc, probed)
  | n + 1, acc, probed, k =>
    match k.next64 with
    | none => (.exhausted, probed)
    | some (x, k) =>
      let r := weightedSlot cw d w x
      let probed := (probed ++ r.2).eraseDups
      if probeClash probed then (.badWeights, probed) else searchWeighted cw d w n (acc ++ [some r.1]) probed k

def isHub (mode d f : Nat) : Bool := mode == modeUniform && decide (4096 < d) && decide (f < d)

/-- The entries whose cumulative weights an act probes (R66). -/
def actProbes (mode : Nat) (weighted : Bool) (cw : Nat → Nat) (d f : Nat) (k : Keystream) : List Nat :=
  if d = 0 ∨ ¬(mode = modeWeighted ∨ (mode = modeWalk ∧ weighted)) then []
  else
    let w := cw (d - 1)
    if (fp32.decode w).isZero ∨ badWeight w then [d - 1] else (searchWeighted cw d w f [] [(d - 1, w)] k).2.map (·.1)

/-- The whole act over a row of degree `d` for `f` slots: mode, whether weighted, and the row's sums. -/
def selectAct (mode : Nat) (weighted : Bool) (cw : Nat → Nat) (d f : Nat) (k : Keystream) : Picks :=
  if d = 0 then .ok (nullPicks f)
  else if mode = modeUniform then (if 4096 < d ∧ f < d then pickHub d f k else pickReservoir d f k)
  else if mode = modeWeighted ∨ (mode = modeWalk ∧ weighted) then
    let w := cw (d - 1)
    if (fp32.decode w).isZero then .ok (nullPicks f)
    else if badWeight w then .badWeights
    else (searchWeighted cw d w f [] [(d - 1, w)] k).1
  else pickRepl d f [] k

/-- The keystream of an anchored act or a walker's move (R59, R60). -/
def actStream (key : List W32) (step epoch sampler : Nat) (walk : Bool) (id hop : Nat) : Keystream :=
  { key := key, nonce := step % 2 ^ 32 + epoch % 2 ^ 24 * 2 ^ 32 + sampler % 2 ^ 8 * 2 ^ 56, walk := walk,
    fixed := id % 2 ^ 40 + (hop - 1) * 2 ^ 40, block := 0, left := [] }

end Sys2Proof.Machine
end

