-- ==== Sys2Proof/Machine/Cruiser.lean ====
section
/-! DEFINITION. The Cruiser (R49 to R78): the descriptor queue, plots, sampling acts, cruise batches. -/
namespace Sys2Proof.Machine

def State.cruiser (s : State) (c : ClusterId) : Cruiser := sget (fun _ => Cruiser.reset) s.cruisers (clusterIdx c)
def State.setCruiser (s : State) (c : ClusterId) (v : Cruiser) : State :=
  { s with cruisers := sset (fun _ => Cruiser.reset) s.cruisers (clusterIdx c) v }

/-- A unit writes bytes; a range that is not backed takes none (log entry 33). -/
def State.unitWrite (s : State) (c : ClusterId) (a : Nat) (l : List Byte) : State :=
  if rangeBacked a l.length then s.clusterWrite c a l else s

/-- The address that a QUEUE_LO and QUEUE_HI pair forms (R49). -/
def queueAddr (lo hi : Nat) : Nat := lo / 64 * 64 % 2 ^ 32 + hi % 2 ^ 16 * 2 ^ 32

/-- A write of CRU_QUEUE_HI (R49). -/
def State.cruQueueHi (s : State) (c : ClusterId) (v : Nat) : State :=
  let b := Blk.cru c
  let u := s.cruiser c
  let a := queueAddr (s.reg b CRU_QUEUE_LO) v
  if u.queue.length < 4 ∧ s.enabled b then s.setCruiser c { u with queue := u.queue ++ [a] }
  else (s.setFlag b CRU_STATUS 0).log b 0x2007 2 (lohi a)

/-! ## Descriptors (R50 to R53) -/

def State.cruDesc (s : State) (a : Nat) : CruDesc :=
  let f o n := s.rd (a + o) n
  { addr := a, mode := bits (f 0 4) 0 3, dedup := bit (f 0 4) 3, walkWeighted := bit (f 0 4) 4,
    hops := bits (f 0 4) 5 2 + 1, standSlot := bits (f 0 4) 8 3, done := f 4 4, seedCount := f 8 4, fanout := f 0xC 4,
    step := f 0x10 4, sampler := f 0x14 1, walkSteps := f 0x15 1, seeds := f 0x18 8, plot := f 0x20 8,
    walkerBase := f 0x28 8 % 2 ^ 40 }

def fanByte (d : CruDesc) (i : Nat) : Nat := bits d.fanout (8 * i) 8

/-- The fan-outs of a descriptor's hops; walk steps have fan-out 1. -/
def CruDesc.fans (d : CruDesc) (cap : Nat) : List Nat :=
  if d.mode = modeWalk then List.replicate d.walkSteps 1
  else if d.mode = modeFull then [cap]
  else (upFrom 0 d.hops).map (fanByte d)

/-- The reserved fields of R50. -/
def State.cruReserved (s : State) (d : CruDesc) : Bool :=
  let f o n := s.rd (d.addr + o) n
  bit (f 0 4) 7 || bits (f 0 4) 11 21 != 0 || bits (f 4 4) 10 22 != 0 || f 0x16 2 != 0 || bits (f 0x28 8) 40 24 != 0 ||
    !allZero (s.readBytes (d.addr + 0x30) 16)

/-- The checks of R52 that need no stand file; a WALKER_BASE other than 0 outside WALK breaks R50 and is refused with them
(DEDUCED, log entry 88). -/
def State.cruBadDesc (s : State) (c : ClusterId) (d : CruDesc) : Bool :=
  let anchored := decide (d.mode < 3)
  decide (4 < d.mode) || s.cruReserved d || decide (47 < bits d.done 4 6) || d.seedCount == 0 ||
    decide (65536 < d.seedCount) ||
    (if anchored then (upFrom 0 4).any fun i =>
        if i < d.hops then fanByte d i == 0 || decide (64 < fanByte d i) else fanByte d i != 0
     else d.fanout != 0 || d.hops != 1) ||
    (if d.mode = modeWalk then d.walkSteps == 0 || decide (64 < d.walkSteps) ||
        decide (0xFFFFFFFFFF < d.walkerBase + d.seedCount - 1)
     else d.walkSteps != 0 || d.walkerBase != 0) ||
    (d.mode != modeFull && decide (65536 < sumNat (hopCounts d.seedCount (d.fans 0)))) ||
    !s.flag (.cru c) (CRU_STAND_LO d.standSlot) 0

def State.standAddr (s : State) (c : ClusterId) (slot : Nat) : Nat :=
  queueAddr (s.reg (.cru c) (CRU_STAND_LO slot)) (s.reg (.cru c) (CRU_STAND_HI slot))

/-- The checks of R52 that need an accepted stand file. -/
def cruBadStand (d : CruDesc) (t : Stand) : Bool :=
  ((d.mode == modeWeighted || (d.mode == modeWalk && d.walkWeighted)) && !t.weighted) ||
    (d.mode == modeFull && (!t.segmented || decide (t.segCount < d.seeds + d.seedCount) ||
      decide (65536 < d.seedCount + d.seedCount * t.cap)))

/-- The plot header (R55); a refused plot holds only its echoed fields. -/
def plotHeader (d : CruDesc) (status epoch fanout hops slots nulls sen bey del bad mask front total : Nat) : List Byte :=
  leBytes 1 status ++ leBytes 1 d.mode ++ leBytes 1 hops ++ leBytes 1 d.sampler ++ leBytes 4 slots ++
    leBytes 4 d.seedCount ++ leBytes 4 fanout ++ leBytes 4 d.step ++ leBytes 4 epoch ++ leBytes 4 nulls ++ leBytes 4 sen ++
    leBytes 4 bey ++ leBytes 4 del ++ leBytes 4 bad ++ leBytes 4 mask ++ leBytes 4 front ++ leBytes 4 total ++
    List.replicate 8 0

/-- DONE of a finished descriptor, or a job fault when it names no sync object (R53). -/
def State.cruDone (s : State) (c : ClusterId) (done : Nat) : State :=
  if 47 < bits done 4 6 then s.faultCluster c 0x2003 (Blk.cru c).base false else s.signalDone c done

/-- A refused descriptor (R52). -/
def State.cruRefuse (s : State) (c : ClusterId) (d : CruDesc) (status epoch : Nat) : State :=
  let b := Blk.cru c
  let s := s.unitWrite c d.plot (plotHeader d status epoch d.fanout 0 0 0 0 0 0 0 0 0 64)
  let s := (s.setFlag b CRU_STATUS 1).log b (if status = 1 then 0x2003 else 0x2002)
    (if 47 < bits d.done 4 6 then 3 else 2) (lohi d.addr)
  (s.bump b CRU_CNT_DESC_REFUSED).cruDone c d.done

/-! ## Resolution with counts (R27, R28, R74) -/

/-- Resolution by the unit's map; a local row is checked against the stand (R27), by DELETED alone: its OFFSET is not read
here (DESIGN CHOICE, log entry 87). -/
def State.cruResolve (s : State) (c : ClusterId) (t : Stand) (id : Nat) : Resolved :=
  match (s.cruiser c).map.resolve id with
  | .bad w => .bad w
  | .node owner row idx =>
    if owner = s.coord c.tile ∧ (t.rows ≤ row ∨ bit (s.offsetEntry t row) 63) then .bad .deleted
    else .node owner row idx

def invalidCounter : Invalid → Nat
  | .sentinel => CRU_CNT_SENTINEL
  | .beyond => CRU_CNT_BEYOND
  | .deleted => CRU_CNT_DELETED

def CruPlot.countInvalid (p : CruPlot) (w : Invalid) (n : Nat) : CruPlot :=
  match w with
  | .sentinel => { p with sentinel := p.sentinel + n }
  | .beyond => { p with beyond := p.beyond + n }
  | .deleted => { p with deleted := p.deleted + n }

/-- The address of the offsets entry that the resolution of an ID reads: that of a local row. -/
def State.entryRead (s : State) (c : ClusterId) (t : Stand) (id : Nat) : Option Nat :=
  match (s.cruiser c).map.resolve id with
  | .node owner row _ => if owner = s.coord c.tile ∧ row < t.rows then some (t.offs.at_ (row * 8)) else none
  | .bad _ => none

/-- What the resolution of some slots' own IDs reads. -/
def State.entryReads (s : State) (c : ClusterId) (t : Stand) (l : List SlotVal) : List (Nat × Nat) :=
  l.filterMap fun v => if v.real then (s.entryRead c t v.node).map fun a => (a, 8) else none

/-- A slot whose own ID resolves invalid becomes null and counts (R74). -/
def State.settleSlot (s : State) (c : ClusterId) (t : Stand) (p : CruPlot) (v : SlotVal) : State × CruPlot × SlotVal :=
  if !v.real then (s, p, v)
  else
    let s := s.touchLines c (s.entryRead c t v.node).toList
    match s.cruResolve c t v.node with
    | .bad w => (s.bump (.cru c) (invalidCounter w), p.countInvalid w 1, SlotVal.null)
    | .node .. => (s, p, v)

def State.settleSlots (c : ClusterId) (t : Stand) : List SlotVal → State → CruPlot → State × CruPlot × List SlotVal
  | [], s, p => (s, p, [])
  | v :: l, s, p =>
    let r := s.settleSlot c t p v
    let q := State.settleSlots c t l r.1 r.2.1
    (q.1, q.2.1, r.2.2 :: q.2.2)

/-! ## Hops -/

def CruPlot.level (p : CruPlot) : List SlotVal := p.levels.getLastD []
def CruPlot.fan (p : CruPlot) : Nat := p.fans.getD (p.hop - 1) 0

/-- The acts and requests of a hop: indices of real parents, grouped where one act or request serves them all. -/
structure HopWork where
  acts : List CruAct
  reqs : List CruReq
  deriving DecidableEq, Repr

def addParent (a : CruAct) (l : List CruAct) : List CruAct :=
  if l.any fun x => x.node == a.node then
    l.map fun x => if x.node = a.node then { x with parents := x.parents ++ a.parents } else x
  else l ++ [a]

def addAsk (merge : Bool) (dst : Nat) (a : CruAsk) (l : List CruReq) : List CruReq :=
  if l.any fun r => r.dst == dst then
    l.map fun r =>
      if r.dst = dst then
        if merge ∧ (r.asks.any fun x => x.node == a.node) then
          { r with asks := r.asks.map fun x => if x.node = a.node then { x with parents := x.parents ++ a.parents } else x }
        else { r with asks := r.asks ++ [a] }
      else r
  else l ++ [⟨dst, [a]⟩]

/-- How many fetches an act issues: its offsets and then its edges (log entry 34). -/
def actFetches (mode d f : Nat) : Nat :=
  if mode = modeUniform ∨ mode = modeFull then
    (if 4096 < d ∧ f < d ∧ mode = modeUniform then 1 + 8 * f else 1 + (8 * d + 4095) / 4096)
  else if d = 0 then 1 else 1 + f

/-- The counter of the block with which an act of the plot begins (R60), as the snapshot window shows it. -/
def CruPlot.actCounter (p : CruPlot) (a : CruAct) : Nat :=
  let walk := p.desc.mode == modeWalk
  (actStream [] p.desc.step p.epoch p.desc.sampler walk (if walk then a.walker else a.node) p.hop).counter 0

def State.hopWork (s : State) (c : ClusterId) (t : Stand) (p : CruPlot) : HopWork :=
  let walk := p.desc.mode == modeWalk
  let me := s.coord c.tile
  ((upFrom 0 p.level.length).zip p.level).foldl (fun w x =>
    if !x.2.real then w
    else
      match (s.cruiser c).map.resolve x.2.node with
      | .bad _ => w
      | .node owner row _ =>
        let walker := if walk then p.desc.walkerBase + x.1 else 0
        if owner = me then
          let n := actFetches p.desc.mode (s.rowInfo t row).degree p.fan
          let a : CruAct := ⟨none, [x.1], x.2.node, row, walker, n⟩
          { w with acts := if p.desc.dedup && !walk then addParent a w.acts else w.acts ++ [a] }
        else { w with reqs := addAsk (!walk) owner ⟨x.2.node, walker, [x.1]⟩ w.reqs }) ⟨[], []⟩

/-- The header of a cruise batch (R71). -/
def cruHeader (kind sampler mode slot step epoch count hop fan : Nat) (weighted : Bool) : List Byte :=
  leBytes 1 kind ++ leBytes 1 sampler ++ leBytes 1 mode ++ leBytes 1 slot ++ leBytes 4 step ++ leBytes 4 epoch ++
    leBytes 4 count ++ leBytes 1 hop ++ leBytes 1 fan ++ leBytes 1 (b2n weighted) ++ List.replicate 13 0

def State.postRequest (s : State) (c : ClusterId) (p : CruPlot) (r : CruReq) : State :=
  let d := p.desc
  let body := cruHeader 1 d.sampler d.mode d.standSlot d.step p.epoch r.asks.length p.hop p.fan
      (d.walkWeighted && d.mode == modeWalk) ++
    r.asks.flatMap fun a => leBytes 8 a.node ++ leBytes 8 a.walker
  s.post c ⟨0, r.dst, clusterIdx c, s.field (.cru c) CRU_JOB 0 12, d.step, p.hop, body⟩

/-- Issue waiting acts to free fetch slots, own and served work in alternate turns (R72). -/
def State.issueFetches (c : ClusterId) : Nat → State → State
  | 0, s => s
  | n + 1, s =>
    let u := s.cruiser c
    if 256 ≤ u.running.length then s
    else
      let ownFirst := u.ownTurn && !u.own.isEmpty || u.served.isEmpty
      match if ownFirst then u.own else u.served with
      | [] => s
      | a :: t =>
        let u := if ownFirst then { u with own := t } else { u with served := t }
        let s := s.setCruiser c { u with running := u.running ++ [a], ownTurn := !ownFirst }
        State.issueFetches c n (s.bump (.cru c) CRU_CNT_FETCHES)

def State.fetchMore (s : State) (c : ClusterId) : State := State.issueFetches c 256 s

/-! ## The finished plot (R54 to R57) -/

def slotBytes (v : SlotVal) : List Byte :=
  leBytes 8 (v.node + v.attr * 2 ^ 40) ++ leBytes 8 (v.edge + v.owner * 2 ^ 48 + b2n v.real * 2 ^ 63)

/-- The mask bitmap. -/
def maskBytes (l : List SlotVal) : List Byte :=
  (upFrom 0 ((l.length + 7) / 8)).map fun i =>
    BitVec.ofNat 8 (((l.drop (8 * i)).take 8).foldr (fun v a => b2n v.real + 2 * a) 0)

/-- The distinct IDs of a level in order of first appearance. -/
def levelUnique (l : List SlotVal) : List Nat := ((l.filter (·.real)).map (·.node)).eraseDups

def pad64 (l : List Byte) : List Byte := padTo (up64 l.length) l

/-- One level of the frontier section (R57). -/
def frontierLevel (l : List SlotVal) : List Byte :=
  let u := levelUnique l
  pad64 (leBytes 4 u.length) ++ pad64 (u.flatMap (leBytes 8)) ++
    pad64 (l.flatMap fun v => leBytes 4 (if v.real then u.findIdx (· == v.node) else 0xFFFFFFFF))

/-- Write the plot and signal (R53). -/
def State.finishPlot (s : State) (c : ClusterId) (p : CruPlot) (cap : Nat) : State :=
  let b := Blk.cru c
  let d := p.desc
  let slots := p.levels.flatten
  let nulls := (slots.filter fun v => !v.real).length
  let arr := slots.flatMap slotBytes
  let maskOff := up64 (64 + arr.length)
  let mask := pad64 (maskBytes slots)
  let frontOff := maskOff + mask.length
  let front := if d.dedup then p.levels.flatMap frontierLevel else []
  let hops := if d.mode = modeFull then 1 else if d.mode = modeWalk then d.walkSteps else d.hops
  let fan := if d.mode = modeFull then cap else d.fanout
  let total := if d.dedup then frontOff + front.length else maskOff + (slots.length + 7) / 8
  let hdr := plotHeader d 0 p.epoch fan hops slots.length nulls p.sentinel p.beyond p.deleted p.badWeights maskOff
    (if d.dedup then frontOff else 0) total
  let s := s.unitWrite c (d.plot + 64) arr
  let s := s.unitWrite c (d.plot + maskOff) (maskBytes slots)
  let s := if d.dedup then s.unitWrite c (d.plot + frontOff) front else s
  let s := s.unitWrite c d.plot hdr
  let s := ((s.bump b CRU_CNT_SLOTS slots.length).bump b CRU_CNT_NULL nulls).bump b CRU_CNT_DESC_DONE
  (s.setCruiser c { s.cruiser c with plot := none }).cruDone c d.done

/-- The slots of the hop in progress: each parent's block, null blocks where there is none. -/
def CruPlot.children (p : CruPlot) : List SlotVal :=
  (upFrom 0 p.level.length).flatMap fun i => sget (fun _ => List.replicate p.fan SlotVal.null) p.blocks i

/-- Is any act or request of the plot outstanding? -/
def State.cruPending (s : State) (c : ClusterId) (p : CruPlot) : Bool :=
  let u := s.cruiser c
  !p.reqs.isEmpty || !u.own.isEmpty || u.running.any fun a => a.serve.isNone

/-- Close every hop that has nothing outstanding and begin the next, until the plot is whole. -/
def State.advancePlot (c : ClusterId) : Nat → State → State
  | 0, s => s
  | n + 1, s =>
    match (s.cruiser c).plot with
    | none => s
    | some p =>
      if s.cruPending c p then s
      else
        let t := s.stand p.stand
        if p.fans.length < p.hop then s.finishPlot c p t.cap
        else
          let p := { p with levels := p.levels ++ [p.children], blocks := [], hop := p.hop + 1 }
          if p.fans.length < p.hop then s.finishPlot c p t.cap
          else
            let w := s.hopWork c t p
            let p := { p with reqs := w.reqs }
            let u := s.cruiser c
            let s := s.setCruiser c { u with plot := some p, own := w.acts }
            let s := w.reqs.foldl (fun s r => s.postRequest c p r) s
            State.advancePlot c n (s.fetchMore c)

def plotFuel : Nat := 80

/-! ## Starting a descriptor -/

/-- A segment entry (R41). -/
structure Segment where
  row : Nat
  firstEdge : Nat
  count : Nat
  bad : Bool
  deriving DecidableEq, Repr

def State.segment (s : State) (t : Stand) (i : Nat) : Segment :=
  let a := s.arrRd t.segs (16 * i) 8
  let b := s.arrRd t.segs (16 * i + 8) 8
  let row := bits a 0 40
  let n := bits b 48 13
  { row := row, firstEdge := bits b 0 48, count := n,
    bad := bits b 62 2 != 0 || decide (t.cap < n) || decide (t.rows ≤ row) || decide (t.edges < bits b 0 48 + n) }

/-- What the check of a stand file reads (R23, R34): its header and the bases of its arrays. -/
def Stand.reads (t : Stand) : List (Nat × Nat) :=
  (t.addr, 256) :: ([t.offs, t.edge, t.cumw, t.segs].filter fun r => decide (r.stripes ≤ 24)).map fun r => (r.addr, 8 * r.stripes)

/-- The seeds of a segment plot (R69); a seed whose row is deleted is null (R37). -/
def State.segmentSeeds (c : ClusterId) (t : Stand) : List Nat → State → CruPlot → State × CruPlot × List SlotVal
  | [], s, p => (s, p, [])
  | i :: l, s, p =>
    let b := Blk.cru c
    let s := s.touchLines c (t.segs.lines (16 * i) 16)
    let g := s.segment t i
    let m := (s.cruiser c).map
    let null : SlotVal := { SlotVal.null with edge := i % 2 ^ 48 }
    let r :=
      if g.bad then
        let s := ((s.bump b CRU_CNT_DELETED).bump b CRU_CNT_MALFORMED).setFlag b CRU_STATUS 2
        (s.log b 0x2004 2 (lohi i), p.countInvalid .deleted 1, null)
      else
        match m.idOfRow (s.coord c.tile) g.row m.ranges with
        | none => (s.bump b CRU_CNT_BEYOND, p.countInvalid .beyond 1, null)
        | some id =>
          let x := s.settleSlot c t p ⟨id, 0, 0, 0xFFF, true⟩
          (x.1, x.2.1, { x.2.2 with edge := i % 2 ^ 48 })
    let q := State.segmentSeeds c t l r.1 r.2.1
    (q.1, q.2.1, r.2.2 :: q.2.2)

/-- The IDs of a descriptor's seed list. -/
def State.seedIds (s : State) (d : CruDesc) : List Nat := (upFrom 0 d.seedCount).map fun i => s.rd (d.seeds + 8 * i) 8 % 2 ^ 40

/-- Begin a plot that has passed every check: its seeds, and the work of hop 1. -/
def State.beginPlot (s : State) (c : ClusterId) (d : CruDesc) (epoch : Nat) (t : Stand) : State :=
  let p : CruPlot :=
    { desc := d, epoch := epoch, stand := t.addr, fans := d.fans t.cap, hop := 1, levels := [], blocks := [], reqs := [],
      sentinel := 0, beyond := 0, deleted := 0, badWeights := 0 }
  let s := s.bump (.cru c) CRU_CNT_SEEDS d.seedCount
  let r :=
    if d.mode = modeFull then State.segmentSeeds c t (upFrom d.seeds d.seedCount) s p
    else
      State.settleSlots c t ((s.seedIds d).map fun id => ⟨id, 0, 0xFFFFFFFFFFFF, 0xFFF, true⟩)
        (s.clusterRead c d.seeds (8 * d.seedCount)) p
  let s := r.1
  let p := { r.2.1 with levels := [r.2.2] }
  let w :=
    if d.mode = modeFull then
      ⟨((upFrom 0 r.2.2.length).zip r.2.2).filterMap fun x =>
        if x.2.real then
          let g := s.segment t (d.seeds + x.1)
          some ⟨none, [x.1], x.2.node, g.row, 0, actFetches modeFull g.count 0⟩
        else none, []⟩
    else s.hopWork c t p
  let p := { p with reqs := w.reqs }
  let s := s.setCruiser c { s.cruiser c with plot := some p, own := w.acts }
  let s := w.reqs.foldl (fun s r => s.postRequest c p r) s
  State.advancePlot c plotFuel (s.fetchMore c)

/-- The Cruiser dequeues a descriptor, checks it and begins (R49, R52); the checks of the descriptor come before those of
its stand file (DEDUCED, log entry 88). -/
def State.cruStart (s : State) (c : ClusterId) : State :=
  let u := s.cruiser c
  match u.queue, u.plot with
  | a :: q, none =>
    let b := Blk.cru c
    let s := (s.setCruiser c { u with queue := q }).clusterRead c a 64
    let d := s.cruDesc a
    let epoch := s.field b CRU_EPOCH 0 24
    if d.plot % 64 ≠ 0 ∨ 2 ^ 48 ≤ d.plot ∨ !rangeBacked d.plot 64 then
      ((s.setFlag b CRU_STATUS 1).log b 0x2003 3 (lohi a)).faultCluster c 0x2003 b.base false
    else if s.cruBadDesc c d then s.cruRefuse c d 1 epoch
    else
      let sa := s.standAddr c d.standSlot
      let s := s.readRanges c (s.stand sa).reads
      if s.standRefused sa then s.cruRefuse c d 2 epoch
      else if cruBadStand d (s.stand sa) then s.cruRefuse c d 1 epoch
      else s.beginPlot c d epoch (s.stand sa)
  | _, _ => s

/-- What the Cruiser reads of the descriptor that it dequeues next: the descriptor, its seeds, its stand file's header, and the
segment entries or the seeds' offsets entries. -/
def State.cruReads (s : State) (c : ClusterId) : List (Nat × Nat) :=
  match (s.cruiser c).queue, (s.cruiser c).plot with
  | a :: _, none =>
    let d := s.cruDesc a
    let t := s.stand (s.standAddr c d.standSlot)
    if d.plot % 64 ≠ 0 ∨ 2 ^ 48 ≤ d.plot ∨ !rangeBacked d.plot 64 ∨ s.cruBadDesc c d then [(a, 64)]
    else if s.standRefused t.addr ∨ cruBadStand d t then (a, 64) :: t.reads
    else if d.mode = modeFull then
      (a, 64) :: t.reads ++ (t.segs.lines (16 * d.seeds) (16 * d.seedCount)).map fun x => (x, 64)
    else
      [(a, 64), (d.seeds, 8 * d.seedCount)] ++ t.reads ++
        (s.seedIds d).filterMap fun id => (s.entryRead c t id).map fun x => (x, 8)
  | _, _ => []

/-! ## Sampling acts -/

/-- What an act came to: its slot entries, a deleted row, malformed weights, or an exhausted stream. -/
structure ActOut where
  cause : Nat
  slots : List SlotVal
  exhausted : Bool
  malformed : Bool
  hub : Bool
  deriving DecidableEq, Repr

/-- The slot of edge `i` of a row (R62). -/
def State.edgeSlot (s : State) (t : Stand) (first owner i : Nat) : SlotVal :=
  let e := s.edgeEntry t (first + i)
  ⟨bits e 0 40, bits e 40 24, first + i, owner, true⟩

def cruKey (s : State) (c : ClusterId) : List W32 := (upFrom 0 8).map fun i => BitVec.ofNat 32 (s.reg (.cru c) (CRU_KEY i))

/-- The parameters that fix a sampling act beside its node (R62). -/
structure ActArgs where
  mode : Nat
  weighted : Bool
  step : Nat
  epoch : Nat
  sampler : Nat
  hop : Nat
  fan : Nat
  segments : Nat
  deriving DecidableEq, Repr

def CruPlot.args (p : CruPlot) : ActArgs :=
  ⟨p.desc.mode, p.desc.walkWeighted || p.desc.mode == modeWeighted, p.desc.step, p.epoch, p.desc.sampler, p.hop, p.fan, p.desc.seeds⟩

def CruServe.args (v : CruServe) : ActArgs :=
  ⟨v.mode, v.weighted || v.mode == modeWeighted, v.step, v.epoch, v.sampler, v.hop, v.fanout, 0⟩

/-- The keystream of an act (R59, R60). -/
def State.actKeys (s : State) (c : ClusterId) (g : ActArgs) (a : CruAct) : Keystream :=
  let walk := g.mode == modeWalk
  actStream (cruKey s c) g.step g.epoch g.sampler walk (if walk then a.walker else a.node) g.hop

/-- The index of this module in the map, by the node it owns. -/
def State.ownerIdx (s : State) (c : ClusterId) (node : Nat) : Nat :=
  match (s.cruiser c).map.resolve node with
  | .node _ _ i => i
  | .bad _ => 0xFFF

/-- One sampling act (R62) on a local row. -/
def State.sampleAct (s : State) (c : ClusterId) (t : Stand) (g : ActArgs) (a : CruAct) : ActOut :=
  let r := s.rowInfo t a.row
  let nulls := List.replicate g.fan SlotVal.null
  if r.deleted then ⟨1, nulls, false, r.malformed, false⟩
  else
    let hub := isHub g.mode r.degree g.fan
    match selectAct g.mode g.weighted (fun i => s.cumWeight t (r.first + i)) r.degree g.fan (s.actKeys c g a) with
    | .badWeights => ⟨2, nulls, false, false, hub⟩
    | .exhausted => ⟨0, nulls, true, false, hub⟩
    | .ok l =>
      let l := (l ++ nullPicks g.fan).take g.fan
      ⟨0, l.map fun o => match o with
        | some i => s.edgeSlot t r.first (s.ownerIdx c a.node) i
        | none => SlotVal.null, false, false, hub⟩

/-- The edges of a segment, in order (R69). -/
def State.segmentAct (s : State) (c : ClusterId) (t : Stand) (g : ActArgs) (a : CruAct) : List SlotVal :=
  let x := s.segment t (g.segments + a.parents.headD 0)
  (((upFrom 0 x.count).map fun i => s.edgeSlot t x.firstEdge (s.ownerIdx c a.node) i) ++
    List.replicate t.cap SlotVal.null).take t.cap

/-- What an act comes to. -/
def State.actOut (s : State) (c : ClusterId) (t : Stand) (g : ActArgs) (a : CruAct) : ActOut :=
  if g.mode = modeFull then ⟨0, s.segmentAct c t g a, false, false, false⟩ else s.sampleAct c t g a

/-- The lines of a row's edges that an act reads: the whole row or whole blocks of a hub (R63, R64), else those that hold the chosen
edges (R65, R66, R69). -/
def RowInfo.edgeLines (r : RowInfo) (t : Stand) (g : ActArgs) (l : List SlotVal) : List Nat :=
  let chosen := (l.filter (·.real)).map (·.edge)
  let lines (i n : Nat) := t.edge.lines (i * 8) (n * 8)
  if isHub g.mode r.degree g.fan then
    (chosen.map fun e => (e - r.first) / 4096).eraseDups.flatMap fun b =>
      lines (r.first + 4096 * b) (min 4096 (r.degree - 4096 * b))
  else if g.mode = modeUniform then lines r.first r.degree
  else (chosen.flatMap fun e => lines e 1).eraseDups

/-- The lines that an act reads: the offsets, the cumulative weights it probes (R66), and the edges. -/
def State.actLines (s : State) (c : ClusterId) (t : Stand) (g : ActArgs) (a : CruAct) (l : List SlotVal) : List Nat :=
  let r := s.rowInfo t a.row
  if g.mode = modeFull then r.edgeLines t g l
  else
    let probes := if r.deleted then []
      else actProbes g.mode g.weighted (fun i => s.cumWeight t (r.first + i)) r.degree g.fan (s.actKeys c g a)
    (if t.rows ≤ a.row then [] else t.offs.lines (a.row * 8) 16) ++
      (probes.flatMap fun i => t.cumw.lines ((r.first + i) * 4) 4).eraseDups ++ r.edgeLines t g l

/-- Counters, flags and logs of an act on `node`; a deleted row has no act to count, and only an exhausted stream names
the walker, `id` (R60, R67, R76, R78). -/
def State.countAct (s : State) (c : ClusterId) (o : ActOut) (node id : Nat) : State :=
  let b := Blk.cru c
  let s := if o.cause = 1 then s else s.bump b CRU_CNT_PARENTS
  let s := if o.hub then s.bump b CRU_CNT_HUBS else s
  let s := if o.malformed then ((s.bump b CRU_CNT_MALFORMED).setFlag b CRU_STATUS 2).log b 0x2004 2 (lohi node) else s
  let s := if o.exhausted then s.log b 0x2008 2 (lohi id) else s
  if o.cause = 2 then (s.setFlag b CRU_STATUS 3).log b 0x2005 2 (lohi node) else s

/-- Make the given parents of the plot's last level null (R28, R72). -/
def CruPlot.nullParents (p : CruPlot) (l : List Nat) : CruPlot :=
  let lv := ((upFrom 0 p.level.length).zip p.level).map fun x => if l.contains x.1 then SlotVal.null else x.2
  { p with levels := p.levels.dropLast ++ [lv] }

/-- Apply an act's outcome, or a reply's record, to the parents of the plot that hold the node. -/
def State.applyAct (s : State) (c : ClusterId) (p : CruPlot) (parents : List Nat) (cause : Nat) (slots : List SlotVal) :
    State × CruPlot :=
  let b := Blk.cru c
  let n := parents.length
  if cause = 1 then (s.bump b CRU_CNT_DELETED n, (p.nullParents parents).countInvalid .deleted n)
  else if cause = 2 then (s.bump b CRU_CNT_BADW n, { p with badWeights := p.badWeights + n })
  else
    parents.foldl (fun r i =>
      let q := State.settleSlots c (r.1.stand p.stand) slots r.1 r.2
      (q.1, { q.2.1 with blocks := sset (fun _ => List.replicate p.fan SlotVal.null) q.2.1.blocks i q.2.2 })) (s, p)

/-- An act of the plot in progress is performed. A segment draws nothing and is no sampling act that CRU_CNT_PARENTS counts
(DEDUCED, log entry 34). -/
def State.ownAct (s : State) (c : ClusterId) (a : CruAct) : State :=
  match (s.cruiser c).plot with
  | none => s
  | some p =>
    let t := s.stand p.stand
    let g := p.args
    let o := s.actOut c t g a
    let u := if g.mode = modeFull then s else s.countAct c o a.node (if g.mode = modeWalk then a.walker else a.node)
    let r := (u.touchLines c (s.actLines c t g a o.slots)).applyAct c p a.parents o.cause o.slots
    r.1.setCruiser c { r.1.cruiser c with plot := some r.2 }

/-! ## Served batches (R71, R72) -/

def recordBytes (r : CruRecord) : List Byte :=
  leBytes 8 (r.node + r.cause * 2 ^ 40) ++ leBytes 8 0 ++ r.slots.flatMap slotBytes

/-- Post the replies of served batches that are whole. -/
def State.sendReplies (s : State) (c : ClusterId) : State :=
  let ready := (s.cruiser c).serves.filter fun v => v.records.all Option.isSome
  ready.foldl (fun s v =>
    let body := cruHeader 2 v.sampler v.mode v.standSlot v.step v.epoch v.records.length v.hop v.fanout v.weighted ++
      (v.records.filterMap id).flatMap recordBytes
    let u := s.cruiser c
    let s := s.setCruiser c { u with serves := u.serves.filter fun x => x.id != v.id }
    s.post c ⟨0, v.src, clusterIdx c, v.job, v.step, v.hop, body⟩) s

/-- A served act is performed. -/
def State.servedAct (s : State) (c : ClusterId) (id : Nat) (a : CruAct) : State :=
  match (s.cruiser c).serves.find? fun v => v.id == id with
  | none => s
  | some v =>
    let t := s.stand (s.standAddr c v.standSlot)
    let g := v.args
    let o := s.actOut c t g a
    let s := (s.countAct c o a.node (if g.mode = modeWalk then a.walker else a.node)).touchLines c (s.actLines c t g a o.slots)
    let s := if o.cause = 1 then s.bump (.cru c) CRU_CNT_DELETED else s
    let s := if o.cause = 2 then s.bump (.cru c) CRU_CNT_BADW else s
    let i := a.parents.headD 0
    let v := { v with records := v.records.set i (some ⟨a.node, o.cause, o.slots⟩) }
    let u := s.cruiser c
    (s.setCruiser c { u with serves := u.serves.map fun x => if x.id = id then v else x }).sendReplies c

/-- The stand and the parameters of an act. -/
def State.actFor (s : State) (c : ClusterId) (a : CruAct) : Option (Stand × ActArgs) :=
  let u := s.cruiser c
  match a.serve with
  | none => u.plot.map fun p => (s.stand p.stand, p.args)
  | some id => (u.serves.find? fun v => v.id == id).map fun v => (s.stand (s.standAddr c v.standSlot), v.args)

/-- What an act reads; one of the plot then reads the offsets entries of its children. -/
def State.actReads (s : State) (c : ClusterId) (a : CruAct) : List (Nat × Nat) :=
  match s.actFor c a with
  | none => []
  | some (t, g) =>
    let l := (s.actOut c t g a).slots
    (s.actLines c t g a l).map (fun x => (x, 64)) ++ if a.serve.isNone then s.entryReads c t l else []

/-- One adjacency fetch is done (R75): more of the act's fetches follow, or the act is performed. -/
def State.fetchDone (s : State) (c : ClusterId) (i : Nat) (a : CruAct) : State :=
  let u := s.cruiser c
  if 1 < a.left then
    (s.setCruiser c { u with running := u.running.set i { a with left := a.left - 1 } }).bump (.cru c) CRU_CNT_FETCHES
  else
    let s := s.setCruiser c { u with running := u.running.eraseIdx i }
    let s := match a.serve with
      | none => s.ownAct c a
      | some id => s.servedAct c id a
    State.advancePlot c plotFuel (s.fetchMore c)

/-! ## Receiving batches (R72, R73) -/

/-- A batch is discarded: counted, flagged and logged; a malformed one raises a job fault. -/
def State.cruDiscard (s : State) (c : ClusterId) (node : Nat) (malformed : Bool) : State :=
  let b := Blk.cru c
  let s := (s.bump b CRU_CNT_BATCH_DISCARD).setFlag b CRU_STATUS 4
  let s := s.log b 0x2006 (if malformed then 3 else 2) [node % 2 ^ 32, node / 2 ^ 32, b2n malformed]
  if malformed then s.faultCluster c 0x2006 b.base false else s

/-- The header fields of a batch. -/
structure CruBatch where
  kind : Nat
  sampler : Nat
  mode : Nat
  slot : Nat
  step : Nat
  epoch : Nat
  count : Nat
  hop : Nat
  fan : Nat
  flags : Nat
  reservedBad : Bool
  deriving DecidableEq, Repr

/-- The header of a batch; a STAND_SLOT above 7 names no slot and counts as a reserved value (DEDUCED, log entry 88). -/
def cruBatch (l : List Byte) : CruBatch :=
  let f o n := fieldAt l o n
  { kind := f 0 1, sampler := f 1 1, mode := f 2 1, slot := f 3 1, step := f 4 4, epoch := f 8 4, count := f 0xC 4,
    hop := f 0x10 1, fan := f 0x11 1, flags := f 0x12 1,
    reservedBad := decide (2 ^ 24 ≤ f 8 4) || decide (1 < f 0x12 1) || !allZero (slice l 0x13 13) || decide (7 < f 3 1) }

/-- HOP and FANOUT within the range of MODE (R73). -/
def hopFanOk (mode hop fan flags : Nat) : Bool :=
  if mode < 3 then decide (1 ≤ hop) && decide (hop ≤ 4) && decide (1 ≤ fan) && decide (fan ≤ 64) && flags == 0
  else mode == modeWalk && decide (1 ≤ hop) && decide (hop ≤ 64) && fan == 1

def requestMalformed (l : List Byte) : Bool :=
  let h := cruBatch l
  let f o := fieldAt l o 8
  h.kind != 1 || h.reservedBad || h.count == 0 || decide (65536 < h.count) || l.length != 32 + 16 * h.count ||
    !hopFanOk h.mode h.hop h.fan h.flags ||
    (upFrom 0 h.count).any fun i =>
      decide (2 ^ 40 ≤ f (32 + 16 * i)) || decide (2 ^ 40 ≤ f (40 + 16 * i)) ||
        (h.mode != modeWalk && f (40 + 16 * i) != 0)

/-- What the check of a request batch's stand file reads. -/
def State.serveReads (s : State) (c : ClusterId) (m : InMsg) : List (Nat × Nat) :=
  let slot := (cruBatch m.body).slot
  if s.flag (.cru c) (CRU_STAND_LO slot) 0 then (s.stand (s.standAddr c slot)).reads else []

/-- Serve a well-formed request batch (R72). -/
def State.serveBatch (s : State) (c : ClusterId) (m : InMsg) : State :=
  let b := Blk.cru c
  let h := cruBatch m.body
  let sa := s.standAddr c h.slot
  let weighted := h.mode == modeWeighted || bit h.flags 0
  let s := s.readRanges c (s.serveReads c m)
  let no := !s.flag b (CRU_STAND_LO h.slot) 0 || s.standRefused sa || (weighted && !(s.stand sa).weighted)
  let t := s.stand sa
  let me := s.coord c.tile
  let u := s.cruiser c
  let asks := (upFrom 0 h.count).map fun i => (i, fieldAt m.body (32 + 16 * i) 8, fieldAt m.body (40 + 16 * i) 8)
  let row (node : Nat) : Option Nat :=
    if no then none
    else
      match u.map.resolve node with
      | .node o r _ => if o = me then some r else none
      | .bad _ => none
  let refused := asks.filter fun a => (row a.2.1).isNone
  let s := s.bump b CRU_CNT_REQ_SERVED h.count
  let s := s.bump b CRU_CNT_DELETED refused.length
  let s := match refused with
    | [] => s
    | a :: _ => s.log b 0x2009 2 [h.slot, a.2.1 % 2 ^ 32, a.2.1 / 2 ^ 32]
  let u := s.cruiser c
  let id := u.nextId
  let records := asks.map fun a =>
    match row a.2.1 with
    | some _ => none
    | none => some ⟨a.2.1, 1, List.replicate h.fan SlotVal.null⟩
  let acts := asks.filterMap fun a =>
    (row a.2.1).map fun r => ⟨some id, [a.1], a.2.1, r, a.2.2, actFetches h.mode (s.rowInfo t r).degree h.fan⟩
  let v : CruServe :=
    { id := id, src := m.src, job := m.job, mode := h.mode, standSlot := h.slot, step := h.step, epoch := h.epoch,
      sampler := h.sampler, hop := h.hop, fanout := h.fan, weighted := bit h.flags 0, records := records }
  let s := s.setCruiser c { u with serves := u.serves ++ [v], served := u.served ++ acts, nextId := id + 1 }
  (s.fetchMore c).sendReplies c

/-- A batch that is no reply arrives (R72, R73): a reserved KIND is malformed whether or not the unit is enabled. Otherwise a batch of
another job, or one that comes while ENABLE is 0, is discarded whatever its form; its log entry names the NODE_ID of its first
entry, five bytes at body offset 32 (DEDUCED, log entry 88). -/
def State.cruBatchReceive (s : State) (c : ClusterId) (e : Ecc) : State :=
  match s.takeMsg c fun m => m.dunit == 0 && fieldAt m.body 0 1 != 2 with
  | none => s
  | some (m, s) =>
    let b := Blk.cru c
    let node := fieldAt m.body 32 5
    if m.job ≠ s.field b CRU_JOB 0 12 then s.cruDiscard c node false
    else if fieldAt m.body 0 1 ≠ 1 then s.cruDiscard c node true
    else if !s.enabled b then s.cruDiscard c node false
    else if requestMalformed m.body then s.cruDiscard c node true
    else
      let r := s.unitRead b c (s.serveReads c m) e
      if r.2 then r.1 else r.1.serveBatch c m

/-- A slot entry of a reply (R56). -/
def slotOfWords (a b : Nat) : SlotVal := ⟨bits a 0 40, bits a 40 24, bits b 0 48, bits b 48 12, bit b 63⟩

def replyRecord (l : List Byte) (fan i : Nat) : CruRecord :=
  let o := 32 + i * (16 + 16 * fan)
  { node := bits (fieldAt l o 8) 0 40, cause := bits (fieldAt l o 8) 40 2,
    slots := (upFrom 0 fan).map fun j => slotOfWords (fieldAt l (o + 16 + 16 * j) 8) (fieldAt l (o + 24 + 16 * j) 8) }

/-- The outstanding request that a reply answers. -/
def State.replyMatch (s : State) (c : ClusterId) (m : InMsg) : Option (CruPlot × CruReq) :=
  let h := cruBatch m.body
  match (s.cruiser c).plot with
  | none => none
  | some p =>
    let d := p.desc
    if h.sampler = d.sampler ∧ h.mode = d.mode ∧ h.slot = d.standSlot ∧ h.step = d.step ∧ h.epoch = p.epoch ∧ h.hop = p.hop ∧
        h.fan = p.fan ∧ bit h.flags 0 = (d.walkWeighted && d.mode == modeWalk) then
      (p.reqs.find? fun r => r.dst == m.src).map fun r => (p, r)
    else none

def replyMalformed (l : List Byte) (r : CruReq) : Bool :=
  let h := cruBatch l
  let rec16 := 16 + 16 * h.fan
  h.reservedBad || h.count != r.asks.length || l.length != 32 + h.count * rec16 ||
    ((upFrom 0 h.count).zip r.asks).any fun x =>
      let v := replyRecord l h.fan x.1
      let o := 32 + x.1 * rec16
      v.node != x.2.node || v.cause == 3 || bits (fieldAt l o 8) 42 22 != 0 || fieldAt l (o + 8) 8 != 0 ||
        (upFrom 0 h.fan).any fun j => bits (fieldAt l (o + 24 + 16 * j) 8) 60 3 != 0

/-- The records of a well-formed reply are copied into the parents that wait (R72). -/
def State.takeReply (s : State) (c : ClusterId) (m : InMsg) (p : CruPlot) (r : CruReq) : State :=
  let p := { p with reqs := dropFirst (fun x => x == r) p.reqs }
  let q := ((upFrom 0 r.asks.length).zip r.asks).foldl (fun q x =>
    let v := replyRecord m.body p.fan x.1
    q.1.applyAct c q.2 x.2.parents v.cause v.slots) (s, p)
  State.advancePlot c plotFuel (q.1.setCruiser c { q.1.cruiser c with plot := some q.2 })

/-- What the resolution of a reply's entries reads. -/
def State.replyReads (s : State) (c : ClusterId) (m : InMsg) (p : CruPlot) (r : CruReq) : List (Nat × Nat) :=
  (upFrom 0 r.asks.length).flatMap fun i =>
    let v := replyRecord m.body p.fan i
    if v.cause = 0 then s.entryReads c (s.stand p.stand) v.slots else []

/-- A reply arrives (R72, R73). -/
def State.cruReplyReceive (s : State) (c : ClusterId) (e : Ecc) : State :=
  match s.takeMsg c fun m => m.dunit == 0 && fieldAt m.body 0 1 == 2 with
  | none => s
  | some (m, s) =>
    let b := Blk.cru c
    let node := fieldAt m.body 32 5
    if m.job ≠ s.field b CRU_JOB 0 12 then s.cruDiscard c node false
    else
      match s.replyMatch c m with
      | none => s.cruDiscard c node true
      | some (p, r) =>
        if replyMalformed m.body r then s.cruDiscard c node true
        else
          let x := s.unitRead b c (s.replyReads c m p r) e
          if x.2 then x.1 else x.1.takeReply c m p r

/-! ## Commands -/

/-- CRU_QUEUE_HI_WRITE (R49). -/
def execCruQueueHiWrite (c : ClusterId) (v : W32) (s : State) : Host.Outcome State Fault Refusal :=
  .next (if s.powered (.cru c) then s.cruQueueHi c v.toNat else s)

/-- CRUISE_DESCRIPTOR_START (R52). -/
def execCruiseDescriptorStart (c : Checked ClusterId) (s : State) : Host.Outcome State Fault Refusal :=
  let r := s.unitRead (.cru c.val) c.val (s.cruReads c.val) c.ecc
  .next (if r.2 then r.1 else r.1.cruStart c.val)

/-- ADJACENCY_FETCH_DONE (R75); a fetch that receives an error delivers nothing, and its slot stays in use (R444, log entry 103). -/
def execAdjacencyFetchDone (c : ClusterId) (slot : Fin 256) (found : Ecc) (s : State) :
    Host.Outcome State Fault Refusal :=
  .next (match (s.cruiser c).running[slot.val]? with
    | none => s
    | some a =>
      let r := s.unitRead (.cru c) c (s.actReads c a) found
      if r.2 then r.1 else r.1.fetchDone c slot.val a)

/-- CRUISE_BATCH_RECEIVE (R72). -/
def execCruiseBatchReceive (c : Checked ClusterId) (s : State) : Host.Outcome State Fault Refusal :=
  .next (s.cruBatchReceive c.val c.ecc)

/-- CRUISE_REPLY_RECEIVE (R72). -/
def execCruiseReplyReceive (c : Checked ClusterId) (s : State) : Host.Outcome State Fault Refusal :=
  .next (s.cruReplyReceive c.val c.ecc)

end Sys2Proof.Machine
end

