-- ==== Sys2Proof/Machine/Table.lean ====
section
/-! DEFINITION. Embedding and feature tables: descriptors (R124 to R126), the resolution of an index (R127), pointers and
rows (R128 to R130), and pooled elements (R141, R142). -/
namespace Sys2Proof.Machine

def Table.rowBytes (t : Table) : Nat := t.rowUnits * 64

/-- Bytes of an element of a table format; 0 for OPAQUE and the reserved code (R125). -/
def elemSize (fmt : Nat) : Nat := [4, 2, 2, 1, 1, 1].getD fmt 0

/-- FP8 and INT8 elements carry SCALE_EXP. -/
def elemScaled (fmt : Nat) : Bool := decide (3 ≤ fmt) && decide (fmt ≤ 5)

def State.table (s : State) (a : Nat) : Table :=
  let f o n := s.rd (a + o) n
  { rowUnits := f 6 2, shard := bits (f 8 4) 0 2, fmt := bits (f 8 4) 2 3, elements := f 0xC 2, scaleExp := sgn (f 0xE 1) 8,
    rows := f 0x10 8, globalRows := f 0x18 8, pointers := s.arrRef (f 0x20 8), slots := s.arrRef (f 0x28 8),
    slotCount := f 0x30 4, default_ := f 0x38 8 }

/-- A table descriptor is refused (R126). -/
def State.tableRefused (s : State) (a : Nat) : Bool :=
  let f o n := s.rd (a + o) n
  let t := s.table a
  f 0 4 != 0x4C424154 || f 4 1 != 1 || f 0x7C 4 != crc32c (s.readBytes a 0x7C) || bits (f 8 4) 5 27 != 0 || f 0xF 1 != 0 ||
    f 0x34 4 != 0 || !allZero (s.readBytes (a + 0x40) 60) || t.shard == 3 || t.fmt == 7 || t.rowUnits == 0 ||
    decide (256 < t.rowUnits) ||
    (if t.fmt = 6 then t.elements != 0
     else t.elements == 0 || decide (4096 < t.elements) || decide (t.rowBytes < t.elements * elemSize t.fmt)) ||
    (if elemScaled t.fmt then decide (t.scaleExp < -64) || decide (63 < t.scaleExp) else t.scaleExp != 0) ||
    t.slotCount == 0 || t.slotCount == 0xFFFFFFFF || decide (2 ^ 32 ≤ t.rows) || t.pointers.invalid (8 * t.rows) ||
    t.slots.invalid (t.slotCount * t.rowBytes) || t.default_ % 64 != 0 || decide (2 ^ 48 ≤ t.default_) ||
    dramTier t.default_ t.rowBytes == 0 || (t.shard == 0 && t.globalRows != t.rows)

/-- What an index of a LIST haul resolves to by the table's sharding rule: this module, or a module of the map (R127). -/
inductive Listed where
  | bad (why : Invalid)
  | here (row : Nat)
  | at_ (owner ownerIdx row : Nat)
  deriving DecidableEq, Repr

def Table.resolveList (t : Table) (m : OwnerMap) (i : Nat) : Listed :=
  if bit i 39 then .bad .sentinel
  else if t.shard = 2 then
    match m.resolve i with
    | .bad w => .bad w
    | .node o r k => .at_ o k r
  else if t.globalRows ≤ i then .bad .beyond
  else if t.shard = 0 then .here i
  else
    let n := m.modules.length
    .at_ (m.modules.getD (i % n) 0) (i % n) (i / n)

/-- The slot that a row's pointer entry names; none for a deleted row (R127, R128). -/
def State.pointer (s : State) (t : Table) (row : Nat) : Option Nat :=
  if t.rows ≤ row then none
  else
    let slot := s.arrRd t.pointers (8 * row) 8 / 2 ^ 32
    if slot = 0xFFFFFFFF ∨ t.slotCount ≤ slot then none else some slot

/-- The VERSION of a row's pointer entry, of a deleted row too (R128, R129); 0 for a row that has no entry (log entry 89). -/
def State.pointerVersion (s : State) (t : Table) (row : Nat) : Nat :=
  if t.rows ≤ row then 0 else s.arrRd t.pointers (8 * row) 8 % 2 ^ 32

/-- The addresses of the 64-byte units of a slot. -/
def Table.unitAddrs (t : Table) (slot : Nat) : List Nat :=
  (upFrom 0 t.rowUnits).map fun u => t.slots.at_ (slot * t.rowBytes + 64 * u)

/-- The bytes of a slot (R129). -/
def State.slotBytes (s : State) (t : Table) (slot : Nat) : List Byte := (t.unitAddrs slot).flatMap fun a => s.readBytes a 64

/-- The 256-byte chunks that a slot touches (R90). -/
def Table.chunks (t : Table) (slot : Nat) : List Nat := ((t.unitAddrs slot).map fun a => a / 256 * 256).eraseDups

/-- The default row (R130). -/
def State.defaultRow (s : State) (t : Table) : List Byte := s.readBytes t.default_ t.rowBytes

/-- The first and second keys by which page accesses are sorted: bank, then page within it (R89, R90). -/
def pageKey (a : Nat) : Nat :=
  let page := if inHbm a then a % 0x900000000 / 2 ^ 19 / 3 else a % 0x1000000000 / 2 ^ 17
  ((bankOf a).getD (2 ^ 26) * 2 ^ 20 + page) * 2 ^ 48 + a

def insertPage (a : Nat) : List Nat → List Nat
  | [] => [a]
  | b :: t => if pageKey a ≤ pageKey b then a :: b :: t else b :: insertPage a t

/-! ## Elements (R142) -/

/-- Element `i` of row bytes as the exact FP32 value that pooling uses. -/
def Table.element (t : Table) (row : List Byte) (i : Nat) : XVal :=
  let n := elemSize t.fmt
  let v := fieldAt row (i * n) n
  let x :=
    match t.fmt with
    | 0 => fp32.decode v
    | 1 => bf16.decode v
    | 2 => fp16.decode v
    | 3 => decodeE4M3 v
    | 4 => e5m2.decode v
    | _ => intVal (sgn v 8)
  if elemScaled t.fmt then x.scale2 t.scaleExp else x

/-- One pooling step: fused multiply-add with one rounding. -/
def poolAdd (w : Nat) (x : XVal) (acc : Nat) : Nat := fp32.encode (((fp32.decode w).mul x).add (fp32.decode acc))

end Sys2Proof.Machine
end

