-- ==== Sys2Proof/Machine/Trail.lean ====
section
/-! DEFINITION. Trails of the Sillage unit: records (R103), the ring (R104), and loss (R106). -/
namespace Sys2Proof.Machine

def State.sillage (s : State) (c : ClusterId) : Sillage := sget (fun _ => Sillage.reset) s.sillages (clusterIdx c)
def State.setSillage (s : State) (c : ClusterId) (v : Sillage) : State :=
  { s with sillages := sset (fun _ => Sillage.reset) s.sillages (clusterIdx c) v }

/-- Sizes of the ring's scratch part and of the whole ring, in bytes. -/
def State.ringScratch (s : State) (c : ClusterId) : Nat := s.field (.sil c) SIL_SCR 13 9 * 1024
def State.ringSize (s : State) (c : ClusterId) : Nat := s.ringScratch c + s.field (.sil c) SIL_SPILL_CFG 0 16 * 2 ^ 20

/-- The module data address of byte `o` of the ring. -/
def State.ringAddr (s : State) (c : ClusterId) (o : Nat) : Nat :=
  let b := Blk.sil c
  if o < s.ringScratch c then
    scratchBase (c.coreAt (Fin.ofNat 16 (s.field b SIL_SCR 0 4))) + s.field b SIL_SCR 4 9 * 1024 + o
  else queueAddr (s.reg b SIL_SPILL_LO) (s.reg b SIL_SPILL_HI) + (o - s.ringScratch c)

/-- The bytes a trail takes (R103). -/
def Trail.bytes (t : Trail) : Nat := up64 (8 * t.count)

def Trail.waiting (t : Trail) : Bool := t.run.isNone

/-- Where a run of `n` bytes fits: at the head, or from offset 0 when the tail of the ring is too short (R104). -/
def Sillage.fit (v : Sillage) (size n : Nat) : Option Nat :=
  match v.ring with
  | [] => if size < n then none else if size < v.head + n then some 0 else some v.head
  | r :: _ =>
    if r.start < v.head then
      (if v.head + n ≤ size then some v.head else if n ≤ r.start then some 0 else none)
    else if v.head + n ≤ r.start then some v.head else none

/-- Give a waiting trail its run if the ring has room. -/
def State.allocTrail (s : State) (c : ClusterId) (t : Trail) : State :=
  let v := s.sillage c
  match v.fit (s.ringSize c) t.bytes with
  | none => s
  | some p =>
    let v := { v with trails := v.trails.map fun x => if x.id = t.id then { x with run := some p } else x,
                      ring := v.ring ++ [⟨t.id, p, t.bytes, false⟩], head := p + t.bytes }
    (s.setSillage c v).bump (.sil c) SIL_CNT_TRAILS

/-- Drop the released runs at the old end of the ring. -/
def dropReleased : List RingRun → List RingRun
  | [] => []
  | r :: t => if r.released then dropReleased t else r :: t

/-- A trail's record and space are released (R103, R104). -/
def State.releaseTrail (s : State) (c : ClusterId) (id : Nat) : State :=
  let v := s.sillage c
  s.setSillage c { v with trails := v.trails.filter fun x => x.id != id,
                          ring := dropReleased (v.ring.map fun r => if r.trail = id then { r with released := true } else r) }

/-- A trail is lost: counted, flagged and logged with its key (R103). -/
def State.countLost (s : State) (c : ClusterId) (key : Nat) : State :=
  let b := Blk.sil c
  ((s.bump b SIL_CNT_LOST).setFlag b SIL_STATUS 2).log b 0x2207 2 (lohi key)

/-- The Skidder dequeues a descriptor with TRAIL: open a record (R103); the record's number, none if the haul runs
without a trail. -/
def State.openTrail (s : State) (c : ClusterId) (d : SkdDesc) : State × Option Nat :=
  let s :=
    match (s.sillage c).trails.find? fun t => t.key == d.report with
    | some t => (s.releaseTrail c t.id).countLost c t.key
    | none => s
  let v := s.sillage c
  if !s.enabled (.sil c) ∨ 32 ≤ v.trails.length then (s.countLost c d.report, none)
  else
    let t : Trail :=
      { id := v.nextId, key := d.report, step := d.step, ctrl := d.ctrl, first := d.first, count := d.count,
        source := d.source, ext := d.ext, mask := d.mask, run := none, since := s.clock, complete := false, parked := false }
    let s := s.setSillage c { v with trails := v.trails ++ [t], nextId := v.nextId + 1 }
    (s.allocTrail c t, some t.id)

def State.trail? (s : State) (c : ClusterId) (id : Nat) : Option Trail := (s.sillage c).trails.find? fun t => t.id == id

/-- Is a haul's trail waiting for space? -/
def State.trailWaits (s : State) (c : ClusterId) (id : Option Nat) : Bool :=
  match id with
  | none => false
  | some i =>
    match s.trail? c i with
    | some t => t.waiting
    | none => false

/-- The entries of a complete trail. -/
def State.trailEntries (s : State) (c : ClusterId) (t : Trail) : List Nat :=
  (upFrom 0 t.count).map fun i => s.rd (s.ringAddr c (t.run.getD 0 + 8 * i)) 8

/-- Where a trail's entries lie: in the ring's scratch part, and in the spill region (R104). -/
def State.trailReads (s : State) (c : ClusterId) (t : Trail) : List (Nat × Nat) :=
  let o := t.run.getD 0
  let e := o + 8 * t.count
  let n := s.ringScratch c
  (if o < n then [(s.ringAddr c o, min e n - o)] else []) ++ if n < e then [(s.ringAddr c (max o n), e - max o n)] else []

/-- Write entries from ring offset `o` on. -/
def State.writeEntries (c : ClusterId) : List Nat → Nat → State → State
  | [], _, s => s
  | e :: l, o, s => State.writeEntries c l (o + 8) (s.unitWrite c (s.ringAddr c o) (leBytes 8 e))

/-- Lines of a run that lie in the spill region. -/
def State.spillLines (s : State) (c : ClusterId) (o n : Nat) : Nat :=
  let lo := max o (s.ringScratch c)
  if o + n ≤ lo then 0 else (o + n + 63) / 64 - lo / 64

/-- A haul ends with STATUS 0: its trail's entries are written and the trail is complete (R103). -/
def State.completeTrail (s : State) (c : ClusterId) (id : Nat) (entries : List Nat) : State :=
  match s.trail? c id with
  | none => s
  | some t =>
    let b := Blk.sil c
    let o := t.run.getD 0
    let s := State.writeEntries c entries o s
    let s := (s.bump b SIL_CNT_ENTRIES entries.length).bump b SIL_CNT_SPILL (s.spillLines c o (8 * entries.length))
    let v := s.sillage c
    s.setSillage c { v with trails := v.trails.map fun x => if x.id = id then { x with complete := true } else x }

end Sys2Proof.Machine
end

