-- ==== Sys2Proof/Machine/RowCache.lean ====
section
/-! DEFINITION. The remote-row cache of a Skidder (R97, R98, R135): a region of memory of sets of four ways. -/
namespace Sys2Proof.Machine

def State.skidder (s : State) (c : ClusterId) : Skidder := sget (fun _ => Skidder.reset) s.skidders (clusterIdx c)
def State.setSkidder (s : State) (c : ClusterId) (v : Skidder) : State :=
  { s with skidders := sset (fun _ => Skidder.reset) s.skidders (clusterIdx c) v }

def State.rrcOn (s : State) (c : ClusterId) : Bool := s.flag (.skd c) SKD_RRC_LO 0
def State.rrcUnits (s : State) (c : ClusterId) : Nat := s.field (.skd c) SKD_RRC_CFG 16 9
def State.rrcSets (s : State) (c : ClusterId) : Nat :=
  s.field (.skd c) SKD_RRC_CFG 0 16 * 1024 / (64 + 256 * s.rrcUnits c)

/-- The set of a row, and the set's address. -/
def State.rrcSet (s : State) (c : ClusterId) (owner slot row : Nat) : Nat := Config.rowHash owner slot row % s.rrcSets c
def State.rrcSetAddr (s : State) (c : ClusterId) (i : Nat) : Nat :=
  queueAddr (s.reg (.skd c) SKD_RRC_LO) (s.reg (.skd c) SKD_RRC_HI) + i * (64 + 256 * s.rrcUnits c)
def State.rrcData (s : State) (c : ClusterId) (i w : Nat) : Nat := s.rrcSetAddr c i + 64 + w * s.rrcUnits c * 64

/-- Bits [71:0] of a tag of this enable period (R97). -/
def tagKey (owner slot row epoch : Nat) : Nat := row % 2 ^ 40 + owner * 2 ^ 40 + slot * 2 ^ 52 + 2 ^ 55 + epoch % 2 ^ 16 * 2 ^ 56
def State.rrcTag (s : State) (c : ClusterId) (i w : Nat) : Nat := s.rd (s.rrcSetAddr c i + 16 * w) 16

/-- Does the cache take rows of this size? -/
def State.rrcTakes (s : State) (c : ClusterId) (units : Nat) : Bool :=
  s.rrcOn c && decide (units ≤ s.rrcUnits c) && s.rrcSets c != 0

/-- The way that holds a row, and its version. -/
def State.rrcFind (s : State) (c : ClusterId) (units owner slot row : Nat) : Option (Nat × Nat) :=
  if !s.rrcTakes c units then none
  else
    let i := s.rrcSet c owner slot row
    let k := tagKey owner slot row (s.skidder c).epoch
    (upFrom 0 4).findSome? fun w => if bits (s.rrcTag c i w) 0 72 = k then some (w, bits (s.rrcTag c i w) 72 32) else none

/-- The bytes of a cached row. -/
def State.rrcBytes (s : State) (c : ClusterId) (units owner slot row : Nat) : List Byte :=
  match s.rrcFind c units owner slot row with
  | some (w, _) => s.readBytes (s.rrcData c (s.rrcSet c owner slot row) w) (units * 64)
  | none => []

/-- Is the entry of way `w` named in an outstanding request (R98)? -/
def State.rrcPinned (s : State) (c : ClusterId) (i w : Nat) : Bool :=
  let k := bits (s.rrcTag c i w) 0 72
  (s.skidder c).sent.any fun m =>
    m.asks.any fun a => a.have_.isSome && k == tagKey a.ownerIdx a.slot a.row (s.skidder c).epoch

def State.pfDrop (s : State) (c : ClusterId) : State := (s.bump (.skd c) SKD_CNT_PF_DROP).setFlag (.skd c) SKD_STATUS 4

/-- `a` is `b` or later, by serial numbers of 32 bits (R95). -/
def atLeast32 (a b : Nat) : Bool := decide ((a % 2 ^ 32 + (2 ^ 32 - b % 2 ^ 32)) % 2 ^ 32 < 2 ^ 31)

/-- Version `a` is newer than `b` (R135). -/
def newerVersion (a b : Nat) : Bool := later32 a b

/-- Write a tag and a row into a way. -/
def State.rrcWrite (s : State) (c : ClusterId) (i w key version : Nat) (row : List Byte) : State :=
  (s.unitWrite c (s.rrcData c i w) row).unitWrite c (s.rrcSetAddr c i + 16 * w) (leBytes 16 (key + version * 2 ^ 72))

/-- A reply's row fills the cache (R97, R98, R135): a held copy only if it is not newer, else the next way in turn
unless it is pinned. -/
def State.rrcFill (s : State) (c : ClusterId) (units owner slot row version : Nat) (data : List Byte) : State :=
  if !s.rrcTakes c units then s
  else
    let i := s.rrcSet c owner slot row
    let k := tagKey owner slot row (s.skidder c).epoch
    match s.rrcFind c units owner slot row with
    | some (w, old) =>
      if version = old then s.rrcWrite c i w k version data
      else if !newerVersion version old || s.rrcPinned c i w then s.pfDrop c
      else s.rrcWrite c i w k version data
    | none =>
      let u := s.skidder c
      let w := sget (fun _ => 0) u.ways i
      if s.rrcPinned c i w then s.pfDrop c
      else (s.setSkidder c { u with ways := sset (fun _ => 0) u.ways i ((w + 1) % 4) }).rrcWrite c i w k version data

end Sys2Proof.Machine
end

