-- ==== Sys2Proof/Machine/Skidder.lean ====
section
/-! DEFINITION. The Skidder (R79 to R101): descriptors, dedup groups, row reads, hauls, the deck and pooling. -/
namespace Sys2Proof.Machine

/-! ## Descriptors (R79 to R83) -/

def srcNode : Nat := 0
def srcEdge : Nat := 1
def srcList : Nat := 2

/-- A write of SKD_QUEUE_HI (R79). -/
def State.skdQueueHi (s : State) (c : ClusterId) (v : Nat) : State :=
  let b := Blk.skd c
  let u := s.skidder c
  let a := queueAddr (s.reg b SKD_QUEUE_LO) v
  if u.queue.length < 4 ∧ s.enabled b then s.setSkidder c { u with queue := u.queue ++ [a] }
  else (s.setFlag b SKD_STATUS 0).log b 0x2106 2 (lohi a)

def State.skdDesc (s : State) (a : Nat) : SkdDesc :=
  let f o n := s.rd (a + o) n
  { addr := a, ctrl := f 0 4, done := f 4 4, first := f 8 4, count := f 0xC 4, step := f 0x10 4, mask := f 0x14 4,
    source := f 0x18 8, report := f 0x20 8, offset := f 0x28 4, stride := f 0x2C 4, ext := f 0x30 8, rows := f 0x38 4 }

def SkdDesc.src (d : SkdDesc) : Nat := bits d.ctrl 0 2
def SkdDesc.slot (d : SkdDesc) : Nat := bits d.ctrl 2 3
def SkdDesc.prefetch (d : SkdDesc) : Bool := bit d.ctrl 5
def SkdDesc.last (d : SkdDesc) : Bool := bit d.ctrl 6
def SkdDesc.trail (d : SkdDesc) : Bool := bit d.ctrl 7
def SkdDesc.pool (d : SkdDesc) : Nat := bits d.ctrl 8 2
def SkdDesc.edgeMode (d : SkdDesc) : Nat := bits d.ctrl 10 1

/-- The cores of a deck, ascending. -/
def deckCores (mask : Nat) : List Nat := (upFrom 0 16).filter fun i => bit mask i

/-- The core and scratch offset of deck row `g` (R87). -/
def deckPlace (mask offset stride g : Nat) : Nat × Nat :=
  let k := deckCores mask
  (k.getD (g % k.length) 0, offset + g / k.length * stride)

def deckAddr (c : ClusterId) (mask offset stride g : Nat) : Nat :=
  let p := deckPlace mask offset stride g
  scratchBase (c.coreAt (Fin.ofNat 16 p.1)) + p.2

/-- Does an area of `rows` rows lie within every deck core's scratch? -/
def deckFits (mask offset stride rows : Nat) : Bool :=
  let n := (deckCores mask).length
  decide (offset + (rows + n - 1) / n * stride ≤ scratchBytes)

/-- Check 1 of R83. -/
def State.haulBad1 (s : State) (d : SkdDesc) : Bool :=
  d.src == 3 || bits d.ctrl 11 21 != 0 || bits d.done 10 22 != 0 || bits d.mask 16 16 != 0 || bits d.offset 19 13 != 0 ||
    s.rd (d.addr + 0x3C) 4 != 0 || decide (47 < bits d.done 4 6) || d.count == 0 ||
    decide ((if d.src = srcList then 1048576 else 65536) < d.count) || d.mask == 0 || d.rows == 0 || decide (65536 < d.rows) ||
    d.offset % 64 != 0 || d.stride % 64 != 0 || (d.pool != 0 && d.ext == 0) || (d.pool == 0 && d.ext != 0)

def State.tableAddr (s : State) (c : ClusterId) (slot : Nat) : Nat :=
  queueAddr (s.reg (.skd c) (SKD_TABLE_LO slot)) (s.reg (.skd c) (SKD_TABLE_HI slot))
def State.tableValid (s : State) (c : ClusterId) (slot : Nat) : Bool := s.flag (.skd c) (SKD_TABLE_LO slot) 0
def State.tableFrozen (s : State) (c : ClusterId) (slot : Nat) : Bool := s.flag (.skd c) (SKD_TABLE_LO slot) 1

/-- Check 5 of R83. -/
def State.haulBad5 (s : State) (d : SkdDesc) (t : Table) : Bool :=
  let row := if d.pool = 0 then t.rowBytes else 4 * t.elements
  (d.src != srcList && decide (s.rd (d.source + 4) 4 < d.first + d.count)) || decide (d.stride < row) ||
    !deckFits d.mask d.offset d.stride d.rows

def nondecreasing : List Nat → Bool
  | a :: b :: t => decide (a ≤ b) && nondecreasing (b :: t)
  | _ => true

/-- The extension record of a pooled haul (R138); none if it breaks R139. -/
def State.poolRec (s : State) (d : SkdDesc) (t : Table) : Option SkdPool :=
  let f o n := s.rd (d.ext + o) n
  let n := f 0 4
  if f 0x3C 4 ≠ crc32c (s.readBytes d.ext 0x3C) ∨ bits (f 4 4) 1 31 ≠ 0 ∨ bits (f 0x18 4) 19 13 ≠ 0 ∨
      !allZero (s.readBytes (d.ext + 0x24) 24) ∨ n = 0 ∨ 65535 < n ∨ d.rows < n + 1 then none
  else
    let offs := (upFrom 0 (n + 1)).map fun i => s.rd (f 8 8 + 4 * i) 4
    if offs.headD 1 ≠ 0 ∨ offs.getLastD 0 ≠ d.count ∨ !nondecreasing offs ∨ (d.pool = 1) ≠ (f 0x10 8 ≠ 0) ∨
        f 0x1C 4 % 64 ≠ 0 ∨ f 0x1C 4 < t.rowBytes ∨ f 0x20 4 = 0 ∨ 65536 < f 0x20 4 ∨
        !deckFits d.mask (f 0x18 4) (f 0x1C 4) (f 0x20 4) ∨ t.fmt = 6 ∨ d.prefetch then none
    else some ⟨bits (f 4 4) 0 1, f 0x10 8, f 0x18 4, f 0x1C 4, f 0x20 4, offs⟩

/-- The STATUS of a descriptor (R83), 0 if it passes every check, with its table and extension record. -/
def State.haulCheck (s : State) (c : ClusterId) (d : SkdDesc) : Nat × Table × Option SkdPool :=
  let a := s.tableAddr c d.slot
  let t := s.table a
  if s.haulBad1 d then (1, t, none)
  else if !s.tableValid c d.slot then (1, t, none)
  else if s.tableRefused a then (4, t, none)
  else if d.src ≠ srcList ∧ s.rd d.source 1 ≠ 0 then (2, t, none)
  else if s.haulBad5 d t then (1, t, none)
  else if d.pool = 0 then (0, t, none)
  else
    match s.poolRec d t with
    | none => (1, t, none)
    | some p => (0, t, some p)

/-! ## Resolution and numbering (R85, R86) -/

/-- What a source entry names. -/
inductive Entry where
  | null
  | bad (why : Invalid)
  | key (k : Nat) (mine : Bool) (owner ownerIdx row : Nat)
  deriving DecidableEq, Repr

/-- What the key of entry `i` of a haul's source names (R81, R127). -/
def State.entryKey (s : State) (c : ClusterId) (d : SkdDesc) (t : Table) (i : Nat) : Entry :=
  let m := (s.skidder c).map
  let me := s.coord c.tile
  if d.src = srcList then
    let k := s.rd (d.source + 8 * i) 8 % 2 ^ 40
    match t.resolveList m k with
    | .bad w => .bad w
    | .here r => .key k true me 0xFFE r
    | .at_ o j r => .key k (o == me) o j r
  else
    let a := d.source + 64 + 16 * (d.first + i)
    let w0 := s.rd a 8
    let w1 := s.rd (a + 8) 8
    if d.src = srcNode then
      match m.resolve (bits w0 0 40) with
      | .bad w => .bad w
      | .node o r j => .key (bits w0 0 40) (o == me) o j r
    else if d.edgeMode = 0 then .key (bits w0 40 24) true me 0xFFE (bits w0 40 24)
    else
      let j := bits w1 48 12
      if m.modules.length ≤ j then .bad .beyond
      else
        let o := m.modules.getD j 0
        .key (bits w1 0 60) (o == me) o j (bits w1 0 48)

/-- The mask bit of plot slot `i` of a plot source, as word 1 holds it. -/
def State.slotReal (s : State) (d : SkdDesc) (i : Nat) : Bool := bit (s.rd (d.source + 64 + 16 * (d.first + i) + 8) 8) 63

/-- Entry `i` of a haul's source: null slots, seed slots of an edge haul and default attributes name group 0 (R85). A null slot of a
PLOT_NODE haul is null alone and no sentinel, though its NODE_ID is one (DEDUCED, log entry 89). -/
def State.sourceEntry (s : State) (c : ClusterId) (d : SkdDesc) (t : Table) (i : Nat) : Entry :=
  if d.src = srcList then s.entryKey c d t i
  else if !s.slotReal d i then .null
  else if d.src = srcEdge ∧ (d.first + i < s.rd (d.source + 8) 4 ∨
      (d.edgeMode = 0 ∧ bits (s.rd (d.source + 64 + 16 * (d.first + i)) 8) 40 24 = 0xFFFFFF)) then .null
  else s.entryKey c d t i

/-- The numbering of R85 in progress. -/
structure Numbering where
  map : List Nat
  keys : List Nat
  groups : List SkdGroup
  sentinel : Nat
  beyond : Nat
  deriving DecidableEq, Repr

/-- One entry takes its group; none if it would take number `rows`. -/
def Numbering.add (n : Numbering) (rows i : Nat) (e : Entry) : Option Numbering :=
  match e with
  | .null => some { n with map := n.map ++ [0] }
  | .bad .sentinel => some { n with map := n.map ++ [0], sentinel := n.sentinel + 1 }
  | .bad _ => some { n with map := n.map ++ [0], beyond := n.beyond + 1 }
  | .key k mine o j r =>
    match findIdx? (· == k) n.keys 1 with
    | some (g, _) => some { n with map := n.map ++ [g] }
    | none =>
      if n.keys.length + 1 = rows then none
      else some { n with map := n.map ++ [n.keys.length + 1], keys := n.keys ++ [k],
                         groups := n.groups ++ [⟨i, mine, o, j, r, .pending⟩] }

/-- Number entries from `i` on; true if the list overflows. -/
def Numbering.addAll (rows : Nat) (f : Nat → Entry) : List Nat → Numbering → Numbering × Bool
  | [], n => (n, false)
  | i :: l, n =>
    match n.add rows i (f i) with
    | none => (n, true)
    | some m => Numbering.addAll rows f l m

/-! ## Page accesses (R90, R91) -/

/-- Slots that a bank holds. -/
def Skidder.bankCount (u : Skidder) (a : Nat) : Nat := (u.running.filter fun b => bankOf b == bankOf a).length

/-- The first waiting chunk whose bank is below the cap. -/
def Skidder.ready (u : Skidder) (cap : Nat) (q : List Nat) : Option Nat := q.find? fun a => decide (u.bankCount a < cap)

/-- Issue page accesses to free slots, own and served reads in alternate turns. -/
def State.issuePages (c : ClusterId) : Nat → State → State
  | 0, s => s
  | n + 1, s =>
    let u := s.skidder c
    let cap := s.field (.skd c) SKD_BANK_CAP 0 9
    if 1024 ≤ u.running.length then s
    else
      let o := u.ready cap u.ownQ
      let v := u.ready cap u.servedQ
      let pick := if u.ownTurn then (match o with | some a => some (a, true) | none => v.map fun a => (a, false))
        else (match v with | some a => some (a, false) | none => o.map fun a => (a, true))
      match pick with
      | none => s
      | some (a, own) =>
        let u := if own then { u with ownQ := dropFirst (· == a) u.ownQ } else { u with servedQ := dropFirst (· == a) u.servedQ }
        let s := s.setSkidder c { u with running := u.running ++ [a], ownTurn := !own }
        State.issuePages c n (s.bump (.skd c) SKD_CNT_PAGES)

def State.morePages (s : State) (c : ClusterId) : State := State.issuePages c 1024 s

/-- A request for one chunk: merged into a page access that stands or runs, or sorted into its queue. -/
def State.wantChunk (c : ClusterId) (own : Bool) (s : State) (a : Nat) : State :=
  let u := s.skidder c
  if u.running.contains a || u.ownQ.contains a || u.servedQ.contains a then s.bump (.skd c) SKD_CNT_MERGED
  else if own then s.setSkidder c { u with ownQ := insertPage a u.ownQ }
  else s.setSkidder c { u with servedQ := insertPage a u.servedQ }

/-- Is a read made for a group of this Skidder's descriptor in progress? -/
def RowUse.isOwn : RowUse → Bool
  | .own .. => true
  | .warm .. | .served .. => false

/-! ## What a row read comes to -/

/-- The area that holds a haul's unpooled rows: the deck, or the stage of a pooled haul (R87, R140). -/
def SkdHaul.rowAddr (h : SkdHaul) (c : ClusterId) (g : Nat) : Nat :=
  match h.pool with
  | none => deckAddr c h.desc.mask h.desc.offset h.desc.stride g
  | some p => deckAddr c h.desc.mask p.offset p.stride g

def State.haul? (s : State) (c : ClusterId) (id : Nat) : Option SkdHaul := (s.skidder c).hauls.find? fun h => h.id == id

def State.setHaul (s : State) (c : ClusterId) (h : SkdHaul) : State :=
  let u := s.skidder c
  s.setSkidder c { u with hauls := u.hauls.map fun x => if x.id = h.id then h else x }

/-- A group has its final outcome: the row's bytes, or the default row when the owner found it deleted (R90, R94). -/
def State.groupDone (s : State) (c : ClusterId) (id g : Nat) (row : Option (List Byte)) : State :=
  match s.haul? c id with
  | none => s
  | some h =>
    match h.groups[g - 1]? with
    | none => s
    | some x =>
      let e := if row.isSome then GroupEnd.filled else .emptied
      let s := s.unitWrite c (h.rowAddr c g) (row.getD (s.defaultRow h.table))
      s.setHaul c { h with groups := h.groups.set (g - 1) { x with ends := e } }

/-- A record of a served haul is answered: cause, version and bytes. -/
def State.recordDone (s : State) (c : ClusterId) (id i cause version : Nat) (data : List Byte) : State :=
  let u := s.skidder c
  let s := if cause = 1 then s.bump (.skd c) SKD_CNT_DELETED else s
  let u := { s.skidder c with serves := u.serves.map fun v =>
    if v.id = id then
      { v with records := (v.records.zip (upFrom 0 v.records.length)).map fun r =>
          if r.2 = i then { r.1 with answer := some (cause, version, data) } else r.1 }
    else v }
  s.setSkidder c u

/-- A row found deleted: `version` is what its pointer entry holds (R93). A prefetch counts it nowhere (log entry 89). -/
def State.rowDeleted (s : State) (c : ClusterId) (use : RowUse) (version : Nat) : State :=
  match use with
  | .own h g => s.groupDone c h g none
  | .warm _ => s
  | .served v i => s.recordDone c v i 1 version []

/-- The last byte of a row has returned. -/
def State.rowArrived (s : State) (c : ClusterId) (r : RowRead) : State :=
  let data := s.slotBytes r.table r.src
  let s := (r.table.unitAddrs r.src).foldl (fun s a => s.clusterRead c a 64) s
  match r.use with
  | .own h g => (s.bump (.skd c) SKD_CNT_LOCAL).groupDone c h g (some data)
  | .warm _ => s.bump (.skd c) SKD_CNT_LOCAL
  | .served v i => s.recordDone c v i 0 r.version data

/-- The requests for a row's chunks join their sort queue (R90). -/
def State.wantRow (s : State) (c : ClusterId) (own : Bool) (w : RowWait) (slot version : Nat) : State :=
  let u := s.skidder c
  let k := w.table.chunks slot
  let s := s.setSkidder c { u with reads := u.reads ++ [⟨w.use, w.table, w.row, slot, version, s.frame, k⟩] }
  k.foldl (State.wantChunk c own) s

/-- A row read begins by reading the pointer entry (R129), in the current frame. An entry whose line was lost raises a job fault, and
the read goes no further (R160, log entry 103). -/
def State.beginRead (s : State) (c : ClusterId) (w : RowWait) : State :=
  let p := s.pointer w.table w.row
  let version := s.pointerVersion w.table w.row
  let s := s.unitRead (.skd c) c (if w.row < w.table.rows then [(w.table.pointers.at_ (8 * w.row), 8)] else []) .ok
  if s.2 then s.1
  else
    let s := if w.row < w.table.rows then s.1.clusterRead c (w.table.pointers.at_ (8 * w.row)) 8 else s.1
    match p with
    | none => s.rowDeleted c w.use version
    | some slot =>
      match w.use with
      | .served v i => if w.have_ = some version then s.recordDone c v i 2 version [] else s.wantRow c false w slot version
      | .own .. | .warm .. => s.wantRow c true w slot version

/-- The gate of R95 for reads of a table slot in a step. -/
def State.gateOpen (s : State) (c : ClusterId) (slot step : Nat) : Bool :=
  s.tableFrozen c slot || atLeast32 (s.reg (.skd c) (SKD_APPLIED slot)) (2 ^ 32 - 1 + step)

/-- Begin every waiting read whose gate is open. -/
def State.beginReads (s : State) (c : ClusterId) : State :=
  let u := s.skidder c
  let ok (w : RowWait) : Bool := !w.gated || s.gateOpen c w.slot w.step
  let s := s.setSkidder c { u with waits := u.waits.filter fun w => !ok w }
  (u.waits.filter ok).foldl (fun s w => s.beginRead c w) s

/-! ## The remote requests of a step (R92, R93) -/

/-- The members of the slice other than this module: the coordinates whose route entries are VALID (R92). -/
def State.members (s : State) (t : Fin 8) : List Nat :=
  let me := s.coord t
  ((upFrom 0 1024).filter fun e => bit (s.routeWord t e 3) 0).filterMap fun e =>
    let k := e % 16 + e / 16 % 16 * 256 + e / 256 * 65536 + me / 2 ^ 24 * 2 ^ 24
    if k = me then none else some k

/-- The sections of a list of requests: slot, ROW_UNITS and count, in ascending slot. -/
def askSections (l : List SkdAsk) : List (Nat × Nat × Nat) :=
  (upFrom 0 8).filterMap fun s =>
    let m := l.filter fun a => a.slot == s
    match m with
    | [] => none
    | a :: _ => some (s, a.units, m.length)

/-- Requests in section order. -/
def sortAsks (l : List SkdAsk) : List SkdAsk := (upFrom 0 8).flatMap fun s => l.filter fun a => a.slot == s

def haulHeader (kind sections step count : Nat) : List Byte :=
  leBytes 1 kind ++ leBytes 1 sections ++ leBytes 2 0 ++ leBytes 4 step ++ leBytes 4 count ++ List.replicate 20 0

def sectionHeader (x : Nat × Nat × Nat) : List Byte :=
  leBytes 2 x.1 ++ leBytes 2 x.2.1 ++ leBytes 4 x.2.2 ++ List.replicate 8 0

def askBytes (a : SkdAsk) : List Byte :=
  leBytes 8 (a.row % 2 ^ 40 + b2n a.have_.isSome * 2 ^ 40) ++ leBytes 8 (a.have_.getD 0)

/-- A request haul (R93). -/
def requestBody (kind step : Nat) (l : List SkdAsk) : List Byte :=
  let x := askSections l
  haulHeader kind x.length step l.length ++
    x.flatMap fun y => sectionHeader y ++ (l.filter fun a => a.slot == y.1).flatMap askBytes

/-- Send one haul or prefetch request to a module. -/
def State.sendAsks (s : State) (c : ClusterId) (dst step : Nat) (prefetch : Bool) (l : List SkdAsk) : State :=
  let l := sortAsks l
  let u := s.skidder c
  let s := s.setSkidder c { u with sent := u.sent ++ [⟨dst, step, prefetch, l⟩] }
  s.post c ⟨if prefetch then 2 else 1, dst, clusterIdx c, s.field (.skd c) SKD_JOB 0 12, step, 0,
    requestBody (if prefetch then 3 else 1) step l⟩

/-- The descriptor with LAST_OF_STEP closes the step's hauls: one to every member, empty or not (R92). -/
def State.closeHauls (s : State) (c : ClusterId) (step : Nat) : State :=
  let u := s.skidder c
  let mine := (u.gather.filter fun g => g.step == step).map (·.ask)
  let s := s.setSkidder c { u with gather := u.gather.filter fun g => g.step != step }
  let own := s.members c.tile
  let dsts := own ++ (mine.map (·.owner)).eraseDups.filter fun o => !own.contains o
  dsts.foldl (fun s o =>
    let l := (mine.filter fun a => a.owner == o).map fun a =>
      { a with have_ := (s.rrcFind c a.units a.ownerIdx a.slot a.row).map (·.2) }
    s.sendAsks c o step false l) s

/-! ## Finishing (R84, R88, R140 to R143) -/

/-- The bag of an entry. -/
def SkdPool.bagOf (p : SkdPool) (i : Nat) : Nat := (p.offsets.drop 1).countP fun o => decide (o ≤ i)
def SkdPool.bagSize (p : SkdPool) (b : Nat) : Nat := p.offsets.getD (b + 1) 0 - p.offsets.getD b 0

/-- The weight of entry `i` as an FP32 pattern (R141). -/
def State.entryWeight (s : State) (pool : Nat) (p : SkdPool) (i : Nat) : Nat :=
  if pool = 1 then
    (if p.wfmt = 0 then s.rd (p.weights + 4 * i) 4 else fp32.encode (fp16.decode (s.rd (p.weights + 2 * i) 2)))
  else if pool = 2 then f32one
  else f32div f32one (f32ofNat (p.bagSize (p.bagOf i)))

/-- The group of an entry as the index map gives it: emptied groups read row 0. -/
def SkdHaul.rowOf (h : SkdHaul) (g : Nat) : Nat :=
  if g = 0 then 0
  else
    match h.groups[g - 1]? with
    | some x => if x.ends = .emptied then 0 else g
    | none => 0

/-- Bag `b`'s pooled row (R142). -/
def State.pooledRow (s : State) (c : ClusterId) (h : SkdHaul) (p : SkdPool) (b : Nat) : List Byte :=
  let lo := p.offsets.getD b 0
  let entries := (upFrom lo (p.bagSize b)).map fun i =>
    (s.entryWeight h.desc.pool p i, s.readBytes (h.rowAddr c (h.rowOf (h.map.getD i 0))) h.table.rowBytes)
  (upFrom 0 h.table.elements).flatMap fun e =>
    leBytes 4 (entries.foldl (fun acc x => poolAdd x.1 (h.table.element x.2 e) acc) 0)

/-- The default row in pooled form (R140). -/
def State.pooledDefault (s : State) (t : Table) : List Byte :=
  (upFrom 0 t.elements).flatMap fun e => leBytes 4 (fp32.encode (t.element (s.defaultRow t) e))

/-- The deck rows of a pooled haul. -/
def State.writePooled (s : State) (c : ClusterId) (h : SkdHaul) (p : SkdPool) : State :=
  let d := h.desc
  let s := s.unitWrite c (deckAddr c d.mask d.offset d.stride 0) (s.pooledDefault h.table)
  (upFrom 0 (p.offsets.length - 1)).foldl (fun (s : State) b =>
    s.unitWrite c (deckAddr c d.mask d.offset d.stride (b + 1)) (s.pooledRow c h p b)) s

/-- Clear the mask bit of plot slot `i`, in the bitmap and in word 1 (R90). -/
def State.clearMaskBit (s : State) (c : ClusterId) (h : SkdHaul) (i : Nat) : State :=
  let a := h.desc.source + h.maskOff + i / 8
  let w := h.desc.source + 64 + 16 * i + 15
  let s := s.unitWrite c a (leBytes 1 (setBitOff (s.rd a 1) (i % 8)))
  s.unitWrite c w (leBytes 1 (setBitOff (s.rd w 1) 7))

/-- A trail entry (R102, R143). -/
def SkdHaul.trailEntry (h : SkdHaul) (i g : Nat) : Nat :=
  match if g = 0 then none else h.groups[g - 1]? with
  | none => i * 2 ^ 44 + 0xFFF * 2 ^ 32
  | some x =>
    if x.ends = .emptied then g + 0xFFF * 2 ^ 32 + x.first * 2 ^ 44
    else
      let row := match h.pool with
        | none => g
        | some p => p.bagOf i + 1
      g + row * 2 ^ 16 + (if x.mine then 0xFFE else x.ownerIdx) * 2 ^ 32 + x.first * 2 ^ 44

def SkdHaul.trailEntries (h : SkdHaul) : List Nat :=
  ((upFrom 0 h.map.length).zip h.map).map fun (x : Nat × Nat) => h.trailEntry x.1 x.2

structure HaulCounts where
  groups : Nat
  locals : Nat
  remotes : Nat
  owners : Nat
  nulls : Nat
  sentinel : Nat
  beyond : Nat
  deleted : Nat
  current : Nat
  deriving DecidableEq, Repr

/-- The haul report (R88). -/
def haulReport (d : SkdDesc) (status : Nat) (n : HaulCounts) : List Byte :=
  leBytes 1 status ++ leBytes 1 d.src ++ leBytes 2 0 ++ leBytes 4 d.step ++ leBytes 4 d.count ++ leBytes 4 n.groups ++
    leBytes 4 n.locals ++ leBytes 4 n.remotes ++ leBytes 4 n.owners ++ leBytes 4 n.nulls ++ leBytes 4 n.sentinel ++
    leBytes 4 n.beyond ++ leBytes 4 n.deleted ++ leBytes 4 n.current ++ List.replicate 16 0

def HaulCounts.zero : HaulCounts := ⟨0, 0, 0, 0, 0, 0, 0, 0, 0⟩

def SkdHaul.counts (h : SkdHaul) : HaulCounts :=
  { groups := h.groups.length + 1, locals := h.groups.countP (·.mine), remotes := h.groups.countP fun g => !g.mine,
    owners := (((h.groups.filter fun g => !g.mine).map (·.owner)).eraseDups).length,
    nulls := h.map.countP fun g => h.rowOf g == 0, sentinel := h.sentinel, beyond := h.beyond,
    deleted := h.map.countP fun g => g != 0 && h.rowOf g == 0, current := h.current }

/-- DONE of a descriptor, or a job fault where it names no sync object (R84). -/
def State.skdDone (s : State) (c : ClusterId) (done : Nat) : State :=
  let s := s.bump (.skd c) SKD_CNT_DESC_DONE
  if 47 < bits done 4 6 then s.faultCluster c 0x2103 (Blk.skd c).base false else s.signalDone c done

/-- Finish a haul whose groups all have an outcome and whose trail is accepted. -/
def State.finishHaul (s : State) (c : ClusterId) (h : SkdHaul) : State :=
  let b := Blk.skd c
  let d := h.desc
  let n := h.counts
  let s := s.unitWrite c (h.rowAddr c 0) (s.defaultRow h.table)
  let s := match h.pool with
    | none => s
    | some p => s.writePooled c h p
  let s := s.unitWrite c (d.report + 64) (h.map.flatMap fun g => leBytes 4 (h.rowOf g))
  let gone := ((upFrom 0 h.map.length).zip h.map).filter fun x => x.2 != 0 && h.rowOf x.2 == 0
  let s := if d.src = srcList then s else gone.foldl (fun s x => s.clearMaskBit c h (d.first + x.1)) s
  let s := match h.trail with
    | none => s
    | some i => s.completeTrail c i h.trailEntries
  let s := s.unitWrite c d.report (haulReport d 0 n)
  let s := (s.bump b SKD_CNT_NULL n.deleted).bump b SKD_CNT_DELETED n.deleted
  let u := s.skidder c
  (s.setSkidder c { u with hauls := u.hauls.filter fun x => x.id != h.id }).skdDone c d.done

/-- The sort window that a descriptor's numbering has reached, its last: windows are 1,024 entries (R85). -/
def SkdHaul.lastWindow (h : SkdHaul) : Nat := (h.map.length - 1) / 1024

def SkdHaul.settled (h : SkdHaul) : Bool := h.groups.all fun g => g.ends != .pending

/-- Have all warming reads of a prefetch descriptor been issued (R84)? -/
def Skidder.warmIssued (u : Skidder) (id : Nat) : Bool :=
  u.reads.all fun r => r.use != .warm id || r.left.all fun a => u.running.contains a

/-- A prefetch descriptor ends with its report, once all it asks for has been issued (R84, R88). -/
def State.finishPrefetch (s : State) (c : ClusterId) (h : SkdHaul) : State :=
  let n := h.counts
  let s := s.unitWrite c h.desc.report
    (haulReport h.desc 0 { HaulCounts.zero with groups := n.groups, locals := n.locals, remotes := n.remotes })
  let u := s.skidder c
  (s.setSkidder c { u with hauls := u.hauls.filter fun x => x.id != h.id }).skdDone c h.desc.done

/-- Finish a haul if it can finish. -/
def State.tryFinish (c : ClusterId) (s : State) (h : SkdHaul) : State :=
  if h.desc.prefetch then (if (s.skidder c).warmIssued h.id then s.finishPrefetch c h else s)
  else if h.settled && !s.trailWaits c h.trail then s.finishHaul c h else s

/-- Finish every haul that can finish, in queue order. -/
def State.finishHauls (s : State) (c : ClusterId) : State := (s.skidder c).hauls.foldl (State.tryFinish c) s

/-! ## Serving (R94) -/

def recordBytes' (r : SkdRecord) : List Byte :=
  let a := r.answer.getD (1, 0, [])
  leBytes 8 (r.row + a.1 * 2 ^ 40) ++ leBytes 8 a.2.1 ++ a.2.2

/-- The records of successive sections. -/
def servedSections : List (Nat × Nat × Nat) → List SkdRecord → List Byte
  | [], _ => []
  | x :: l, r => sectionHeader x ++ (r.take x.2.2).flatMap recordBytes' ++ servedSections l (r.drop x.2.2)

/-- Post the reply of every served haul whose records are all answered. -/
def State.sendHaulReplies (s : State) (c : ClusterId) : State :=
  ((s.skidder c).serves.filter fun v => v.records.all fun r => r.answer.isSome).foldl (fun s v =>
    let body := haulHeader (if v.prefetch then 4 else 2) v.sections.length v.step v.records.length ++
      servedSections v.sections v.records
    let u := s.skidder c
    let s := s.setSkidder c { u with serves := u.serves.filter fun x => x.id != v.id }
    s.post c ⟨if v.prefetch then 2 else 1, v.src, clusterIdx c, v.job, v.step, 0, body⟩) s

/-- After any change: begin reads whose gate is open, issue page accesses, finish hauls, send replies. -/
def State.skdKick (s : State) (c : ClusterId) : State :=
  (((s.beginReads c).morePages c).finishHauls c).sendHaulReplies c

/-! ## Starting a descriptor -/

/-- A refused or overflowing descriptor: its report, event bit, log and DONE (R83, R86). -/
def State.skdRefuse (s : State) (c : ClusterId) (d : SkdDesc) (status : Nat) (trail : Option Nat) : State :=
  let b := Blk.skd c
  let s := s.unitWrite c d.report (haulReport d status HaulCounts.zero)
  let s :=
    if status = 3 then (s.setFlag b SKD_STATUS 2).log b 0x2104 2 (lohi d.addr)
    else (s.setFlag b SKD_STATUS 1).log b (if status = 1 then 0x2103 else if status = 2 then 0x2107 else 0x2102)
      (if 47 < bits d.done 4 6 then 3 else 2) (lohi d.addr)
  let s := match trail with
    | none => s
    | some i => s.releaseTrail c i
  s.skdDone c d.done

/-- The requests of a haul's remote groups, in group order. -/
def SkdHaul.asks (h : SkdHaul) : List SkdAsk :=
  ((upFrom 1 h.groups.length).zip h.groups).filterMap fun x =>
    if x.2.mine then none
    else some ⟨h.desc.slot, h.table.rowUnits, h.id, x.1, x.2.row, x.2.owner, x.2.ownerIdx, none⟩

/-- A prefetch descriptor: its local reads are sorted with every other, ungated, and its prefetch requests are sent (R96).
Those requests count as hauls sent and served (log entry 89). -/
def State.runPrefetch (s : State) (c : ClusterId) (h : SkdHaul) : State :=
  let d := h.desc
  let u := s.skidder c
  let waits : List RowWait := (h.groups.filter (·.mine)).map fun g => ⟨.warm h.id, d.slot, d.step, false, h.table, g.row, none⟩
  let s := s.setSkidder c { u with hauls := u.hauls ++ [h], waits := u.waits ++ waits }
  let asks := h.asks.filter fun a => (s.rrcFind c a.units a.ownerIdx a.slot a.row).isNone
  let s := (asks.map (·.owner)).eraseDups.foldl (fun s o =>
    s.sendAsks c o d.step true (asks.filter fun a => a.owner == o)) s
  s.bump (.skd c) SKD_CNT_REMOTE asks.length

/-- A haul that has been numbered: its local reads wait for the gate, its remote requests join the step's hauls. -/
def State.runHaul (s : State) (c : ClusterId) (h : SkdHaul) : State :=
  let d := h.desc
  let u := s.skidder c
  let waits := ((upFrom 1 h.groups.length).zip h.groups).filterMap fun x =>
    if x.2.mine then some ⟨.own h.id x.1, d.slot, d.step, true, h.table, x.2.row, none⟩ else none
  let s := s.setSkidder c { u with hauls := u.hauls ++ [h], waits := u.waits ++ waits,
                                   gather := u.gather ++ h.asks.map fun a => ⟨d.step, a⟩ }
  s.bump (.skd c) SKD_CNT_REMOTE h.asks.length

/-- Number a descriptor that has passed every check, and begin it (R85, R86). -/
def State.beginHaul (s : State) (c : ClusterId) (d : SkdDesc) (t : Table) (p : Option SkdPool) (trail : Option Nat) : State :=
  let b := Blk.skd c
  let rows := match p with
    | some x => x.rows
    | none => d.rows
  let r := Numbering.addAll rows (s.sourceEntry c d t) (upFrom 0 d.count) ⟨[], [], [], 0, 0⟩
  let n := r.1
  let s := ((s.bump b SKD_CNT_ENTRIES n.map.length).bump b SKD_CNT_GROUPS n.groups.length).bump b SKD_CNT_SENTINEL n.sentinel
  let s := (s.bump b SKD_CNT_BEYOND n.beyond).bump b SKD_CNT_NULL (n.map.countP (· == 0))
  if r.2 then s.skdRefuse c d 3 trail
  else
    let u := s.skidder c
    let s := s.setSkidder c { u with nextId := u.nextId + 1 }
    let h : SkdHaul :=
      { id := u.nextId, desc := d, pool := p, table := t, map := n.map, groups := n.groups, sentinel := n.sentinel,
        beyond := n.beyond, current := 0, maskOff := s.rd (d.source + 0x2C) 4, trail := trail }
    if d.prefetch then s.runPrefetch c h else s.runHaul c h

/-- May the next descriptor be dequeued? Every haul in progress waits only for replies or the gate (log entry 36). -/
def State.skdFree (s : State) (c : ClusterId) : Bool :=
  let u := s.skidder c
  !(u.reads.any fun r => r.use.isOwn) && !(u.hauls.any fun h => h.desc.prefetch || s.trailWaits c h.trail)

/-- A descriptor is refused without a report (R83). -/
def State.unreported (d : SkdDesc) : Bool :=
  decide (d.report % 64 ≠ 0) || decide (2 ^ 48 ≤ d.report) || !rangeBacked d.report (64 + 4 * d.count)

/-- What the check of a table descriptor reads (R23, R126): the descriptor and the bases of its arrays. -/
def State.tableReads (s : State) (a : Nat) : List (Nat × Nat) :=
  let t := s.table a
  (a, 128) :: ([t.pointers, t.slots].filter fun r => decide (r.stripes ≤ 24)).map fun r => (r.addr, 8 * r.stripes)

/-- What a pooled haul's descriptor makes the Skidder read: the extension record and the bag offsets (R138, R139). -/
def State.poolRecReads (s : State) (d : SkdDesc) : List (Nat × Nat) :=
  let n := s.rd d.ext 4
  (d.ext, 64) :: if n ≤ 65535 then [(s.rd (d.ext + 8) 8, 4 * (n + 1))] else []

/-- What the Skidder reads of the descriptor that it dequeues next: the descriptor and the entries of its source, its table
descriptor, plot header and extension record, as far as its checks go (R83). -/
def State.skdReads (s : State) (c : ClusterId) : List (Nat × Nat) :=
  match (s.skidder c).queue with
  | [] => []
  | a :: _ =>
    let d := s.skdDesc a
    let x := s.tableAddr c d.slot
    if !s.skdFree c then []
    else if State.unreported d ∨ s.haulBad1 d ∨ !s.tableValid c d.slot then [(a, 64)]
    else
      let n := (s.haulCheck c d).1
      let entries := if d.src = srcList then (d.source, 8 * d.count) else (d.source + 64 + 16 * d.first, 16 * d.count)
      (a, 64) :: (if n = 0 then [entries] else []) ++ s.tableReads x ++
        (if n = 4 ∨ d.src = srcList then [] else [(d.source, 64)]) ++
        if d.pool = 0 ∨ n = 4 ∨ n = 2 then [] else s.poolRecReads d

/-- The Skidder dequeues a descriptor, checks it and numbers its groups (R79, R83). One refused without a report has no
STATUS and is not in SKD_CNT_DESC_DONE (log entry 89). -/
def State.skdStart (s : State) (c : ClusterId) : State :=
  let u := s.skidder c
  match u.queue with
  | [] => s
  | a :: q =>
    if !s.skdFree c then s
    else
      let b := Blk.skd c
      let s := (s.readRanges c (s.skdReads c)).setSkidder c { u with queue := q }
      let d := s.skdDesc a
      let r := if d.trail && !d.prefetch then s.openTrail c d else (s, none)
      let s := r.1
      let s :=
        if State.unreported d then
          let s := (s.setFlag b SKD_STATUS 1).log b 0x2103 3 (lohi a)
          let s := match r.2 with
            | none => s
            | some i => s.releaseTrail c i
          s.faultCluster c 0x2103 b.base false
        else
          match s.haulCheck c d with
          | (0, t, p) => s.beginHaul c d t p r.2
          | (n, _, _) => s.skdRefuse c d n r.2
      let s := if d.last && !d.prefetch then s.closeHauls c d.step else s
      s.skdKick c

/-! ## Page accesses and restarts -/

/-- A row read is too old to complete (R132). -/
def State.stale (s : State) (r : RowRead) : Bool :=
  let d := (s.frame + (2 ^ 32 - r.frame)) % 2 ^ 32
  decide (2 ≤ d) && decide (d < 2 ^ 31)

/-- Discard what a read holds and read the row again from its pointer entry (R132). -/
def State.restartRead (s : State) (c : ClusterId) (r : RowRead) : State :=
  s.beginRead c ⟨r.use, 0, 0, false, r.table, r.row, none⟩

/-- The reads that end with a chunk: completed, or begun again when they are too old. -/
def State.chunkDone (s : State) (c : ClusterId) (a : Nat) : State :=
  let u := s.skidder c
  let reads := u.reads.map fun r => { r with left := r.left.filter (· != a) }
  let s := s.setSkidder c { u with reads := reads.filter fun r => !r.left.isEmpty }
  (reads.filter fun r => r.left.isEmpty).foldl (fun s r => if s.stale r then s.restartRead c r else s.rowArrived c r) s

/-- What pooling reads for the first pooled haul about to finish: its rows and its weights. -/
def State.poolReads (s : State) (c : ClusterId) : List (Nat × Nat) :=
  match (s.skidder c).hauls.find? fun h => h.pool.isSome && h.settled with
  | some h =>
    (h.map.map fun g => (h.rowAddr c (h.rowOf g), h.table.rowBytes)) ++
      match h.pool with
      | some p => if h.desc.pool = 1 then [(p.weights, (if p.wfmt = 0 then 4 else 2) * h.map.length)] else []
      | none => []
  | none => []

/-- The lines of a chunk that some row read waits for. -/
def Skidder.pageReads (u : Skidder) (a : Nat) : List (Nat × Nat) :=
  (((u.reads.filter fun r => r.left.contains a).flatMap fun r =>
    (r.table.unitAddrs r.src).filter fun x => x / 256 * 256 == a).eraseDups).map fun x => (x, 64)

/-- A page access in flight returns its last byte (R90). An error in what it reads, or in what pooling then reads, raises a job
fault, and nothing of that read is delivered (R153, R444, log entry 103). -/
def State.pageDone (s : State) (c : ClusterId) (i a : Nat) (pooled : Ecc) : State :=
  let u := s.skidder c
  let s := (s.setSkidder c { u with running := u.running.eraseIdx i }).chunkDone c a
  let r := s.unitRead (.skd c) c (s.poolReads c) pooled
  if r.2 then r.1 else r.1.skdKick c

/-- Row read `i` has not completed by the end of frame G + 1 (R132). -/
def State.rowRestart (s : State) (c : ClusterId) (i : Nat) : State :=
  let u := s.skidder c
  match u.reads[i]? with
  | none => s
  | some r => if s.stale r then ((s.setSkidder c { u with reads := u.reads.eraseIdx i }).restartRead c r).skdKick c else s

/-! ## Receiving hauls (R94) -/

/-- A haul is discarded: counted, flagged and logged; a malformed one raises a job fault. -/
def State.skdDiscard (s : State) (c : ClusterId) (row : Nat) (malformed : Bool) : State :=
  let b := Blk.skd c
  let s := (s.bump b SKD_CNT_HAUL_DISCARD).setFlag b SKD_STATUS 3
  let s := s.log b 0x2105 (if malformed then 3 else 2) [row % 2 ^ 32, row / 2 ^ 32, b2n malformed]
  if malformed then s.faultCluster c 0x2105 b.base false else s

/-- The header of a haul is in form (R93). -/
def haulHeaderOk (l : List Byte) : Bool :=
  decide (32 ≤ l.length) && fieldAt l 2 2 == 0 && decide (fieldAt l 1 1 ≤ 8) && decide (fieldAt l 8 4 ≤ 524288) &&
    allZero (slice l 0xC 20)

def sectionAt (l : List Byte) (o : Nat) : Nat × Nat × Nat := (fieldAt l o 1 % 8, fieldAt l (o + 2) 2, fieldAt l (o + 4) 4)

def sectionOk (l : List Byte) (o last : Nat) : Bool :=
  let x := sectionAt l o
  decide (fieldAt l o 1 < 8) && fieldAt l (o + 1) 1 == 0 && allZero (slice l (o + 8) 8) && decide (1 ≤ x.2.1) &&
    decide (x.2.1 ≤ 256) && decide (last ≤ x.1)

/-- The sections of a request haul with the offsets of their entries, and the offset after the last; none where the
form breaks R93. A section with no entry is in form (DEDUCED, log entry 89). -/
def requestSections (l : List Byte) : Nat → Nat → Nat → Option (List ((Nat × Nat × Nat) × Nat) × Nat)
  | 0, o, _ => some ([], o)
  | n + 1, o, last =>
    if !sectionOk l o last ∨ l.length < o + 16 then none
    else
      let x := sectionAt l o
      (requestSections l n (o + 16 + 16 * x.2.2) (x.1 + 1)).map fun r => ((x, o + 16) :: r.1, r.2)

/-- A well-formed request haul's sections; none if it is malformed. -/
def requestForm (l : List Byte) : Option (List ((Nat × Nat × Nat) × Nat)) :=
  if !haulHeaderOk l then none
  else
    match requestSections l (fieldAt l 1 1) 32 0 with
    | none => none
    | some (x, e) =>
      if e ≠ l.length ∨ sumNat (x.map fun y => y.1.2.2) ≠ fieldAt l 8 4 then none
      else if x.any fun y => (upFrom 0 y.1.2.2).any fun i =>
          bits (fieldAt l (y.2 + 16 * i) 8) 41 23 != 0 || decide (2 ^ 32 ≤ fieldAt l (y.2 + 16 * i + 8) 8) then none
      else some x

/-- Serve a well-formed request haul (R94): sections that cannot be served are answered at once. A prefetch request is a
haul served (log entry 89). -/
def State.serveHaul (s : State) (c : ClusterId) (m : InMsg) (secs : List ((Nat × Nat × Nat) × Nat)) : State :=
  let b := Blk.skd c
  let l := m.body
  let prefetch := fieldAt l 0 1 == 3
  let step := fieldAt l 4 4
  let u := s.skidder c
  let bad (x : Nat × Nat × Nat) : Bool :=
    let a := s.tableAddr c x.1
    !s.tableValid c x.1 || s.tableRefused a || (s.table a).rowUnits != x.2.1
  let entries := secs.flatMap fun y => (upFrom 0 y.1.2.2).map fun i => (y.1, y.2 + 16 * i)
  let rows := entries.map fun e => (e.1, bits (fieldAt l e.2 8) 0 40, bit (fieldAt l e.2 8) 40, fieldAt l (e.2 + 8) 4)
  let current (x : Nat × Nat × Nat) (row : Nat) : Nat :=
    let a := s.tableAddr c x.1
    if s.tableValid c x.1 && !s.tableRefused a then s.pointerVersion (s.table a) row else 0
  let records : List SkdRecord := rows.map fun r =>
    ⟨r.1.1, r.1.2.1, r.2.1, if bad r.1 then some (1, current r.1 r.2.1, []) else none⟩
  let waits : List RowWait := ((upFrom 0 rows.length).zip rows).filterMap fun x =>
    if bad x.2.1 then none
    else some ⟨.served u.nextId x.1, x.2.1.1, step, !prefetch, s.table (s.tableAddr c x.2.1.1), x.2.2.1,
      if x.2.2.2.1 then some x.2.2.2.2 else none⟩
  let v : SkdServe :=
    { id := u.nextId, src := m.src, job := m.job, step := step, prefetch := prefetch, sections := secs.map (·.1),
      records := records }
  let s := s.setSkidder c { u with nextId := u.nextId + 1, serves := u.serves ++ [v], waits := u.waits ++ waits }
  let s := s.bump b SKD_CNT_HAULS_SERVED
  let s := s.bump b SKD_CNT_DELETED (records.countP fun r => r.answer.isSome)
  let refused (y : (Nat × Nat × Nat) × Nat) : Bool := s.tableValid c y.1.1 && s.tableRefused (s.tableAddr c y.1.1)
  let s := (secs.filter fun y => bad y.1).foldl (fun s y => s.log b 0x2102 2 [y.1.1]) s
  (if secs.any refused then s.setFlag b SKD_STATUS 1 else s).skdKick c

/-- A haul or prefetch request arrives (R94, R96): a reserved KIND is malformed whether or not the unit is enabled. Otherwise a haul
of another job, or one that comes while ENABLE is 0, is discarded whatever its form (DEDUCED, log entry 88). The row key of
code 0x2105 is the LOCAL_ROW of the first entry, five bytes at body offset 48 (log entry 89). -/
def State.haulReceive (s : State) (c : ClusterId) : State :=
  match s.takeMsg c fun m => m.dunit == 1 && fieldAt m.body 0 1 != 2 && fieldAt m.body 0 1 != 4 with
  | none => s
  | some (m, s) =>
    let b := Blk.skd c
    let row := fieldAt m.body 48 5
    let kind := fieldAt m.body 0 1
    if m.job ≠ s.field b SKD_JOB 0 12 then s.skdDiscard c row false
    else if kind ≠ 1 ∧ kind ≠ 3 then s.skdDiscard c row true
    else if !s.enabled b then s.skdDiscard c row false
    else
      match requestForm m.body with
      | none => s.skdDiscard c row true
      | some x => s.serveHaul c m x

/-! ## Replies (R94, R96, R98) -/

/-- The records of one section of a reply: cause, version and bytes of each request; none where they disagree. -/
def replyRecords (l : List Byte) (prefetch : Bool) : List SkdAsk → Nat → Option (List (SkdAsk × Nat × Nat × List Byte) × Nat)
  | [], o => some ([], o)
  | a :: t, o =>
    let w := fieldAt l o 8
    let cause := bits w 40 2
    let n := if cause = 0 then a.units * 64 else 0
    if l.length < o + 16 + n ∨ bits w 0 40 ≠ a.row % 2 ^ 40 ∨ bits w 42 22 ≠ 0 ∨ 2 ^ 32 ≤ fieldAt l (o + 8) 8 ∨ cause = 3 ∨
        (cause = 2 ∧ a.have_.isNone) then none
    else (replyRecords l prefetch t (o + 16 + n)).map fun r => ((a, cause, fieldAt l (o + 8) 4, slice l (o + 16) n) :: r.1, r.2)

def replySections (l : List Byte) (m : SkdSent) : List (Nat × Nat × Nat) → Nat → Option (List (SkdAsk × Nat × Nat × List Byte))
  | [], o => if o = l.length then some [] else none
  | x :: t, o =>
    if l.length < o + 16 ∨ !sectionOk l o 0 ∨ sectionAt l o ≠ x then none
    else
      match replyRecords l m.prefetch (m.asks.filter fun a => a.slot == x.1) (o + 16) with
      | none => none
      | some (r, e) => (replySections l m t e).map fun q => r ++ q

/-- The records of a reply to `m`; none if it is malformed. -/
def replyForm (l : List Byte) (m : SkdSent) : Option (List (SkdAsk × Nat × Nat × List Byte)) :=
  let x := askSections m.asks
  if !haulHeaderOk l ∨ fieldAt l 1 1 ≠ x.length ∨ fieldAt l 8 4 ≠ m.asks.length then none else replySections l m x 32

/-- The end of `n` records of a section of a reply from offset `o`, each in form by itself. -/
def recordsEnd (l : List Byte) (units : Nat) (prefetch : Bool) : Nat → Nat → Option Nat
  | 0, o => some o
  | n + 1, o =>
    let w := fieldAt l o 8
    let e := o + 16 + if bits w 40 2 = 0 then units * 64 else 0
    if l.length < e ∨ bits w 42 22 ≠ 0 ∨ 2 ^ 32 ≤ fieldAt l (o + 8) 8 ∨ bits w 40 2 = 3 ∨ (prefetch ∧ bits w 40 2 = 2) then none
    else recordsEnd l units prefetch n e

/-- The end of the sections of a reply from offset `o`, each in form by itself, and their records counted. -/
def sectionsEnd (l : List Byte) (prefetch : Bool) : Nat → Nat → Nat → Option (Nat × Nat)
  | 0, o, _ => some (o, 0)
  | n + 1, o, last =>
    let x := sectionAt l o
    if !sectionOk l o last ∨ l.length < o + 16 then none
    else
      match recordsEnd l x.2.1 prefetch x.2.2 (o + 16) with
      | none => none
      | some e => (sectionsEnd l prefetch n e (x.1 + 1)).map fun r => (r.1, x.2.2 + r.2)

/-- A reply that is in form whatever request it answers: what R96 lets off a late prefetch reply is its match alone (R94). -/
def replyInForm (l : List Byte) (prefetch : Bool) : Bool :=
  haulHeaderOk l &&
    match sectionsEnd l prefetch (fieldAt l 1 1) 32 0 with
    | some (e, n) => e == l.length && n == fieldAt l 8 4
    | none => false

/-- One record of a haul reply: deck row, cache, outcome (R94, R98). A CAUSE 2 whose cached row is of an earlier enable period fills
the group with no bytes (DESIGN CHOICE, log entry 35). -/
def State.takeRecord (s : State) (c : ClusterId) (x : SkdAsk × Nat × Nat × List Byte) : State :=
  let a := x.1
  match x.2.1 with
  | 0 => (s.groupDone c a.haul a.group (some x.2.2.2)).rrcFill c a.units a.ownerIdx a.slot a.row x.2.2.1 x.2.2.2
  | 2 =>
    let data := s.rrcBytes c a.units a.ownerIdx a.slot a.row
    let s := (s.bump (.skd c) SKD_CNT_RRC_CURRENT).groupDone c a.haul a.group (some data)
    match s.haul? c a.haul with
    | none => s
    | some h => s.setHaul c { h with current := h.current + 1 }
  | _ => s.groupDone c a.haul a.group none

/-- Has the haul window of a step opened for a tile (R96)? -/
def State.haulWindowOpen (s : State) (t : Fin 8) (job step : Nat) : Bool :=
  match s.slotOfJob job with
  | none => true
  | some j =>
    let x := s.job j
    later32 x.step step || x.opened.any fun k =>
      k.tile == t.val && k.step == step &&
        match x.entry k with
        | some e => e.kind == 2 && bits e.param 0 3 == 1
        | none => false

/-- The outstanding request that a reply answers. -/
def State.sentFor (s : State) (c : ClusterId) (m : InMsg) (prefetch : Bool) : Option SkdSent :=
  let l := (s.skidder c).sent.filter fun x => x.dst == m.src && x.step == fieldAt m.body 4 4 && x.prefetch == prefetch
  match l.find? fun x => (replyForm m.body x).isSome with
  | some x => some x
  | none => l.head?

/-- A haul or prefetch reply arrives (R94, R96, R98). -/
def State.haulReplyReceive (s : State) (c : ClusterId) : State :=
  match s.takeMsg c fun m => m.dunit == 1 && (fieldAt m.body 0 1 == 2 || fieldAt m.body 0 1 == 4) with
  | none => s
  | some (m, s) =>
    let row := fieldAt m.body 48 5
    let prefetch := fieldAt m.body 0 1 == 4
    let late := prefetch && replyInForm m.body prefetch && s.haulWindowOpen c.tile m.job (fieldAt m.body 4 4)
    if m.job ≠ s.field (.skd c) SKD_JOB 0 12 then s.skdDiscard c row false
    else
      match s.sentFor c m prefetch with
      | none => if late then s.pfDrop c else s.skdDiscard c row true
      | some x =>
        match replyForm m.body x with
        | none => if late then s.pfDrop c else s.skdDiscard c row true
        | some l =>
          let drop (s : State) : State :=
            let u := s.skidder c
            s.setSkidder c { u with sent := dropFirst (fun y => y == x) u.sent }
          if prefetch then
            let s := drop s
            if late || !s.rrcOn c then s.pfDrop c
            else l.foldl (fun s r => if r.2.1 = 0 then s.rrcFill c r.1.units r.1.ownerIdx r.1.slot r.1.row r.2.2.1 r.2.2.2 else s) s
          else
            let cur := l.filter fun r => r.2.1 == 2
            let rest := l.filter fun r => r.2.1 != 2
            let s := drop (cur.foldl (fun s r => s.takeRecord c r) s)
            (rest.foldl (fun s r => s.takeRecord c r) s).skdKick c

/-! ## Commands -/

/-- SKD_QUEUE_HI_WRITE (R79). -/
def execSkdQueueHiWrite (c : ClusterId) (v : W32) (s : State) : Host.Outcome State Fault Refusal :=
  .next (if s.powered (.skd c) then s.skdQueueHi c v.toNat else s)

/-- HAUL_DESCRIPTOR_START (R83). -/
def execHaulDescriptorStart (c : Checked ClusterId) (s : State) : Host.Outcome State Fault Refusal :=
  let r := s.unitRead (.skd c.val) c.val (s.skdReads c.val) c.ecc
  .next (if r.2 then r.1 else r.1.skdStart c.val)

/-- PAGE_ACCESS_DONE (R90). -/
def execPageAccessDone (c : ClusterId) (idx : Fin 1024) (found : Ecc) (pooled : Ecc) (s : State) :
    Host.Outcome State Fault Refusal :=
  .next (match (s.skidder c).running[idx.val]? with
    | none => s
    | some a =>
      let r := s.unitRead (.skd c) c ((s.skidder c).pageReads a) found
      if r.2 then r.1 else r.1.pageDone c idx.val a pooled)

/-- ROW_READ_RESTART (R132). -/
def execRowReadRestart (c : ClusterId) (idx : Nat) (s : State) : Host.Outcome State Fault Refusal := .next (s.rowRestart c idx)

/-- HAUL_RECEIVE (R94). -/
def execHaulReceive (c : ClusterId) (s : State) : Host.Outcome State Fault Refusal := .next (s.haulReceive c)

/-- HAUL_REPLY_RECEIVE (R94). -/
def execHaulReplyReceive (c : ClusterId) (s : State) : Host.Outcome State Fault Refusal := .next (s.haulReplyReceive c)

/-! ## Waiting trails (R104) -/

/-- TRAIL_SPACE_ALLOCATE (R104): the waiting trail takes space that has come free, and a haul that waited may finish. -/
def execTrailSpaceAllocate (c : ClusterId) (s : State) : Host.Outcome State Fault Refusal :=
  .next <|
    match (s.sillage c).trails.find? (·.waiting) with
    | none => s
    | some t => (s.allocTrail c t).skdKick c

/-- TRAIL_SPACE_TIMEOUT (R104): a wait beyond SIL_WAIT.LIMIT_US ends without a trail. -/
def execTrailSpaceTimeout (c : ClusterId) (s : State) : Host.Outcome State Fault Refusal :=
  .next <|
    match (s.sillage c).trails.find? (·.waiting) with
    | none => s
    | some t =>
      if t.since + s.field (.sil c) SIL_WAIT 0 20 * beatsPerUs < s.clock then
        ((s.releaseTrail c t.id).countLost c t.key).skdKick c
      else s

end Sys2Proof.Machine
end

