-- ==== Sys2Proof/Machine/Sillage.lean ====
section
/-! DEFINITION. The Sillage unit's backward path (R107 to R123): retraces, return batches, accumulation, close and apply,
and the parking of trails. -/
namespace Sys2Proof.Machine

/-- A write of SIL_QUEUE_HI (R109). -/
def State.silQueueHi (s : State) (c : ClusterId) (v : Nat) : State :=
  let b := Blk.sil c
  let u := s.sillage c
  let a := queueAddr (s.reg b SIL_QUEUE_LO) v
  if u.queue.length < 4 ∧ s.enabled b then s.setSillage c { u with queue := u.queue ++ [a] }
  else (s.setFlag b SIL_STATUS 0).log b 0x2205 2 (lohi a)

/-! ## Retrace descriptors (R110, R111) -/

structure Retrace where
  addr : Nat
  fmt : Nat
  last : Bool
  done : Nat
  step : Nat
  exp : Int
  key : Nat
  offset : Nat
  stride : Nat
  elements : Nat
  result : Nat
  deriving DecidableEq, Repr

def State.retrace (s : State) (a : Nat) : Retrace :=
  let f o n := s.rd (a + o) n
  { addr := a, fmt := bits (f 0 4) 0 2, last := bit (f 0 4) 2, done := f 4 4, step := f 8 4, exp := sgn (f 0xC 1) 8,
    key := f 0x10 8, offset := f 0x18 4, stride := f 0x1C 4, elements := f 0x20 4, result := f 0x28 8 }

def gradSize (fmt : Nat) : Nat := if fmt = 0 then 4 else 2
def gradElem (fmt v : Nat) : XVal := if fmt = 0 then fp32.decode v else if fmt = 1 then bf16.decode v else fp16.decode v

/-- Check 1 of R111. -/
def State.retraceBad1 (s : State) (d : Retrace) : Bool :=
  let f o n := s.rd (d.addr + o) n
  bits (f 0 4) 3 29 != 0 || bits d.done 10 22 != 0 || bits (f 0xC 4) 8 24 != 0 || bits d.offset 19 13 != 0 || f 0x24 4 != 0 ||
    !allZero (s.readBytes (d.addr + 0x30) 16) || d.fmt == 3 || decide (47 < bits d.done 4 6) || d.offset % 64 != 0 ||
    d.elements == 0 || decide (4096 < d.elements) || d.stride % 64 != 0 || decide (d.stride < d.elements * gradSize d.fmt)

/-- A trail entry's fields (R102). -/
structure TrailEntry where
  idx : Nat
  group : Nat
  deckRow : Nat
  owner : Nat
  keyEntry : Nat
  deriving DecidableEq, Repr

def trailEntry (i e : Nat) : TrailEntry := ⟨i, bits e 0 16, bits e 16 16, bits e 32 12, bits e 44 20⟩

def State.entriesOf (s : State) (c : ClusterId) (t : Trail) : List TrailEntry :=
  ((upFrom 0 t.count).zip (s.trailEntries c t)).map fun (x : Nat × Nat) => trailEntry x.1 x.2

def Trail.slot (t : Trail) : Nat := bits t.ctrl 2 3

/-- The haul descriptor's fields that a trail keeps (R103). -/
def Trail.desc (t : Trail) : SkdDesc :=
  { addr := 0, ctrl := t.ctrl, done := 0, first := t.first, count := t.count, step := t.step, mask := t.mask,
    source := t.source, report := t.key, offset := 0, stride := 0, ext := t.ext, rows := 0 }

def Sillage.applyOf (u : Sillage) (slot : Nat) : Option ApplyRec := u.applies.find? fun a => a.slot == slot

/-- The STATUS of a retrace (R111), 0 if it passes every check, and the trail whose entries the checks read. -/
def State.retraceCheck (s : State) (c : ClusterId) (d : Retrace) : Nat × Option Trail :=
  let u := s.sillage c
  if s.retraceBad1 d then (1, none)
  else
    match u.trails.find? fun t => t.key == d.key && t.run.isSome with
    | none => (2, none)
    | some t =>
      if !t.complete then (3, none)
      else
        let top := (s.entriesOf c t).foldl (fun m e => max m e.deckRow) 0
        if scratchBytes < (deckPlace t.mask d.offset d.stride top).2 + d.elements * gradSize d.fmt then (1, some t)
        else if t.step ≠ d.step ∨ (match u.applyOf t.slot with
            | some a => decide (a.elements ≠ d.elements)
            | none => true) = true then (3, some t)
        else (0, some t)

/-- The retrace report (R112). -/
def retraceReport (status step entries skipped locals remotes owners clipped nonfinite : Nat) (maxExp : Option Int) :
    List Byte :=
  leBytes 1 status ++ leBytes 3 0 ++ leBytes 4 step ++ leBytes 4 entries ++ leBytes 4 skipped ++ leBytes 4 locals ++
    leBytes 4 remotes ++ leBytes 4 owners ++ leBytes 4 clipped ++ leBytes 4 nonfinite ++ leBytes 4 (unsgn (maxExp.getD (-128)) 32) ++
    List.replicate 24 0

/-- A refused retrace (R107, R111). -/
def State.refuseRetrace (s : State) (c : ClusterId) (d : Retrace) (status : Nat) (report : Bool) : State :=
  let b := Blk.sil c
  let s := if report then s.unitWrite c d.result (retraceReport status d.step 0 0 0 0 0 0 0 none) else s
  let code := if status = 1 then 0x2202 else 0x2201
  let s := ((s.setFlag b SIL_STATUS 1).bump b SIL_CNT_REFUSED).log b code 3 (lohi d.key)
  let u := s.sillage c
  let s := s.setSillage c { u with refused := d.step :: u.refused }
  let s := if bits d.done 4 6 ≤ 47 then s.signalDone c d.done else s
  s.faultCluster c code b.base false

/-! ## Conversion (R113) -/

structure Fixed where
  v : Int
  nonfinite : Bool
  clipped : Bool
  deriving DecidableEq, Repr

def i64max : Int := 2 ^ 63 - 1
def i64min : Int := -(2 ^ 63)

/-- A total as a signed 64-bit integer, and whether it saturated. -/
def sat64 (v : Int) : Int × Bool :=
  if i64max < v then (i64max, true) else if v < i64min then (i64min, true) else (v, false)

/-- One element in fixed point of unit 2^exp. -/
def toFixed (x : XVal) (exp : Int) : Fixed :=
  match x with
  | .num s n d e =>
    let r := sat64 (XVal.num s n d (e - exp)).toIntRne
    ⟨r.1, false, r.2⟩
  | _ => ⟨0, true, false⟩

/-- FP32 of a total (R118), and whether it was clipped. -/
def fromFixed (total : Int) (exp : Int) : Nat × Bool :=
  let r := sat64 total
  let v := fp32.encode (.num (decide (r.1 < 0)) r.1.natAbs 1 exp)
  if v = f32posInf then (0x7F7FFFFF, true)
  else if v = f32negInf then (0xFF7FFFFF, true)
  else (if r.1 = 0 then 0 else v, r.2)

/-- The extension record that a pooled trail names, as software keeps it (R105). -/
def State.poolOf (s : State) (ext : Nat) : SkdPool :=
  let f o n := s.rd (ext + o) n
  ⟨bits (f 4 4) 0 1, f 0x10 8, f 0x18 4, f 0x1C 4, f 0x20 4, (upFrom 0 (f 0 4 + 1)).map fun i => s.rd (f 8 8 + 4 * i) 4⟩

/-- The elements that entry `e` contributes, as FP32 values. -/
def State.entryValues (s : State) (c : ClusterId) (d : Retrace) (t : Trail) (e : TrailEntry) : List XVal :=
  let p := deckPlace t.mask d.offset d.stride e.deckRow
  let a := scratchBase (c.coreAt (Fin.ofNat 16 p.1)) + p.2
  let n := gradSize d.fmt
  let pool := t.desc.pool
  let w := if pool = 0 then f32one else s.entryWeight pool (s.poolOf t.ext) e.idx
  (upFrom 0 d.elements).map fun i =>
    let g := gradElem d.fmt (s.rd (a + i * n) n)
    if pool = 0 then g else fp32.decode (fp32.encode ((fp32.decode w).mul g))

/-- The exact sum of a group's entries, with its flags, and the largest exponent converted, if any (R112). -/
structure GroupSum where
  totals : List Int
  nonfinite : Bool
  clipped : Bool
  maxExp : Option Int
  deriving DecidableEq, Repr

def GroupSum.addEntry (g : GroupSum) (xs : List XVal) (exp : Int) : GroupSum :=
  let f := xs.map fun x => toFixed x exp
  let m := xs.foldl (fun m x => match x with
    | .num _ n _ _ => if n = 0 then m else some (max (m.getD x.log2) x.log2)
    | _ => m) g.maxExp
  { totals := (g.totals.zip f).map fun p => p.1 + p.2.v, nonfinite := g.nonfinite || f.any (·.nonfinite),
    clipped := g.clipped || f.any (·.clipped), maxExp := m }

/-! ## Accumulation (R117) -/

def homeCluster (row : Nat) : ClusterId := ⟨Fin.ofNat 8 row, Fin.ofNat 80 (row / 8)⟩

def silFault (s : State) (c : ClusterId) (code : Nat) (args : List Nat) : State :=
  (s.log (.sil c) code 3 args).faultCluster c code (Blk.sil c).base false

def AccTable.is (a : AccTable) (slot step : Nat) : Bool := a.slot == slot && a.step == step

def Sillage.putAcc (u : Sillage) (a : AccTable) : Sillage :=
  { u with acc := u.acc.filter (fun x => !x.is a.slot a.step) ++ [a] }

/-- Has the unit begun a step before `step` that it has not handed off? -/
def Sillage.openBefore (u : Sillage) (step : Nat) : Bool :=
  (u.acc.map (·.step) ++ u.finished ++ u.refused ++ u.received.map (·.1)).any fun m => later32 step m

/-- Bytes of an accumulation entry (R119). -/
def accEntryBytes (elements : Nat) : Nat := up64 (64 + 9 * elements)

/-- The accumulation table in memory: the unit reads and writes the row's entry through the cluster cache (R119). -/
def State.writeAcc (s : State) (c : ClusterId) (r : ApplyRec) (row : Nat) (v : AccRow) : State :=
  let n := accEntryBytes r.elements
  let a := r.accAddr + Config.accPlace row % r.accEntries * n
  (s.clusterRead c a n).unitWrite c a ((upFrom 0 n).map (Config.accByte row v.totals v.nonfinite v.clipped))

/-- Is the step before `step` handed off, as far as the unit can tell? No earlier step is open, and it handed off that step or a
later one in this enable period, or the Skidder holds it applied to the table slot (DEDUCED, log entry 37). -/
def State.stepReady (s : State) (c : ClusterId) (slot step : Nat) : Bool :=
  let u := s.sillage c
  let n := 2 ^ 32 - 1 + step
  !u.openBefore step && (u.handed.any (fun h => atLeast32 h n) || atLeast32 (s.reg (.skd c) (SKD_APPLIED slot)) n)

/-- The home cluster adds a contribution to its table; it is dropped where the unit is disabled or no apply record gives it a table
(log entry 37). -/
def State.addHome (s : State) (x : SilAdd) : State :=
  let c := homeCluster x.row
  let k := x.sect
  let u := s.sillage c
  match u.applyOf k.slot with
  | none => s
  | some r =>
    if !s.enabled (.sil c) then s
    else
      let a := match u.acc.find? fun a => a.is k.slot k.step with
        | some a => a
        | none => ⟨k.slot, k.step, k.exp, k.elements, [], false⟩
      if a.bad then s
      else if k.exp ≠ a.exp ∨ k.elements ≠ a.elements ∨ k.elements ≠ r.elements then
        silFault (s.setSillage c (u.putAcc { a with bad := true })) c 0x2206 (k.slot :: lohi x.row)
      else
        let old := sget (fun _ => AccRow.none_) a.rows x.row
        if old.totals.isEmpty ∧ r.accEntries ≤ a.rows.length then
          let u := { u.putAcc { a with bad := true } with overfull := k.step :: u.overfull }
          silFault ((s.setSillage c u).setFlag (.sil c) SIL_STATUS 4) c 0x2203 (k.slot :: lohi x.row)
        else
          let t := if old.totals.isEmpty then x.vals else (old.totals.zip x.vals).map fun p => p.1 + p.2
          let v : AccRow := ⟨t, old.nonfinite || x.nonfinite, old.clipped || x.clipped⟩
          let u := u.putAcc { a with rows := sset (fun _ => AccRow.none_) a.rows x.row v }
          ((s.setSillage c u).writeAcc c r x.row v).bump (.sil c) SIL_CNT_ADDS

/-- A contribution arrives at its row's home cluster, and is held until the step before its own has been handed off (R117). The unit
does not compare its SIL_JOB with the sender's (DEDUCED, log entry 37). -/
def State.addContribution (s : State) (x : SilAdd) : State :=
  let c := homeCluster x.row
  let u := s.sillage c
  if (u.applyOf x.sect.slot).isNone ∨ !s.enabled (.sil c) then s
  else if s.stepReady c x.sect.slot x.sect.step then s.addHome x
  else s.setSillage c { u with held := u.held ++ [x] }

/-! ## Running a retrace -/

/-- The local row of a group's key entry and its destination; none where the key no longer resolves to the owner that
the trail records (R116). -/
def State.groupDest (s : State) (c : ClusterId) (t : Trail) (e : TrailEntry) : Option (Bool × Nat × Nat) :=
  let d := t.desc
  let a := s.tableAddr c t.slot
  if d.src = srcList ∧ (!s.tableValid c t.slot ∨ s.tableRefused a) then none
  else
    match s.entryKey c d (s.table a) e.keyEntry with
    | .key _ mine o j r => if (if mine then 0xFFE else j) = e.owner then some (mine, o, r) else none
    | _ => none

/-- The row key that an entry's group was read from: NODE_ID, list index, ATTR or EDGE_INDEX. -/
def State.rawKey (s : State) (t : Trail) (e : TrailEntry) : Nat :=
  let d := t.desc
  if d.src = srcList then s.rd (d.source + 8 * e.keyEntry) 8 % 2 ^ 40
  else
    let a := d.source + 64 + 16 * (d.first + e.keyEntry)
    if d.src = srcNode then bits (s.rd a 8) 0 40
    else if d.edgeMode = 0 then bits (s.rd a 8) 40 24
    else bits (s.rd (a + 8) 8) 0 48

/-- What a retrace has come to, group by group. -/
structure RetraceRun where
  skipped : Nat
  locals : Nat
  remotes : Nat
  owners : List Nat
  clipped : Nat
  nonfinite : Nat
  maxExp : Option Int
  broken : Bool
  deriving DecidableEq, Repr

/-- Does an entry add to its group? Its group and owner name a row, and its mask is 1 (R114). -/
def State.entryReal (s : State) (t : Trail) (e : TrailEntry) : Bool :=
  e.group != 0 && e.owner != 0xFFF && (t.desc.src == srcList || s.slotReal t.desc e.idx)

/-- One group: its entries with mask 1 are converted, added, and sent home or kept for the return batch (R113 to R116); a
group without such entries sends zeros. -/
def State.retraceGroup (c : ClusterId) (d : Retrace) (t : Trail) (l : List TrailEntry) (r : State × RetraceRun) (g : Nat) :
    State × RetraceRun :=
  let s := r.1
  let q := r.2
  let all := l.filter fun e => e.group == g && e.owner != 0xFFF
  let es := all.filter (s.entryReal t)
  match all with
  | [] => r
  | e :: _ =>
    match s.groupDest c t e with
    | none =>
      (s.log (.sil c) 0x2209 3 (lohi (s.rawKey t e)), { q with skipped := q.skipped + es.length, broken := true })
    | some (mine, dst, row) =>
      let z : GroupSum := ⟨List.replicate d.elements 0, false, false, q.maxExp⟩
      let x := es.foldl (fun x e => x.addEntry (s.entryValues c d t e) d.exp) z
      let v := x.totals.map sat64
      let cl := x.clipped || v.any (·.2)
      let k : SilSection := ⟨d.step, t.slot, d.exp, d.elements⟩
      let q := { q with clipped := q.clipped + b2n cl, nonfinite := q.nonfinite + b2n x.nonfinite, maxExp := x.maxExp }
      let y : SilAdd := ⟨k, row, v.map (·.1), x.nonfinite, cl⟩
      if mine then (s.addContribution y, { q with locals := q.locals + 1 })
      else
        let u := s.sillage c
        (s.setSillage c { u with contribs := u.contribs ++ [⟨dst, y⟩] },
         { q with remotes := q.remotes + 1, owners := if q.owners.contains dst then q.owners else dst :: q.owners })

/-! ## Return batches (R115, R116) -/

/-- The sections of a step in order: ascending slot, then first use. -/
def stepSections (l : List SilSection) (step : Nat) : List SilSection :=
  (upFrom 0 8).flatMap fun s => l.filter fun x => x.step == step && x.slot == s

def contribBytes (x : SilAdd) : List Byte :=
  leBytes 8 (x.row % 2 ^ 40 + b2n x.nonfinite * 2 ^ 40 + b2n x.clipped * 2 ^ 41) ++ leBytes 8 0 ++
    x.vals.flatMap fun v => leBytes 8 (unsgn v 64)

def batchBody (step : Nat) (secs : List SilSection) (l : List SilAdd) : List Byte :=
  leBytes 1 1 ++ leBytes 1 secs.length ++ leBytes 2 0 ++ leBytes 4 step ++ leBytes 4 l.length ++ List.replicate 20 0 ++
    secs.flatMap fun k =>
      let m := l.filter fun x => x.sect == k
      leBytes 1 k.slot ++ leBytes 1 (unsgn k.exp 8) ++ leBytes 2 k.elements ++ leBytes 4 m.length ++ List.replicate 8 0 ++
        m.flatMap contribBytes

/-- After the retrace with LAST_OF_STEP: one return batch to every other member. -/
def State.sendReturns (s : State) (c : ClusterId) (step : Nat) : State :=
  let u := s.sillage c
  let secs := stepSections u.sections step
  let mine := u.contribs.filter fun x => x.add.sect.step == step
  let s := s.setSillage c { u with contribs := u.contribs.filter (fun x => x.add.sect.step != step),
                                   sections := u.sections.filter (fun x => x.step != step),
                                   finished := step :: u.finished }
  (s.members c.tile).foldl (fun s o =>
    s.post c ⟨3, o, clusterIdx c, s.field (.sil c) SIL_JOB 0 12, step, 0,
      batchBody step secs ((mine.filter fun x => x.dst == o).map (·.add))⟩) s

/-- A retrace that has passed every check. -/
def State.runRetrace (s : State) (c : ClusterId) (d : Retrace) (t : Trail) : State :=
  let b := Blk.sil c
  let all := s.entriesOf c t
  let real := all.filter (s.entryReal t)
  let k : SilSection := ⟨d.step, t.slot, d.exp, d.elements⟩
  let u := s.sillage c
  let s := s.setSillage c { u with sections := if u.sections.contains k then u.sections else u.sections ++ [k] }
  let top := all.foldl (fun m e => max m e.group) 0
  let r := (upFrom 1 top).foldl (State.retraceGroup c d t all) (s, ⟨all.length - real.length, 0, 0, [], 0, 0, none, false⟩)
  let s := r.1
  let q := r.2
  let s := (s.bump b SIL_CNT_LOCAL q.locals).bump b SIL_CNT_REMOTE q.remotes
  let s := if q.clipped = 0 then s else (s.setFlag b SIL_STATUS 7).bump b SIL_CNT_CLIPPED q.clipped
  let s := s.unitWrite c d.result
    (retraceReport 0 d.step all.length q.skipped q.locals q.remotes q.owners.length q.clipped q.nonfinite q.maxExp)
  let s := ((s.releaseTrail c t.id).bump b SIL_CNT_RETRACES).signalDone c d.done
  let s :=
    if q.broken then
      let u := s.sillage c
      (s.setSillage c { u with refused := d.step :: u.refused }).faultCluster c 0x2209 b.base false
    else s
  if d.last && !(s.sillage c).refused.contains d.step then s.sendReturns c d.step else s

/-- Drop the unparked trails whose number is below `limit` (R106): their space returns to the ring. -/
def Sillage.dropBelow (u : Sillage) (limit : Nat) : Sillage :=
  let gone (t : Trail) : Bool := !t.parked && decide (t.id < limit)
  let lost := (u.trails.filter gone).map (·.id)
  let ring := dropReleased (u.ring.map fun r => if lost.contains r.trail then { r with released := true } else r)
  { u with trails := u.trails.filter (fun t => !gone t), ring := ring, head := if ring.isEmpty then 0 else u.head }

/-- What a disabled unit drops once its retraces are done: every unparked trail and every accumulation table (R123). A trail that a haul
waits for is dropped uncounted, and the haul finishes at the Skidder's next event (DEDUCED, log entry 38). -/
def State.silDrop (s : State) (c : ClusterId) : State :=
  let u := s.sillage c
  s.setSillage c { u.dropBelow u.nextId with acc := [], held := [], owed := none }

/-- One of the retraces that were queued at a disable is done: after the last, what the disable drops goes. If ENABLE is 1
again by then, the tables are those of the new period and stay (log entry 38). -/
def State.settleDrop (s : State) (c : ClusterId) : State :=
  let u := s.sillage c
  match u.owed with
  | none => s
  | some (n, limit) =>
    if 1 < n then s.setSillage c { u with owed := some (n - 1, limit) }
    else if s.enabled (.sil c) then s.setSillage c { u.dropBelow limit with owed := none }
    else s.silDrop c

/-- The gradient rows that a retrace reads. -/
def State.gradReads (s : State) (c : ClusterId) (d : Retrace) (t : Trail) : List (Nat × Nat) :=
  ((s.entriesOf c t).filter (s.entryReal t)).map fun e =>
    (deckAddr c t.mask d.offset d.stride e.deckRow, d.elements * gradSize d.fmt)

/-- What a retrace reads of its haul's source: the entries, and a pooled haul's extension record, bag offsets and weights (R105). -/
def State.sourceReads (s : State) (t : Trail) : List (Nat × Nat) :=
  let d := t.desc
  (if d.src = srcList then (d.source, 8 * d.count) else (d.source + 64 + 16 * d.first, 16 * d.count)) ::
    if d.pool = 0 then []
    else
      let p := s.poolOf t.ext
      (t.ext, 64) :: (s.rd (t.ext + 8) 8, 4 * p.offsets.length) ::
        if d.pool = 1 then [(p.weights, (if p.wfmt = 0 then 4 else 2) * d.count)] else []

def Retrace.unreported (d : Retrace) : Bool :=
  decide (d.result % 64 ≠ 0) || decide (2 ^ 48 ≤ d.result) || !rangeBacked d.result 64

/-- What the unit reads of the retrace that it dequeues next: the descriptor, the trail's entries, the source and the gradient rows, as
far as the checks go (R111). -/
def State.retraceReads (s : State) (c : ClusterId) : List (Nat × Nat) :=
  match (s.sillage c).queue with
  | [] => []
  | a :: _ =>
    let d := s.retrace a
    (a, 64) ::
      if d.unreported then []
      else
        match s.retraceCheck c d with
        | (0, some t) => s.gradReads c d t ++ s.trailReads c t ++ s.sourceReads t
        | (_, some t) => s.trailReads c t
        | (_, none) => []

/-- The Sillage unit dequeues a retrace (R109, R111). -/
def State.retraceStart (s : State) (c : ClusterId) : State :=
  let u := s.sillage c
  match u.queue with
  | [] => s
  | a :: q =>
    let s := (s.readRanges c (s.retraceReads c)).setSillage c { u with queue := q }
    let d := s.retrace a
    let s :=
      if d.unreported then s.refuseRetrace c d 1 false
      else
        match s.retraceCheck c d with
        | (0, some t) => s.runRetrace c d t
        | (n, _) => s.refuseRetrace c d n true
    s.settleDrop c

/-! ## Receiving a return batch (R116) -/

def State.silDiscard (s : State) (c : ClusterId) (row : Nat) (malformed : Bool) : State :=
  let b := Blk.sil c
  let s := (s.bump b SIL_CNT_DISCARD).setFlag b SIL_STATUS 3
  let s := s.log b 0x2204 (if malformed then 3 else 2) [row % 2 ^ 32, row / 2 ^ 32, b2n malformed]
  if malformed then s.faultCluster c 0x2204 b.base false else s

/-- The sections of a batch with the offsets of their entries and the offset after the last; none where R115 is broken. -/
def batchSections (l : List Byte) (step : Nat) : Nat → Nat → Nat → Option (List (SilSection × Nat × Nat) × Nat)
  | 0, o, _ => some ([], o)
  | n + 1, o, last =>
    let slot := fieldAt l o 1
    let e := fieldAt l (o + 2) 2
    let m := fieldAt l (o + 4) 4
    if l.length < o + 16 ∨ 7 < slot ∨ slot < last ∨ e = 0 ∨ 4096 < e ∨ !allZero (slice l (o + 8) 8) then none
    else
      (batchSections l step n (o + 16 + m * (16 + 8 * e)) slot).map fun r =>
        ((⟨step, slot, sgn (fieldAt l (o + 1) 1) 8, e⟩, o + 16, m) :: r.1, r.2)

/-- The sections of a batch that is not malformed (R116). The header's COUNT takes no part in the check. -/
def batchForm (l : List Byte) : Option (List (SilSection × Nat × Nat)) :=
  if l.length < 32 ∨ fieldAt l 0 1 ≠ 1 ∨ 32 < fieldAt l 1 1 ∨ fieldAt l 2 2 ≠ 0 ∨ !allZero (slice l 0xC 20) then none
  else
    match batchSections l (fieldAt l 4 4) (fieldAt l 1 1) 32 0 with
    | none => none
    | some (x, e) =>
      if e ≠ l.length then none
      else if x.any fun y => (upFrom 0 y.2.2).any fun i =>
          let o := y.2.1 + i * (16 + 8 * y.1.elements)
          bits (fieldAt l o 8) 42 22 != 0 || fieldAt l (o + 8) 8 != 0 then none
      else some x

/-- Forward every contribution of a batch to its home cluster. -/
def State.forwardBatch (s : State) (l : List Byte) (x : List (SilSection × Nat × Nat)) : State :=
  x.foldl (fun s y => (upFrom 0 y.2.2).foldl (fun s i =>
    let o := y.2.1 + i * (16 + 8 * y.1.elements)
    let w := fieldAt l o 8
    let vals := (upFrom 0 y.1.elements).map fun j => sgn (fieldAt l (o + 16 + 8 * j) 8) 64
    s.addContribution ⟨y.1, bits w 0 40, vals, bit w 40, bit w 41⟩) s) s

def State.batchReceive (s : State) (c : ClusterId) : State :=
  match s.takeMsg c fun m => m.dunit == 2 with
  | none => s
  | some (m, s) =>
    let b := Blk.sil c
    let row := fieldAt m.body 48 5
    if m.job ≠ s.field b SIL_JOB 0 12 ∨ !s.enabled b then s.silDiscard c row false
    else
      match batchForm m.body with
      | none => s.silDiscard c row true
      | some x =>
        let s := (s.bump b SIL_CNT_RECEIVED).forwardBatch m.body x
        let u := s.sillage c
        s.setSillage c { u with received := (fieldAt m.body 4 4, m.src) :: u.received }

/-! ## Close and apply (R118 to R120) -/

/-- The clusters whose Sillage units belong to a job: ENABLE 1 and SIL_JOB equal (R118). -/
def State.jobUnits (s : State) (job : Nat) : List ClusterId :=
  ((upFrom 0 640).map clusterOfIdx).filter fun c => s.enabled (.sil c) && s.field (.sil c) SIL_JOB 0 12 == job

/-- A unit has done its part of a step, and of every step it began before. -/
def State.unitClosed (s : State) (c : ClusterId) (step : Nat) : Bool :=
  let u := s.sillage c
  u.finished.contains step && !u.refused.contains step && !u.openBefore step &&
    (s.members c.tile).all fun m => u.received.contains (step, m)

/-- One row of a handoff list, with its flags. -/
def handoffRow (exp : Int) (elements row : Nat) (a : AccRow) : List Byte × Bool :=
  let v := a.totals.map fun t => fromFixed t exp
  let vals := if a.nonfinite then List.replicate elements 0x7FC00000 else v.map (·.1)
  let cl := a.clipped || (!a.nonfinite && v.any (·.2))
  (pad64 (leBytes 8 (row % 2 ^ 40 + b2n a.nonfinite * 2 ^ 40 + b2n cl * 2 ^ 41) ++ leBytes 8 0 ++ vals.flatMap (leBytes 4)), cl)

/-- The home cluster hands off one table slot, unless the step is not applied for it: records, then header, then the signal (R117,
R118, R120). -/
def State.handoffSlot (s : State) (c : ClusterId) (step : Nat) (skip : List Nat) (r : ApplyRec) : State :=
  let b := Blk.sil c
  let a := match (s.sillage c).acc.find? fun a => a.is r.slot step with
    | some a => a
    | none => ⟨r.slot, step, 0, r.elements, [], false⟩
  if skip.contains r.slot then s
  else
    let rows := a.rows.map fun (p : Nat × AccRow) => handoffRow a.exp r.elements p.1 p.2
    let cl := rows.countP (·.2)
    let nf := a.rows.countP fun p => p.2.nonfinite
    let s := s.unitWrite c (r.outAddr + 64) (rows.flatMap (·.1))
    let s := s.unitWrite c r.outAddr
      (leBytes 4 step ++ leBytes 4 rows.length ++ leBytes 1 r.slot ++ leBytes 1 (unsgn a.exp 8) ++ leBytes 2 r.elements ++
        leBytes 4 cl ++ leBytes 4 nf ++ List.replicate 44 0)
    let s := s.bump b SIL_CNT_ROWS rows.length
    let s := if cl = 0 then s else (s.setFlag b SIL_STATUS 7).bump b SIL_CNT_CLIPPED cl
    let s := if nf = 0 then s else (s.setFlag b SIL_STATUS 8).bump b SIL_CNT_NONFINITE nf
    s.signalDone c r.done

/-- The step that closes is not behind another: its contributions that were held are added. -/
def State.takeHeld (s : State) (c : ClusterId) (step : Nat) : State :=
  let u := s.sillage c
  (u.held.filter fun x => x.sect.step == step).foldl State.addHome
    (s.setSillage c { u with held := u.held.filter fun x => x.sect.step != step })

/-- The table slots for which nothing of a step is applied at any home cluster (R117): all of them where a table overflowed. -/
def State.unapplied (s : State) (l : List ClusterId) (step : Nat) : List Nat :=
  if l.any fun c => (s.sillage c).overfull.contains step then upFrom 0 8
  else l.flatMap fun c => ((s.sillage c).acc.filter fun a => a.step == step && a.bad).map (·.slot)

/-- A unit closes a step: it hands off its lists, and takes up the contributions that it held. -/
def State.handoff (s : State) (c : ClusterId) (step : Nat) (skip : List Nat) : State :=
  let s := (upFrom 0 8).foldl (fun s n =>
      match (s.sillage c).applyOf n with
      | none => s
      | some r => s.handoffSlot c step skip r) s
  let u := s.sillage c
  let s := s.setSillage c { u with acc := u.acc.filter (fun a => a.step != step), finished := u.finished.filter (· != step),
                                   received := u.received.filter (fun p => p.1 != step), held := [], handed := some step }
  u.held.foldl State.addContribution s

/-- STEP_CLOSE: step `n` closes on the module when every unit of the job has done its part (R118). -/
def State.stepClose (s : State) (job step : Nat) : State :=
  let l := s.jobUnits job
  if l.isEmpty ∨ (l.all fun c => s.unitClosed c step) = false then s
  else
    let s := l.foldl (fun s c => s.takeHeld c step) s
    let skip := s.unapplied l step
    l.foldl (fun s c => s.handoff c step skip) s

/-- A write of SIL_APPLY_DONE (R119): once every unit of the job holds at least n, each Skidder's SKD_APPLIED follows. -/
def State.applyDone (s : State) (c : ClusterId) (slot v : Nat) : State :=
  let s := s.setReg (.sil c) (SIL_APPLY_DONE slot) v
  let l := s.jobUnits (s.field (.sil c) SIL_JOB 0 12)
  let vals := l.map fun k => s.reg (.sil k) (SIL_APPLY_DONE slot)
  match vals.find? fun n => vals.all fun m => atLeast32 m n with
  | none => s
  | some n =>
    l.foldl (fun s k =>
      if atLeast32 (s.reg (.skd k) (SKD_APPLIED slot)) n then s else (s.setReg (.skd k) (SKD_APPLIED slot) n).skdKick k) s

/-! ## Parking and adopting (R108) -/

def Sillage.parkable (u : Sillage) : List Trail := u.trails.filter (·.complete)

/-- Bytes a park would write. -/
def Sillage.parkBytes (u : Sillage) : Nat := 64 + sumNat (u.parkable.map fun t => 64 + t.bytes)

def parkHeader (n job bytes crc : Nat) : List Byte :=
  leBytes 4 0x4B524150 ++ leBytes 1 1 ++ leBytes 1 n ++ leBytes 2 job ++ leBytes 4 bytes ++ List.replicate 48 0 ++ leBytes 4 crc

/-- The records of a park image; `o` is the offset of the first one's entries. -/
def parkRecords : List Trail → Nat → List Byte
  | [], _ => []
  | t :: l, o =>
    leBytes 8 t.key ++ leBytes 8 t.source ++ leBytes 8 t.ext ++ leBytes 4 t.step ++ leBytes 4 t.first ++ leBytes 4 t.count ++
      leBytes 4 t.ctrl ++ leBytes 4 t.mask ++ leBytes 4 o ++ List.replicate 16 0 ++ parkRecords l (o + t.bytes)

def State.parkImage (s : State) (c : ClusterId) : List Byte :=
  let u := s.sillage c
  let l := u.parkable
  let body := parkRecords l (64 + 64 * l.length) ++ l.flatMap fun t => pad64 ((s.trailEntries c t).flatMap (leBytes 8))
  let job := s.field (.sil c) SIL_JOB 0 12
  let h crc := parkHeader l.length job u.parkBytes crc
  h (crc32c (h 0 ++ body)) ++ body

/-- Is a park done (R108)? Not while a haul with TRAIL is in progress: the record of one whose Skidder halted stays open until the unit
is disabled, and refuses every park (DEDUCED, log entry 38). -/
def State.mayPark (s : State) (c : ClusterId) : Bool :=
  s.enabled (.sil c) && (s.sillage c).trails.all (·.complete) && (s.skidder c).hauls.all fun h => !h.desc.trail

def State.parkReads (s : State) (c : ClusterId) : List (Nat × Nat) :=
  if s.mayPark c then (s.sillage c).parkable.flatMap (s.trailReads c) else []

/-- A write of SIL_PARK_HI. -/
def State.park (s : State) (c : ClusterId) (v : Nat) : State :=
  let b := Blk.sil c
  let a := queueAddr (s.reg b SIL_PARK_LO) v
  let u := s.sillage c
  if s.mayPark c then
    ((s.readRanges c (s.parkReads c)).unitWrite c a (s.parkImage c)).setSillage c
      { u with trails := u.trails.map fun t => { t with parked := true } }
  else (s.setFlag b SIL_STATUS 5).log b 0x2208 2 (lohi a)

/-- A record of an image is reopened: a trail that the unit still holds under its key gives way, and one that was not
parked is lost by it as R103 has it (log entry 38). -/
def State.giveWay (s : State) (c : ClusterId) (key : Nat) : State :=
  match (s.sillage c).trails.find? fun t => t.key == key with
  | none => s
  | some t => if t.parked then s.releaseTrail c t.id else (s.releaseTrail c t.id).countLost c key

/-- Reopen the records of an image one after another; none if records or room run out. -/
def State.adoptTrails (c : ClusterId) (a : Nat) : List Nat → State → Option State
  | [], s => some s
  | i :: l, s =>
    let f o n := s.rd (a + 64 + 64 * i + o) n
    let s := s.giveWay c (f 0 8)
    let u := s.sillage c
    let t : Trail :=
      { id := u.nextId, key := f 0 8, step := f 0x18 4, ctrl := f 0x24 4, first := f 0x1C 4, count := f 0x20 4, source := f 8 8,
        ext := f 0x10 8, mask := f 0x28 4, run := none, since := s.clock, complete := true, parked := false }
    if 32 ≤ u.trails.length then none
    else
      match u.fit (s.ringSize c) t.bytes with
      | none => none
      | some p =>
        let t := { t with run := some p }
        let entries := (upFrom 0 t.count).map fun j => s.rd (a + f 0x2C 4 + 8 * j) 8
        let s := s.setSillage c { u with trails := u.trails ++ [t], ring := u.ring ++ [⟨t.id, p, t.bytes, false⟩],
                                         head := p + t.bytes, nextId := u.nextId + 1 }
        State.adoptTrails c a l (s.completeTrail c t.id entries)

/-- What an adoption reads: the image (R108). -/
def State.adoptReads (s : State) (c : ClusterId) (v : Nat) : List (Nat × Nat) :=
  let a := queueAddr (s.reg (.sil c) SIL_ADOPT_LO) v
  let n := s.rd (a + 8) 4
  if s.enabled (.sil c) then [(a, if s.rd a 4 = 0x4B524150 ∧ rangeBacked a n then max 64 n else 64)] else []

/-- A write of SIL_ADOPT_HI; one made while ENABLE is 0 is refused (DEDUCED, log entry 38). -/
def State.adopt (s : State) (c : ClusterId) (v : Nat) : State :=
  let b := Blk.sil c
  let a := queueAddr (s.reg b SIL_ADOPT_LO) v
  let n := s.rd (a + 8) 4
  let s := s.readRanges c (s.adoptReads c v)
  let ok := s.enabled b && s.rd a 4 == 0x4B524150 && s.rd (a + 4) 1 == 1 && s.rd (a + 6) 2 == s.field b SIL_JOB 0 12 &&
    decide (64 ≤ n) &&
    s.rd (a + 0x3C) 4 == crc32c (s.readBytes a 0x3C ++ List.replicate 4 0 ++ s.readBytes (a + 64) (n - 64))
  match if ok then State.adoptTrails c a (upFrom 0 (s.rd (a + 5) 1)) s else none with
  | some s => s
  | none => (s.setFlag b SIL_STATUS 6).log b 0x2208 2 (lohi a)

/-! ## Commands -/

/-- SIL_QUEUE_HI_WRITE (R109). -/
def execSilQueueHiWrite (c : ClusterId) (v : W32) (s : State) : Host.Outcome State Fault Refusal :=
  .next (if s.powered (.sil c) then s.silQueueHi c v.toNat else s)

/-- RETRACE_START (R111); `ecc` is what protection found in what it reads (R153, R160, R444). -/
def execRetraceStart (c : ClusterId) (ecc : Ecc) (s : State) : Host.Outcome State Fault Refusal :=
  let r := s.unitRead (.sil c) c (s.retraceReads c) ecc
  .next (if r.2 then r.1 else r.1.retraceStart c)

/-- RETURN_BATCH_RECEIVE (R116). -/
def execReturnBatchReceive (c : ClusterId) (s : State) : Host.Outcome State Fault Refusal := .next (s.batchReceive c)

/-- STEP_CLOSE (R118). -/
def execStepClose (job : BitVec 12) (step : W32) (s : State) : Host.Outcome State Fault Refusal :=
  .next (s.stepClose job.toNat step.toNat)

/-- SIL_APPLY_DONE_WRITE (R119). -/
def execSilApplyDoneWrite (c : ClusterId) (slot : Fin 8) (v : W32) (s : State) : Host.Outcome State Fault Refusal :=
  .next (if s.powered (.sil c) then s.applyDone c slot.val v.toNat else s)

/-- SIL_PARK_HI_WRITE (R108). -/
def execSilParkHiWrite (c : ClusterId) (v : Checked W32) (s : State) : Host.Outcome State Fault Refusal :=
  .next (if s.powered (.sil c) then
    let r := s.unitRead (.sil c) c (s.parkReads c) v.ecc
    if r.2 then r.1 else r.1.park c v.val.toNat
  else s)

/-- SIL_ADOPT_HI_WRITE (R108). -/
def execSilAdoptHiWrite (c : ClusterId) (v : Checked W32) (s : State) : Host.Outcome State Fault Refusal :=
  .next (if s.powered (.sil c) then
    let r := s.unitRead (.sil c) c (s.adoptReads c v.val.toNat) v.ecc
    if r.2 then r.1 else r.1.adopt c v.val.toNat
  else s)

end Sys2Proof.Machine
end

