-- ==== Sys2Proof/Machine/Landing.lean ====
section
/-! DEFINITION. Landing: gradient reduction (R315 to R333). -/
namespace Sys2Proof.Machine

/-! ## Streams (R315 to R318) -/

def LndStream.packets (x : LndStream) : Nat := (x.elements + 767) / 768
/-- A stream closes once its entry is complete and every child has its ACK (R318). -/
def LndStream.isOpen (x : LndStream) : Bool := !(x.complete && x.whole.length == x.fanin)
def LndStream.is (x : LndStream) (j step stream : Nat) : Bool := x.slot == j && x.step == step && x.stream == stream
/-- Elements of packet index `i`, and its blocks. -/
def LndStream.count (x : LndStream) (i : Nat) : Nat := min 768 (x.elements - 768 * i)
def LndStream.blocks (x : LndStream) (i : Nat) : Nat := (x.count i + 255) / 256
def LndStream.accOf (x : LndStream) (i : Nat) : LndAcc := sget (fun _ => LndAcc.none_) x.acc i
def LndStream.setAcc (x : LndStream) (i : Nat) (a : LndAcc) : LndStream :=
  { x with acc := sset (fun _ => LndAcc.none_) x.acc i a }
/-- Bytes of the state area, and where the accumulators and a ROOT's result header lie (R316). -/
def LndStream.stateBytes (x : LndStream) : Nat := up64 (64 + 16 * x.packets)
def LndStream.accAddr (x : LndStream) (i : Nat) : Nat := x.dst + x.stateBytes + 6144 * i
def LndStream.resultAddr (x : LndStream) : Nat := x.accAddr x.packets

def State.putStream (s : State) (t : Fin 8) (x : LndStream) : State :=
  let l := s.landing t
  s.setLanding t { l with streams := l.streams.map fun y => if y.is x.slot x.step x.stream then x else y }

def State.stream? (s : State) (t : Fin 8) (j step stream : Nat) : Option LndStream :=
  (s.landing t).streams.find? fun x => x.is j step stream

/-- Open streams of a job slot on a tile, and the packet indexes in the on-die buffer. -/
def Landing.openOf (l : Landing) (j : Nat) : Nat := (l.streams.filter fun x => x.slot == j && x.isOpen).length
def Landing.held (l : Landing) : Nat :=
  (l.streams.map fun x => (x.acc.filter fun p => !p.2.formed && !p.2.spilled).length).foldl (· + ·) 0

/-! ## Reports (R323, R333) -/

/-- The bit of LND_STATUS of a code. -/
def lndBit (code : Nat) : Nat :=
  if code = 0x3101 then 0 else if code = 0x3102 then 1 else if code = 0x3103 then 2 else if code = 0x3104 then 3
  else if code = 0x3105 then 4 else if code = 0x3106 then 5 else if code = 0x3107 then 6 else if code = 0x3109 then 7
  else if code = 0x310A then 8 else 9

/-- An event of a stream is logged; repeats of one code for a slot and stream within a frame merge. -/
def State.lndLog (s : State) (t : Fin 8) (code level j step stream src : Nat) : State :=
  (s.setFlag (.lnd t) LND_STATUS (lndBit code)).logAs (.lnd t) code level [j + stream * 2 ^ 8, step, src] true

/-- LND_FAULT tells of a job fault of a stream, and the job is to stop. -/
def State.lndRaise (s : State) (t : Fin 8) (code j step stream : Nat) : State :=
  let b := Blk.lnd t
  (s.setReg b LND_FAULT (code % 256 + j * 2 ^ 8 + stream * 2 ^ 12 + step % 2 ^ 12 * 2 ^ 20)).faultSlot j code b.base false

/-- A job fault of a stream, logged. -/
def State.lndFault (s : State) (t : Fin 8) (code j step stream src : Nat) : State :=
  (s.lndLog t code 3 j step stream src).lndRaise t code j step stream

/-- A stream of entry `e` opens (R317): the state area is initialised, with contents the spec does not give. One that the
limit once kept from opening stays shut. -/
def State.openStream (s : State) (t : Fin 8) (j step idx : Nat) (e : PlanEntry) : State :=
  let b := Blk.lnd t
  let p := e.param
  let l := s.landing t
  let k : StreamId := ⟨j, step, bits p 0 8⟩
  if l.refused.contains k then s
  else if s.field b LND_CFG 0 9 ≤ l.openOf j then
    (s.setLanding t { l with refused := k :: l.refused }).lndFault t 0x3101 j step (bits p 0 8) 0
  else
    let x : LndStream :=
      { slot := j, job := (s.job j).job, step := step, idx := idx, stream := bits p 0 8, xfer := e.xfer, elements := e.length,
        fanin := bits p 8 4, isRoot := bits p 12 2 == 1, isLocal := bit p 14, peer := e.peer, dst := e.dst, exp := none,
        total := bits p 32 16, done := ((syncTarget e.sync).1, bits p 16 6), sources := [], whole := [], localIn := false,
        acc := [], written := 0, clippedBlocks := 0, nanBlocks := 0, maxExp := -128, complete := false }
    let fill := (List.replicate (x.stateBytes / 8) (leBytes 8 s.free)).flatten
    let s := s.useFree.setLanding t { l with streams := l.streams ++ [x] }
    (if rangeHbm x.dst x.stateBytes then s.outsideWrite x.dst fill else s).bump b LND_CNT_OPENED

/-- The REDUCE entries of a tile in a step, with their indexes. -/
def JobSlot.reduceEntries (v : JobSlot) (t : Fin 8) (step : Nat) : List (Nat × PlanEntry) :=
  let l := ((v.planFor step).map fun p => (p.tiles[t.val]?).getD []).getD []
  ((upFrom 0 l.length).zip l).filter fun p => p.2.kind == 3

/-- Every stream of a slot's current step opens (R317). -/
def State.openStep (s : State) (j : Nat) : State :=
  let v := s.job j
  tiles8.foldl (fun s t =>
    if s.enabled (.lnd t) && s.lndValid t j v.job then
      (v.reduceEntries t v.step).foldl (fun s p =>
        if (s.stream? t j v.step (bits p.2.param 0 8)).isSome then s else s.openStream t j v.step p.1 p.2) s
    else s) s

/-! ## Adding (R320, R321, R325) -/

def i32hi : Int := 2 ^ 31 - 1
def i32lo : Int := -2 ^ 31

/-- The nearer bound of a value outside 32 bits, and was it outside? -/
def sat32 (v : Int) : Int × Bool := if i32hi < v then (i32hi, true) else if v < i32lo then (i32lo, true) else (v, false)

/-- An element at the stream's exponent (R320). -/
def toFixed32 (x : XVal) (exp : Int) : Fixed :=
  match x with
  | .num s n d e =>
    let r := sat32 (XVal.num s n d (e - exp)).toIntRne
    ⟨r.1, false, r.2⟩
  | _ => ⟨0, true, false⟩

def bitCount (n : Nat) : Nat := ((upFrom 0 3).filter fun i => bit n i).length

/-- Which of a packet's three blocks hold an element that meets a test. -/
def blockMask (l : List Bool) : Nat :=
  ((upFrom 0 3).map fun k => if ((l.drop (256 * k)).take 256).any id then 2 ^ k else 0).foldl (· + ·) 0

/-- The result of one element of a ROOT (R325): FP32, and whether it was clipped. -/
def rootValue (t exp : Int) : Nat × Bool :=
  let v := fp32.encode (.num (decide (t < 0)) t.natAbs 1 exp)
  if t = 0 then (0, false)
  else if v = f32posInf then (0x7F7FFFFF, true)
  else if v = f32negInf then (0xFF7FFFFF, true)
  else (v, false)

/-- The stream header of R322. -/
def streamHeader (x : LndStream) (i nf cl summed : Nat) (maxExp : Int) : List Byte :=
  leBytes 1 x.stream ++ leBytes 1 (x.blocks i) ++ leBytes 1 nf ++ leBytes 1 cl ++ leBytes 1 (unsgn (x.exp.getD 0) 8) ++
    leBytes 1 (unsgn maxExp 8) ++ leBytes 2 summed ++ leBytes 4 x.elements ++ leBytes 4 i ++ List.replicate 240 0

/-- A NODE's output for a packet index joins the tile's resend buffer and leaves (R321, R322, R324). -/
def State.sendReduce (s : State) (t : Fin 8) (x : LndStream) (i : Nat) (payload : List Byte) : State :=
  let f := s.fabric t
  let k : XferKey := ⟨x.job, x.peer, 648 + t.val, x.step % 2 ^ 16, x.xfer⟩
  let tx := if f.tx.any fun y => y.key == k then f.tx else f.tx ++
    [{ job := x.job, dst := x.peer, flow := 648 + t.val, step := x.step, xfer := x.xfer, typ := typReduce, dtile := t.val,
       dcluster := 0, dunit := 0, base := 0, src := 0, body := [], len := 4 * x.elements, held := [], ready := [],
       next := 0, whole := 0, timer := none }]
  let tx := tx.map fun y => if y.key = k then { y with ready := y.ready ++ [(i, payload)] } else y
  let f := { f with tx := tx }
  if !s.enabled (.til t) then s
  else
    match findIdx? (fun y => y.key == k) tx 0 with
    | none => s
    | some (n, _) =>
      let s := s.setFabric t f
      if f.blocked n then s else State.injectMany t n x.packets s

/-- A NODE forms the output of packet index `i`. -/
def State.nodeOutput (s : State) (t : Fin 8) (x : LndStream) (i : Nat) : State :=
  let b := Blk.lnd t
  let a := x.accOf i
  let v := a.totals.map sat32
  let ovf := blockMask (v.map (·.2))
  let cl := Nat.lor a.clipped ovf
  let news := bitCount (Nat.lor a.saturated ovf) - bitCount a.saturated
  let wide := decide (65535 < a.summed)
  let summed := if wide then s.free % 2 ^ 16 else a.summed
  let s := if wide then s.useFree else s
  let body := (v.flatMap fun r => leBytes 4 (unsgn r.1 32))
  let s := s.putStream t (x.setAcc i { a with totals := [], formed := true })
  (s.bump b LND_CNT_CLIPPED news).sendReduce t x i
    (streamHeader x i a.nonfinite cl summed a.maxExp ++ padTo (1024 * x.blocks i) body)

/-- The result header of R326. -/
def resultHeader (x : LndStream) : List Byte :=
  leBytes 4 x.step ++ leBytes 1 x.stream ++ leBytes 1 (unsgn (x.exp.getD 0) 8) ++ leBytes 1 (unsgn x.maxExp 8) ++ leBytes 1 0 ++
    leBytes 4 x.elements ++ leBytes 4 x.total ++ leBytes 4 x.clippedBlocks ++ leBytes 4 x.nanBlocks ++ List.replicate 40 0

/-- A ROOT whose every packet index is written (R326). -/
def State.rootDone (s : State) (t : Fin 8) (x : LndStream) : State :=
  let x := { x with complete := true }
  let s := (s.putStream t x).markComplete x.slot ⟨t.val, x.idx, x.step⟩
  let s := if rangeHbm x.resultAddr 64 then s.outsideWrite x.resultAddr (resultHeader x) else s
  let s := if x.clippedBlocks ≠ 0 then s.lndLog t 0x310A 2 x.slot x.step x.stream 0 else s
  let s := if x.nanBlocks ≠ 0 then s.lndLog t 0x310B 2 x.slot x.step x.stream 0 else s
  (s.bump (.lnd t) LND_CNT_DONE).signal [⟨x.done.1, x.done.2, 1⟩]

/-- A ROOT forms the results of packet index `i` (R325). -/
def State.rootOutput (s : State) (t : Fin 8) (x : LndStream) (i : Nat) : State :=
  let a := x.accOf i
  if a.summed ≠ x.total ∨ 65535 < a.summed then
    (s.putStream t (x.setAcc i { a with totals := [], formed := true })).lndFault t 0x3105 x.slot x.step x.stream 0
  else
    let v := a.totals.map fun w => rootValue w (x.exp.getD 0)
    let nan (q : Nat) : Bool := bit a.nonfinite (q / 256)
    let ovf := blockMask (((upFrom 0 v.length).zip v).map fun p => !nan p.1 && p.2.2)
    let cl := Nat.lor a.clipped ovf
    let news := bitCount (Nat.lor a.saturated ovf) - bitCount a.saturated
    let words := ((upFrom 0 v.length).zip v).map fun p => if nan p.1 then 0x7FC00000 else p.2.1
    let at_ := x.resultAddr + 64 + 3072 * i
    let bytes := words.flatMap (leBytes 4)
    let s := if rangeHbm at_ bytes.length then s.outsideWrite at_ bytes else s
    let x := x.setAcc i { a with totals := [], formed := true }
    let x := { x with written := x.written + 1, clippedBlocks := x.clippedBlocks + bitCount cl,
                      nanBlocks := x.nanBlocks + bitCount a.nonfinite, maxExp := max x.maxExp a.maxExp }
    let s := (s.putStream t x).bump (.lnd t) LND_CNT_CLIPPED news
    if x.written = x.packets then s.rootDone t x else s

/-- Form the output of packet index `i` once every input is in (R321). -/
def State.tryOutput (s : State) (t : Fin 8) (j step stream i : Nat) : State :=
  match s.stream? t j step stream with
  | none => s
  | some x =>
    let a := x.accOf i
    if a.formed ∨ (x.isLocal ∧ !x.localIn) ∨ a.kids < x.fanin then s
    else if x.isRoot then s.rootOutput t x i
    else s.nodeOutput t x i

/-- One input of a packet index. -/
structure LndInput where
  vals : List Int
  nonfinite : Nat
  clipped : Nat
  saturated : Nat
  summed : Nat
  maxExp : Int
  kids : Nat
  deriving DecidableEq, Repr

def LndAcc.add (a : LndAcc) (n : Nat) (v : LndInput) : LndAcc :=
  let old := a.totals ++ List.replicate (n - a.totals.length) 0
  { a with totals := (old.zip (v.vals ++ List.replicate n 0)).map fun p => p.1 + p.2,
           nonfinite := Nat.lor a.nonfinite v.nonfinite, clipped := Nat.lor a.clipped v.clipped,
           saturated := Nat.lor a.saturated v.saturated, summed := a.summed + v.summed, maxExp := max a.maxExp v.maxExp,
           kids := a.kids + v.kids }

/-- Add an input; a packet index that finds the buffer of 1,024 full keeps its accumulators in the work region (R316). -/
def State.addInput (s : State) (t : Fin 8) (j step stream i : Nat) (v : LndInput) : State :=
  match s.stream? t j step stream with
  | none => s
  | some x =>
    let b := Blk.lnd t
    let old := x.accOf i
    let spills := !x.acc.any (fun p => p.1 == i) && decide (1024 ≤ (s.landing t).held)
    let a := old.add (x.count i) v
    let a := { a with spilled := a.spilled || spills }
    let s := s.putStream t (x.setAcc i a)
    let s := if spills then (s.bump b LND_CNT_SPILL).setFlag b LND_STATUS 10 else s
    let bytes := a.totals.flatMap fun w => leBytes 8 (unsgn w 64)
    if a.spilled ∧ rangeHbm (x.accAddr i) bytes.length then s.outsideWrite (x.accAddr i) bytes else s

/-! ## The local contribution (R319, R320) -/

/-- Does a contribution header break R319? A record reads from any backed address (R440). -/
def State.badContrib (s : State) (src elements : Nat) : Bool :=
  let f o n := s.rd (src + o) n
  let mb := f 1 1
  let stride := f 8 4
  !rangeBacked src 64 || mb == 0 || decide (64 < mb) || f 2 2 != 0 || f 4 4 != elements || stride % 64 != 0 ||
    decide (stride < 4 * elements) || !allZero (s.readBytes (src + 0x0C) 52) ||
    !rangeBacked src (64 + (mb - 1) * stride + 4 * elements)

/-- What Landing reads of a local contribution: its header and its gradients, one stride after another (R319). -/
def State.contribReads (s : State) (src elements : Nat) : List (Nat × Nat) :=
  (src, 64) :: (upFrom 0 (s.rd (src + 1) 1)).map fun m => (src + 64 + m * s.rd (src + 8) 4, 4 * elements)

/-- The local input of packet index `i`. -/
def State.localInput (s : State) (x : LndStream) (src i : Nat) (exp : Int) : LndInput :=
  let n := x.count i
  let mb := s.rd (src + 1) 1
  let stride := s.rd (src + 8) 4
  let elem (m q : Nat) : XVal := fp32.decode (s.rd (src + 64 + m * stride + 4 * (768 * i + q)) 4)
  let conv := (upFrom 0 n).map fun q => (upFrom 0 mb).map fun m => toFixed32 (elem m q) exp
  let exps := (upFrom 0 n).flatMap fun q => (upFrom 0 mb).map fun m =>
    match elem m q with
    | .num sg k d e => if k = 0 then (-128 : Int) else (XVal.num sg k d e).log2
    | _ => -128
  let cl := blockMask (conv.map fun l => l.any (·.clipped))
  { vals := conv.map fun l => (l.map (·.v)).foldl (· + ·) 0, nonfinite := blockMask (conv.map fun l => l.any (·.nonfinite)),
    clipped := cl, saturated := cl, summed := mb, maxExp := exps.foldl max (-128), kids := 0 }

def State.addLocal (s : State) (t : Fin 8) (x : LndStream) (src : Nat) (exp : Int) : State :=
  let b := Blk.lnd t
  let l := (upFrom 0 x.packets).map fun i => (i, s.localInput x src i exp)
  let s := s.putStream t { x with exp := some exp, localIn := true }
  let s := l.foldl (fun s p => s.addInput t x.slot x.step x.stream p.1 p.2) s
  let total (f : Nat × LndInput → Nat) : Nat := (l.map f).foldl (· + ·) 0
  let s := s.bump b LND_CNT_BLOCKS ((x.elements + 255) / 256)
  let s := s.bump b LND_CNT_NONFINITE (total fun p => bitCount p.2.nonfinite)
  let s := s.bump b LND_CNT_CLIPPED (total fun p => bitCount p.2.clipped)
  let s := if x.isRoot then s else s.signal [⟨x.done.1, x.done.2, 1⟩]
  l.foldl (fun s p => s.tryOutput t x.slot x.step x.stream p.1) s

/-- REDUCE_LOCAL_READ (R319): entry `idx` of a tile, past its beat and ready, with its stream open. -/
def execReduceLocalRead (j : Fin 16) (t : Fin 8) (idx : Nat) (found : Ecc) (s : State) :
    Host.Outcome State Fault Refusal :=
  .next (match s.dueEntry j.val t idx 3 with
    | none => s
    | some (m, e) =>
      match s.stream? t j.val m.step (bits e.param 0 8) with
      | none => s
      | some x =>
        if !s.enabled (.lnd t) || !x.isLocal || x.localIn || !s.entryReady e then s
        else
          let g := syncTarget e.sync
          let s := (s.takeWait g.1 g.2 1).markDone j.val m
          if s.badContrib e.src e.length then s.lndFault t 0x3104 j.val m.step x.stream 0
          else
            let exp := sgn (s.rd e.src 1) 8
            if x.exp.isSome ∧ x.exp ≠ some exp then s.lndFault t 0x3103 j.val m.step x.stream 0
            else
              let r := s.slotRead (.lnd t) j.val (s.contribReads e.src e.length) found
              if r.2 then r.1 else r.1.addLocal t x e.src exp)

/-! ## Reduction packets (R323, R324) -/

def State.lndDrop (s : State) (t : Fin 8) (code j step stream src : Nat) : State :=
  (s.bump (.lnd t) LND_CNT_DROP).lndLog t code 2 j step stream src

/-- A drop that raises a job fault makes one entry for each stream and code; repeats within its frame merge with it (R323,
R333). -/
def State.lndDropFault (s : State) (t : Fin 8) (code j step stream src : Nat) : State :=
  let s := s.bump (.lnd t) LND_CNT_DROP
  let l := s.landing t
  let k : LndLogged := ⟨⟨j, step, stream⟩, code, s.era⟩
  let s :=
    match l.logged.find? fun x => x.id == k.id && x.code == code with
    | none => (s.setLanding t { l with logged := k :: l.logged }).lndLog t code 3 j step stream src
    | some x =>
      if x = k then s.lndLog t code 3 j step stream src else s.setFlag (.lnd t) LND_STATUS (lndBit code)
  s.lndRaise t code j step stream

/-- Does a packet's stream header break R322 for an entry of `elements` (R323)? -/
def badReduce (p : Pkt) (elements : Nat) : Bool :=
  let h := p.payload
  let i := p.offset / 3072
  let b := (min 768 (elements - 768 * i) + 255) / 256
  let f o k := fieldAt h o k
  b == 0 || f 1 1 != b || decide (2 ^ b ≤ f 2 1) || decide (2 ^ b ≤ f 3 1) || f 6 2 == 0 || f 8 4 != elements || f 0x0C 4 != i ||
    !allZero (slice h 0x10 240)

/-- A payload with a free value for each byte of `n` elements that it does not hold: the spec checks no length of it (DESIGN CHOICE,
log entry 105). -/
def State.wholeReduce (s : State) (p : Pkt) (n : Nat) : List Byte × State :=
  let short := 256 + 4 * n - p.payload.length
  if short = 0 then (p.payload, s)
  else
    let r := State.freeBytes short s
    (p.payload ++ r.1, r.2)

/-- The input that a payload of `n` elements carries. -/
def reduceInput (h : List Byte) (n : Nat) : LndInput :=
  { vals := (upFrom 0 n).map fun q => sgn (fieldAt h (256 + 4 * q) 4) 32, nonfinite := fieldAt h 2 1, clipped := fieldAt h 3 1,
    saturated := 0, summed := fieldAt h 6 2, maxExp := sgn (fieldAt h 5 1) 8, kids := 1 }

/-- A packet of a stream that is open or remembered: the checks from Source on. -/
def State.takeReduce (s : State) (t : Fin 8) (x : LndStream) (p : Pkt) : State :=
  let b := Blk.lnd t
  let i := p.offset / 3072
  if !x.sources.contains p.src && decide (x.fanin ≤ x.sources.length) then
    s.lndDropFault t 0x3102 x.slot x.step x.stream p.src
  else
    let x := if x.sources.contains p.src then x else { x with sources := x.sources ++ [p.src] }
    let s := s.putStream t x
    let r := (s.rxOf t p.key).getD { RxXfer.fresh p.job p.src p.flow x.step p.xfer typReduce (4 * x.elements) s.beat with seen := true }
    let r := { r with timer := s.beat }
    let s := s.setRx t r
    if r.got.contains i then
      let s := s.bump b LND_CNT_DUP
      if r.complete then s.ackRx t r.key else s
    else
      let exp := sgn (fieldAt p.payload 4 1) 8
      if x.exp.isSome ∧ x.exp ≠ some exp then s.lndDropFault t 0x3103 x.slot x.step x.stream p.src
      else
        let h := s.wholeReduce p (x.count i)
        let s := h.2.putStream t { x with exp := some exp }
        let s := s.addInput t x.slot x.step x.stream i (reduceInput h.1 (x.count i))
        let s := (s.bump b LND_CNT_PKT_IN).bump b LND_CNT_BLOCKS (x.blocks i)
        let r := { r with got := i :: r.got }
        let s := s.setRx t r
        let s :=
          if r.got.length = x.packets then
            let s := (s.setRx t { r with complete := true }).ackRx t r.key
            match s.stream? t x.slot x.step x.stream with
            | some y => s.putStream t { y with whole := p.src :: y.whole }
            | none => s
          else s
        s.tryOutput t x.slot x.step x.stream i

/-- A REDUCE packet of step `step` of slot `j`: its entry is found by STREAM and XFER, and its stream opens if it is the first. -/
def State.reduceInput (s : State) (t : Fin 8) (j step : Nat) (p : Pkt) : State :=
  let sid := fieldAt p.payload 0 1
  if !s.enabled (.lnd t) then s
  else
    match ((s.job j).reduceEntries t step).find? fun q => bits q.2.param 0 8 == sid && q.2.xfer == p.xfer with
    | none => s.lndDrop t 0x3107 j step sid p.src
    | some (idx, e) =>
      if badReduce p e.length then s.lndDropFault t 0x3109 j step sid p.src
      else if (s.landing t).streams.any fun x => x.slot == j && x.stream == sid && x.isOpen && later32 step x.step then
        s.lndDrop t 0x3106 j step sid p.src
      else
        let s := if (s.stream? t j step sid).isSome then s else s.openStream t j step idx e
        match s.stream? t j step sid with
        | none => s.bump (.lnd t) LND_CNT_DROP
        | some x => s.takeReduce t x p

/-- The job and the step of a REDUCE packet; one of no running job or of a step outside the window adds nothing. -/
def State.reducePkt (s : State) (t : Fin 8) (p : Pkt) : State :=
  match s.slotOfJob p.job with
  | none => s
  | some j =>
    match stepInWindow (s.job j).step p.step with
    | none => s
    | some step => s.reduceInput t j step p

/-- REDUCE_PACKET_RECEIVE (R323). -/
def execReducePacketReceive (t : Fin 8) (s : State) : Host.Outcome State Fault Refusal :=
  .next (match s.takeArrived t typReduce with
    | none => s
    | some (p, s) => s.reducePkt t p)

/-! ## Slots and ENABLE (R329, R333) -/

/-- Every stream and record of a slot goes. -/
def State.dropStreams (s : State) (t : Fin 8) (j : Nat) : State :=
  let l := s.landing t
  let jobs := (l.streams.filter fun x => x.slot == j).map (·.job)
  let f := s.fabric t
  let s := s.setLanding t { streams := l.streams.filter fun x => x.slot != j, logged := l.logged.filter fun k => k.id.slot != j,
                            refused := l.refused.filter fun k => k.slot != j }
  s.setFabric t { f with rx := f.rx.filter fun x => !(x.typ == typReduce && jobs.contains x.job) }

/-- The Forester's write of LND_SLOT `j` (R329). -/
def State.writeLndSlot (s : State) (t : Fin 8) (j v : Nat) : State :=
  let b := Blk.lnd t
  if !s.powered b then s
  else if !bit v 12 then (s.setReg b (LND_SLOT j) (v % 2 ^ 13)).dropStreams t j
  else if (s.landing t).openOf j ≠ 0 then s.writeIgnored b
  else s.setReg b (LND_SLOT j) (v % 2 ^ 13)

/-- LND_SLOT_WRITE (R329). -/
def execLndSlotWrite (t : Fin 8) (j : Fin 16) (v : W32) (s : State) : Host.Outcome State Fault Refusal :=
  .next (s.writeLndSlot t j.val v.toNat)

def State.lndBad (s : State) (t : Fin 8) : Option Nat :=
  if inRange (s.field (.lnd t) LND_CFG 0 9) 1 256 then none else some LND_CFG

def State.lndClear (s : State) (t : Fin 8) : State :=
  let f := s.fabric t
  (s.setLanding t Landing.reset).setFabric t { f with rx := f.rx.filter fun x => x.typ != typReduce }

/-- LND_ENABLE (R333): no stream is open; LND_FAULT starts again at 0. -/
def State.lndStart (s : State) (t : Fin 8) : State := (s.lndClear t).setReg (.lnd t) LND_FAULT 0

def execLndEnable (t : Fin 8) (s : State) : Host.Outcome State Fault Refusal :=
  .next (s.enableWith (.lnd t) (s.lndBad t) fun s => s.lndStart t)

/-- LND_DISABLE (R333). -/
def execLndDisable (t : Fin 8) (s : State) : Host.Outcome State Fault Refusal :=
  .next (s.disableWith (.lnd t) fun s => s.lndClear t)

end Sys2Proof.Machine
end

