-- ==== Sys2Proof/Machine/TimeBase.lean ====
section
/-! DEFINITION. The time base: time words and the lock (R268 to R272), frames and slips (R273, R283 to R286). -/
namespace Sys2Proof.Machine

/-! ## Ports as the time base sees them -/

def State.opt (s : State) (q : PortId) : OptPort := sget (fun _ => OptPort.reset) s.opts (portIdx q)
def State.setOpt (s : State) (q : PortId) (v : OptPort) : State :=
  { s with opts := sset (fun _ => OptPort.reset) s.opts (portIdx q) v }

def ports48 : List PortId := (upFrom 0 48).map portOfIdx

def State.optState (s : State) (q : PortId) : Nat := s.field (.opt q) OPT_STATE 0 3
def State.isService (s : State) (q : PortId) : Bool := s.flag (.opt q) OPT_CTRL 16

/-- A port in a data mode (R342). -/
def State.inDataMode (s : State) (q : PortId) : Bool := s.optState q == 3 || s.optState q == 4

/-- A slice of one module, whose ports carry time words and calibration fill alone (R3). -/
def State.alone (s : State) : Bool := s.shape == 0x010101

/-- The ports that carry tokens and capacity words of the slice, one apart (R284). -/
def State.floodPorts (s : State) (but : Option PortId) : List PortId :=
  if s.alone then [] else ports48.filter fun q => s.inDataMode q && !s.isService q && but != some q

/-- A damaged control word (R342). -/
def State.badWord (s : State) (q : PortId) : State := s.bump (.opt q) OPT_CNT_CTRL_BAD

/-! ## The lock (R269 to R271) -/

def State.isMaster (s : State) : Bool := s.field .ftb FTB_CTRL 0 2 == 1
def State.setLock (s : State) (l : Nat) : State := s.setField .ftb FTB_STATUS 0 2 l

/-- Time words pass on a port in hail mode and in every data mode; on a service port never (R269, R349). -/
def State.hasTimeWords (s : State) (q : PortId) : Bool :=
  !s.isService q && (s.optState q == 1 || s.optState q == 2 || s.inDataMode q)

/-- The parent: the first listed port whose partner is locked, as its time words say (R269). -/
def State.parent (s : State) : Option PortId :=
  (((upFrom 0 4).map fun i => s.field .ftb FTB_PARENTS (8 * i) 6).find? fun m =>
    decide (m < 48) && s.hasTimeWords (portOfIdx m) && (s.opt (portOfIdx m)).partnerLocked).map portOfIdx

/-- Is a time word of the port due, 4,096 beats after its last (R269)? -/
def State.wordDue (s : State) (q : PortId) : Bool :=
  match (s.opt q).wordsSent with
  | [] => true
  | t :: _ => decide (t / 64 + 4096 ≤ s.beat)

/-- TIME_WORD_SEND (R269): not due within 4,096 beats of the port's last, and not from a port without a feed (R4). -/
def execTimeWordSend (q : PortId) (frac : Fin 64) (s : State) : Host.Outcome State Fault Refusal :=
  let p := s.opt q
  let now := s.beat * 64 + frac.val
  .next (if !s.hasTimeWords q || s.feed q == 0 || !s.wordDue q then s
    else (s.setOpt q { p with wordsSent := (now :: p.wordsSent).take 4 }).emit (.timeWord (portIdx q) now p.wordRx))

/-- A 32-bit two's-complement register value. -/
def int32 (v : Int) : Nat := unsgn v 32

/-- A parent is heard: FREE and HOLDOVER give way to ACQUIRING, and 16 offsets in a row within a beat lock (R270). DEPTH is
a free value: the spec does not say how a module learns it. -/
def State.hearParent (s : State) (q : PortId) (offset : Int) : State :=
  let s := (s.setField .ftb FTB_STATUS 8 6 (portIdx q)).setField .ftb FTB_STATUS 14 5 s.free
  let s := s.useFree
  let t := s.time
  let n := if offset.natAbs ≤ 64 then t.inRange + 1 else 0
  let s := { s with time := { t with inRange := n, lastHeard := s.clock, limitMet := false } }
  if s.lock = lockFree ∨ s.lock = lockHoldover then
    { s with time := { s.time with inRange := min n 1 } }.setLock lockAcquiring
  else if s.lock = lockAcquiring ∧ 16 ≤ n then { s with time := { s.time with wasLocked := true } }.setLock lockLocked
  else s

/-- The times of the time words sent, moved with the count (log entry 94). -/
def State.moveWords (s : State) (d : Int) : State :=
  ports48.foldl (fun s q => s.setOpt q { s.opt q with wordsSent := (s.opt q).wordsSent.map fun (t : Nat) => ((t : Int) + d).toNat }) s

/-- Correct the count by the offset (R271): a step, or a slew while a job runs. -/
def State.correct (s : State) (offset : Int) : State :=
  let n := offset / 64
  if s.anyRunning then
    if 4 * 64 < offset.natAbs then
      ((s.setFlag .ftb FTB_EVENTS 1).log .ftb 0x3084 3 [int32 offset]).faultAll 0x3084 Blk.ftb.base
    else { s with time := { s.time with slew := -n } }
  else { s with beat := ((s.beat : Int) - n).toNat, time := { s.time with slew := 0 } }.moveWords (-64 * n)

/-- The time word of the port that its parent heard last at `heard`: the newest whose round trip with one that took `d1` is
not negative (DEDUCED, log entry 94). -/
def OptPort.answered (p : OptPort) (d1 : Int) (heard : Nat) : Option Nat :=
  p.wordsSent.find? fun t => decide (0 ≤ d1 + ((heard : Int) - t))

/-- A time word arrives from a port of a follower that is its parent. Halves round down (log entry 94). -/
def State.follow (s : State) (q : PortId) (w : TimeWord) (sent now : Nat) : State :=
  let d1 : Int := (now : Int) - w.sent
  let d2 : Int := (w.heard : Int) - sent
  let delay := (d1 + d2) / 2 - sgn (s.reg (.opt q) OPT_ASYM) 32
  let offset := (d1 - d2) / 2
  let s := (s.setReg .ftb FTB_OFFSET (int32 offset)).setReg .ftb FTB_PATH_DELAY (int32 delay)
  (s.hearParent q offset).correct offset

/-- TIME_WORD_RECEIVE (R269 to R271). -/
def execTimeWordReceive (q : PortId) (w : TimeWord) (s : State) : Host.Outcome State Fault Refusal :=
  let p := s.opt q
  let now := s.beat * 64 + w.frac.val
  .next (if !s.hasTimeWords q then s
    else if w.damaged then s.badWord q
    else
      let s := s.setOpt q { p with wordRx := now, partnerLocked := w.locked }
      if s.isMaster ∨ !s.enabled .ftb ∨ s.parent ≠ some q then s
      else match p.answered ((now : Int) - w.sent) w.heard with
        | none => s.hearParent q (2 ^ 20)
        | some sent => s.follow q w sent now)

/-- HOLDOVER_ENTRY (R270): of a follower that was LOCKED, not due within 16,384 beats of the last parent. -/
def execHoldoverEntry (s : State) : Host.Outcome State Fault Refusal :=
  .next (if s.isMaster ∨ !s.enabled .ftb ∨ ¬(s.lock = lockLocked ∨ s.lock = lockAcquiring ∧ s.time.wasLocked) ∨
      s.clock < s.time.lastHeard + 16384 then s
    else { s with time := { s.time with holdSince := s.clock, limitMet := false } }.setLock lockHoldover)

/-- HOLDOVER_LIMIT (R271): after 1,000,000 beats of HOLDOVER, once. -/
def execHoldoverLimit (s : State) : Host.Outcome State Fault Refusal :=
  .next (if s.lock ≠ lockHoldover ∨ s.time.limitMet ∨ s.clock < s.time.holdSince + 1000000 then s
    else
      let s := { s with time := { s.time with limitMet := true } }
      ((s.setFlag .ftb FTB_EVENTS 0).log .ftb 0x3083 3).faultAll 0x3083 Blk.ftb.base)

/-- No time word that the ports sent is of use any more. -/
def State.forgetWords (s : State) : State := ports48.foldl (fun s q => s.setOpt q { s.opt q with wordsSent := [] }) s

/-- The pair of writes that presets the beat count, only while FREE (R269, R288). -/
def State.presetBeat (s : State) (v : Nat) : State :=
  if !s.powered .ftb then s
  else if s.lock = lockFree then
    { s with beat := v % 2 ^ 64, time := { s.time with slew := 0 } }.forgetWords
  else s.writeIgnored .ftb

/-! ## Slips (R283 to R286) -/

def State.sliceGen (s : State) : Nat := s.gen 0
def State.sliceCoord (s : State) : Nat := s.coord 0

/-- A job's slips in a step exceed 64 (R286). -/
def State.slipLimit (s : State) (j : Nat) : State :=
  ((s.setFlag .ftb FTB_EVENTS 3).log .ftb 0x3081 3 [(s.job j).job]).faultSlot j 0x3081 Blk.ftb.base false

/-- Slips are counted for a job whose current step contains the frame. -/
def State.countSlips (s : State) (n j : Nat) : State :=
  if (s.job j).running then
    let old := s.field .ftb (FTB_STEP_SLIPS j) 0 8
    let s := s.setField .ftb (FTB_STEP_SLIPS j) 0 8 (old + n)
    if old ≤ 64 ∧ 64 < old + n then s.slipLimit j else s
  else s

/-- Frame D, the current one, has at least `n` slips (R285). -/
def State.applySlip (s : State) (n src : Nat) : State :=
  let old := s.reg .ftb FTB_CUR_EXT
  if n ≤ old then s
  else
    let s := (s.setReg .ftb FTB_CUR_EXT n).bump .ftb FTB_CNT_SLIPS (n - old)
    let s := (s.setReg .ftb FTB_LAST_SLIP s.frame).setReg .ftb FTB_LAST_SRC src
    let s := { s with time := { s.time with checked := false } }
    jobSlots.foldl (fun s j => s.countSlips (n - old) j) s

def State.floodToken (s : State) (but : Option PortId) (frame x src : Nat) : State :=
  (s.floodPorts but).foldl (fun s q => s.emitOn q (.slipToken (portIdx q) s.sliceGen frame x src)) s

/-- Have LENGTH batches of a window arrived at every cluster of its tile (R280)? -/
def JobSlot.windowDone (v : JobSlot) (m : Mark) (e : PlanEntry) : Bool :=
  clusters80.all fun i =>
    let n := (v.winCounts.find? fun w => w.mark == m && w.cluster == m.tile * 80 + i.val).map (·.count) |>.getD 0
    decide (e.length ≤ n)

/-- Is an entry complete (R279, R280, R318)? -/
def State.entryDone (s : State) (j : Nat) (m : Mark) (e : PlanEntry) : Bool :=
  let v := s.job j
  if e.kind = 2 then bits e.param 0 3 == 2 || v.windowDone m e else e.kind == 0 || v.done.contains m

/-- The deadline frame of an entry of a step (R281). -/
def JobSlot.deadline (v : JobSlot) (m : Mark) (e : PlanEntry) : Option Nat :=
  (v.entryFrame m).map fun f => (f + e.deadlineOfs) % 2 ^ 32

/-- The first incomplete entry of a job whose deadline frame is the current one. A job over its limit of slips, which is to
stop, asks for no more (R286, R364). -/
def State.missed (s : State) (j : Nat) : Option PlanEntry :=
  let v := s.job j
  if !v.running || decide (64 < s.field .ftb (FTB_STEP_SLIPS j) 0 8) then none
  else v.watch.findSome? fun m =>
    match v.entry m with
    | some e => if v.deadline m e = some s.frame ∧ !s.entryDone j m e then some e else none
    | none => none

/-- The time base refuses a plan: PLAN_REFUSED and code 0x3085 (R282). -/
def State.planRefused (s : State) (a j : Nat) : State :=
  (s.setFlag .ftb FTB_EVENTS 4).log .ftb 0x3085 2 [a % 2 ^ 32, a / 2 ^ 32, j]

/-- A slot's next plan is refused by its switch step. -/
def State.refuseNext (s : State) (j : Nat) : State :=
  let a := s.pair .ftb (FTB_NEXT_LO j) (FTB_NEXT_HI j) / 64 * 64
  ((s.clearFlag .ftb (FTB_NEXT_LO j) 0).setJob j { s.job j with nextPlan := none }).planRefused a j

/-- Is switch step `w` already reached by the slot's running job (R281)? -/
def State.switchReached (s : State) (j w : Nat) : Bool := (s.job j).running && !later32 w (s.job j).step

/-- H in beats (R283). -/
def State.horizon (s : State) : Nat := s.field .ftb FTB_HORIZON 0 16 * 128

/-- A module that missed a deadline originates a slip token (R284, R286). -/
def State.originate (s : State) (e : PlanEntry) : State :=
  let x := s.reg .ftb FTB_CUR_EXT
  let s := ((s.bump .ftb FTB_CNT_SENT).setFlag .ftb FTB_EVENTS 5).log .ftb 0x3080 1 [s.frame, x, e.xfer]
  let s := { s with time := { s.time with seen := ⟨s.frame, x, s.sliceCoord⟩ :: s.time.seen } }
  (s.floodToken none s.frame x s.sliceCoord).applySlip (x + 1) s.sliceCoord

/-- CHECK_BEAT (R283): once for every end that the frame comes to have. -/
def execCheckBeat (s : State) : Host.Outcome State Fault Refusal :=
  .next (if !s.enabled .ftb ∨ !s.time.begun ∨ s.time.checked ∨ s.beat + s.horizon < s.frameEnd then s
    else
      let s := { s with time := { s.time with checked := true } }
      match jobSlots.findSome? fun j => s.missed j with
      | some e => s.originate e
      | none => s)

/-- A token that came after the end of its frame (R285): it adds no slip (R288). -/
def State.tokenLate (s : State) (frame x : Nat) : State :=
  (((s.bump .ftb FTB_CNT_DUP).setFlag .ftb FTB_EVENTS 2).log .ftb 0x3082 3 [frame, x]).faultAll 0x3082 Blk.ftb.base

/-- A token not seen before takes effect (R285). -/
def State.takeToken (s : State) (frame x src : Nat) : State :=
  let t := s.time
  if frame = s.frame then
    if x + 1 ≤ s.reg .ftb FTB_CUR_EXT then s.bump .ftb FTB_CNT_DUP
    else if s.frameEnd ≤ s.beat then s.tokenLate frame x
    else s.applySlip (x + 1) src
  else if later32 frame s.frame then
    if t.ahead.any fun a => a.frame == frame && decide (x + 1 ≤ a.n) then s.bump .ftb FTB_CNT_DUP
    else { s with time := { t with ahead := ⟨frame, x + 1, src⟩ :: t.ahead.filter fun a => a.frame != frame } }
  else if t.past.any fun a => a.frame == frame && decide (x + 1 ≤ a.n) then s.bump .ftb FTB_CNT_DUP
  else s.tokenLate frame x

/-- SLIP_TOKEN_RECEIVE (R284, R285). FTB_CNT_DUP counts no word that is discarded, and none that comes before frames run (DEDUCED,
log entry 99). -/
def execSlipTokenReceive (q : PortId) (w : TokenWord) (s : State) : Host.Outcome State Fault Refusal :=
  let frame := w.frame.toNat
  let x := w.x.toNat
  .next (if !s.inDataMode q ∨ s.isService q then s
    else if w.damaged then s.badWord q
    else if w.gen.toNat ≠ s.sliceGen then s
    else if s.time.seen.any fun a => a.frame == frame && a.n == x then s.bump .ftb FTB_CNT_DUP
    else
      let s := { s with time := { s.time with seen := ⟨frame, x, w.src.toNat⟩ :: s.time.seen } }
      let s := s.floodToken (some q) frame x w.src.toNat
      if s.enabled .ftb && s.time.begun then s.takeToken frame x w.src.toNat else s)

/-! ## ENABLE (R288) -/

def State.ftbBad (s : State) : Option Nat :=
  let l := s.field .ftb FTB_FRAME_LEN 0 13
  if 1 < s.field .ftb FTB_CTRL 0 2 then some FTB_CTRL
  else if !inRange l 8 4096 then some FTB_FRAME_LEN
  else if s.horizon < 1024 ∨ l * 512 < s.horizon then some FTB_HORIZON
  else none

/-- The frame that the count lies in, from the origin (R273); none before the origin. -/
def State.beginFrames (s : State) : State :=
  let origin := s.pair .ftb FTB_ORIGIN_LO FTB_ORIGIN_HI
  if origin ≤ s.beat then
    let k := (s.beat - origin) / s.frameLen
    let s := s.setReg .ftb FTB_FRAME (s.reg .ftb FTB_ORIGIN_FRAME + k)
    { s with time := { s.time with frameStart := origin + k * s.frameLen, begun := true, checked := false } }
  else { s with time := { s.time with begun := false } }

/-- The time base begins to run: a master is LOCKED, a follower FREE (R270). -/
def State.ftbStart (s : State) : State :=
  let s := (s.setField .ftb FTB_STATUS 8 11 0x3F).setLock (if s.isMaster then lockLocked else lockFree)
  let s := (s.setReg .ftb FTB_CUR_EXT 0)
  { s with time := { s.time with
      inRange := 0, lastHeard := s.clock, limitMet := false, wasLocked := false, seen := [], ahead := [], past := [] } }.beginFrames

def State.ftbStop (s : State) : State := (s.setField .ftb FTB_STATUS 8 11 0x3F).setLock lockFree

/-- One beat of the count passes (R268), with the slew of R271: a beat more or less in every 1,024. A count past 2^64 − 1 goes
on, and the registers show its low 64 bits (log entry 94). -/
def State.tickBeat (s : State) : State :=
  let t := s.time
  if t.slew ≠ 0 ∧ t.slewAt + 1024 ≤ s.clock then
    let d : Int := if 0 < t.slew then 1 else -1
    { s with beat := ((s.beat : Int) + 1 + d).toNat, time := { t with slew := t.slew - d, slewAt := s.clock } }
  else { s with beat := s.beat + 1 }

end Sys2Proof.Machine
end

