-- ==== Sys2Proof/Machine/Optical.lean ====
section
/-! DEFINITION. Optical ports: hail, trials and commits (R336 to R341), light and calibration (R343 to R345), changes of
mode in service (R346 to R348). -/
namespace Sys2Proof.Machine

/-! ## Modes and masks (R340, R351) -/

/-- Wavelengths of a mode, and does it use the inner code? -/
def modeWls (m : Nat) : Nat := [8, 8, 8, 4, 4, 8, 4, 2, 2, 4, 2, 1, 1, 2, 1, 1].getD m 0
def modeInner (m : Nat) : Bool := [1, 4, 8, 12].contains m

def count8 (mask : Nat) : Nat := ((upFrom 0 8).filter fun k => bit mask k).length

/-- The lowest `n` set bits of a mask of eight. -/
def lowestBits (mask n : Nat) : Nat :=
  ((((upFrom 0 8).filter fun k => bit mask k).take n).map fun k => 2 ^ k).foldl (· + ·) 0

def stOff : Nat := 0
def stHail : Nat := 1
def stTrial : Nat := 2
def stUp : Nat := 3
def stRetune : Nat := 4
def stDown : Nat := 5
def stFailed : Nat := 6

def State.setOptState (s : State) (q : PortId) (v : Nat) : State := s.setField (.opt q) OPT_STATE 0 3 v
def State.optMode (s : State) (q : PortId) : Nat := s.field (.opt q) OPT_STATE 3 4
def State.rxLocked (s : State) (q : PortId) : Nat := s.field (.opt q) OPT_STATE 8 8
def State.inUse (s : State) (q : PortId) : Nat := s.field (.opt q) OPT_STATE 16 8

/-- A mask of OPT_STATE at bit `lo`, with its copy in bit `i` of every OPT_WL. -/
def State.setMask (s : State) (q : PortId) (lo i v : Nat) : State :=
  (upFrom 0 8).foldl (fun s k => s.setField (.opt q) (OPT_WL k) i 1 (b2n (bit v k)))
    (s.setField (.opt q) OPT_STATE lo 8 v)

def State.setLocked (s : State) (q : PortId) (v : Nat) : State := s.setMask q 8 24 v
def State.setInUse (s : State) (q : PortId) (v : Nat) : State := s.setMask q 16 26 v
def State.setFeed (s : State) (q : PortId) (v : Nat) : State := s.setMask q 24 25 v

/-- The wavelengths locked at both ends. -/
def State.bothLocked (s : State) (q : PortId) : Nat := Nat.land (s.rxLocked q) (((s.opt q).partner.map (·.locked)).getD 0)

def State.agreedMargin (s : State) (q : PortId) : Nat := s.field (.opt q) OPT_MARGIN 0 16
def optMs : Nat := 1000000

/-- A fabric port that enters DOWN or FAILED while a job runs (R348). -/
def State.linkFailure (s : State) (q : PortId) (code : Nat) : State :=
  if s.isService q then s else s.faultAll code (Blk.opt q).base

/-- The level of a log entry of a link failure (R421). -/
def State.failLevel (s : State) (q : PortId) : Nat := if s.anyRunning && !s.isService q then 3 else 2

/-- Both lanes of a port send what they hold. -/
def State.pumpPort (s : State) (q : PortId) : State :=
  let m := portIdx q
  let s := State.pump m 0 ((s.portQ m).lane0.length) s
  State.pump m 1 ((s.portQ m).lane1.length) s

/-- The port runs a mode on the lowest wavelengths of a mask and is UP. -/
def State.enterMode (s : State) (q : PortId) (m mask : Nat) : State :=
  let s := (s.setOptState q stUp).setField (.opt q) OPT_STATE 3 4 m
  let s := s.setInUse q (lowestBits mask (modeWls m))
  (s.setOpt q { s.opt q with exchange := none, darkAt := none }).pumpPort q

/-! ## Hail (R336 to R338) -/

/-- Hail begins: the agreed margin goes, and the receiver scans from wavelength 0, no drop filter held on its own. -/
def State.beginHail (s : State) (q : PortId) : State :=
  let p := s.opt q
  let s := s.setOpt q { OptPort.reset with scanAt := s.beat, hailAt := s.beat, seq := p.seq, content := p.content,
                                            heaters := p.heaters, noLight := p.noLight, wordsSent := p.wordsSent, wordRx := p.wordRx,
                                            ditherAt := p.ditherAt, corrected := p.corrected }
  (((s.setOptState q stHail).setInUse q 0).setLocked q 0).setField (.opt q) OPT_MARGIN 0 16 0

def hailRole (service : Bool) : Nat := if service then 1 else 0

/-- The frame that a port sends now, SEQ apart. -/
def State.hailNow (s : State) (q : PortId) : Hail :=
  let p := s.opt q
  { typ := p.typ, role := hailRole (s.isService q), port := portIdx q, coord := s.coord q.tile,
    modes := s.field (.opt q) OPT_CTRL 0 16, locked := s.rxLocked q, feed := s.feed q,
    margin := if p.typ = 2 then p.margin else 0, mode := if p.typ = 3 then p.commit.getD 0 else 0, seq := 0,
    txLat := s.field (.opt q) OPT_LAT 0 16, rxLat := s.field (.opt q) OPT_LAT 16 16 }

/-- Both commits name the same mode: the switch follows 10 µs later (R341). -/
def OptPort.tryCommit (p : OptPort) (now : Nat) : OptPort :=
  if p.commitSent ∧ p.commit.isSome ∧ p.commitHeard = p.commit ∧ p.switchAt = none then { p with switchAt := some (now + 10000) }
  else p

/-- Is the link in the data part of a trial? -/
def State.inTrial (s : State) (q : PortId) : Bool :=
  let p := s.opt q
  p.trial.isSome && decide (p.trialAt ≤ s.beat) && decide (s.beat < p.trialAt + 100000)

/-- The 32 bytes of a hail frame (R337). -/
def hailBytes (h : Hail) : List Byte :=
  let l := leBytes 1 h.typ ++ leBytes 1 1 ++ leBytes 1 h.role ++ leBytes 1 h.port ++ leBytes 4 h.coord ++ leBytes 2 h.modes ++
    leBytes 1 h.locked ++ leBytes 1 h.feed ++ leBytes 2 h.margin ++ leBytes 1 h.mode ++ leBytes 1 h.seq ++ leBytes 2 h.txLat ++
    leBytes 2 h.rxLat ++ List.replicate 8 0
  l ++ leBytes 4 (crc32c l)

/-- The wavelength on which a port transmits in hail: the lowest fed (R336). -/
def State.hailWl (s : State) (q : PortId) : Option Nat := (upFrom 0 8).find? fun k => bit (s.feed q) k

/-- HAIL_DWELL (R336). -/
def execHailDwell (q : PortId) (s : State) : Host.Outcome State Fault Refusal :=
  let p := s.opt q
  .next (if s.optState q ≠ stHail ∨ p.tuned ∨ s.beat < p.scanAt + 100000 then s
    else s.setOpt q { p with scan := (p.scan + 1) % 8, scanAt := s.beat })

/-- HAIL_SILENT (R336). -/
def execHailSilent (q : PortId) (s : State) : Host.Outcome State Fault Refusal :=
  let p := s.opt q
  .next (if s.optState q ≠ stHail ∨ p.tuned ∨ s.beat < p.hailAt + 10 * optMs then s
    else ((s.setOpt q { p with hailAt := s.beat }).setFlag (.opt q) OPT_EVENTS 8).bump (.opt q) OPT_CNT_HAIL)

/-- The asymmetry A of a link (R343); halves round down (log entry 94). -/
def State.asymmetry (s : State) (q : PortId) (h : Hail) : Int :=
  let tx : Int := s.field (.opt q) OPT_LAT 0 16
  let rx : Int := s.field (.opt q) OPT_LAT 16 16
  ((tx - rx) + ((h.rxLat : Int) - h.txLat) + sgn (s.field (.opt q) OPT_SKEW 0 16) 16) / 2

/-- The frame that 32 bytes spell; none if it is discarded (R337). -/
def hailOf (l : List Byte) : Option Hail :=
  let f o n := fieldAt l o n
  if l.length ≠ 32 ∨ f 0x1C 4 ≠ crc32c (l.take 0x1C) ∨ f 1 1 ≠ 1 ∨ !allZero (slice l 0x14 8) then none
  else some { typ := f 0 1, role := f 2 1, port := f 3 1, coord := f 4 4, modes := f 8 2, locked := f 0xA 1, feed := f 0xB 1,
              margin := f 0xC 2, mode := f 0xE 1, seq := f 0xF 1, txLat := f 0x10 2, rxLat := f 0x12 2 }

/-- Does the partner pass the checks of R338? -/
def State.partnerOk (s : State) (q : PortId) (h : Hail) : Bool :=
  h.role == (if s.isService q then 2 else 0) &&
    (!s.flag (.opt q) OPT_PEER_PORT 6 ||
      (h.coord == s.reg (.opt q) OPT_PEER_COORD && h.port == s.field (.opt q) OPT_PEER_PORT 0 6))

/-! ## Trials and commits (R339 to R341) -/

/-- The next candidate mode at or above `lo`. -/
def State.nextTrial (s : State) (q : PortId) (lo : Nat) : Option Nat :=
  let modes := Nat.land (s.field (.opt q) OPT_CTRL 0 16) (((s.opt q).partner.map (·.modes)).getD 0)
  (upFrom lo (16 - lo)).find? fun m => bit modes m && decide (modeWls m ≤ count8 (s.bothLocked q))

/-- The margin reports have passed both ways (R339, R341). -/
def State.agree (s : State) (q : PortId) : State :=
  let p := s.opt q
  match p.marginHeard with
  | none => s
  | some h =>
    if !p.tried || !p.marginSent || p.commit.isSome then s
    else
    let m := Nat.land p.margin h
    let s := s.setField (.opt q) OPT_MARGIN 0 16 m
    match (upFrom 0 16).find? fun k => bit m k with
    | some k => s.setOpt q { p with typ := 3, commit := some k, committed := k }
    | none =>
      let s := (s.setOpt q { p with failedAt := s.beat }).setOptState q stFailed
      ((s.setFlag (.opt q) OPT_EVENTS 1).log (.opt q) 0x3202 (s.failLevel q) [portIdx q, p.margin, h]).linkFailure q 0x3202

/-- Start the next trial at `at_`, or report once there is none. -/
def State.goTrial (s : State) (q : PortId) (lo at_ : Nat) : State :=
  let p := s.opt q
  match s.nextTrial q lo with
  | some m => (s.setOpt q { p with trial := some m, trialAt := at_ }).setOptState q stTrial
  | none => (s.setOpt q { p with trial := none, tried := true, typ := 2 }).setOptState q stTrial

/-- Trials begin once both partners have accepted each other and told each other so: a port that has accepted locks drop
filters, and its frames show them (log entry 40). -/
def State.startTrials (s : State) (q : PortId) : State :=
  let p := s.opt q
  let heard : Bool := match p.partner with
    | none => false
    | some h => h.locked != 0 || h.typ != 1
  if s.optState q = stHail ∧ p.accepted ∧ p.told ∧ heard then s.goTrial q 0 s.beat else s

/-- HAIL_FRAME_SEND (R336, R337): every 256 beats in hail, from a port with a feed. -/
def execHailFrameSend (q : PortId) (s : State) : Host.Outcome State Fault Refusal :=
  let p := s.opt q
  let due := match p.sentAt with
    | none => true
    | some t => decide (t + 256 ≤ s.beat)
  .next (match s.hailWl q with
    | none => s
    | some k =>
      if !(s.optState q == stHail || s.optState q == stTrial) || !due || s.inTrial q then s
      else
        let h := s.hailNow q
        let seq := if p.content.isSome ∧ p.content ≠ some h then (p.seq + 1) % 256 else p.seq
        let p := { p with content := some h, seq := seq, sentAt := some s.beat, told := p.told || p.accepted,
                          marginSent := p.marginSent || h.typ == 2, commitSent := p.commitSent || h.typ == 3 }
        (((s.emit (.hail (portIdx q) k (hailBytes { h with seq := seq }))).setOpt q (p.tryCommit s.beat)).startTrials q).agree q)

/-- Count the codewords of a trial (R340, R351). -/
def State.countTrial (s : State) (q : PortId) (uncorrectable : Nat) (c : TrialCount) (codewords : Nat) : State :=
  let b := Blk.opt q
  (((s.bump b OPT_CNT_CW codewords).bump b OPT_CNT_CORR_SYM c.symbols).bump b OPT_CNT_UNCORR uncorrectable).bump b OPT_CNT_INNER c.inner

/-- Does mode `m` pass its trial (R339, R340)? A KP4 codeword has 544 symbols of 10 bits, 5,440 bits, and the inner code sends
128 bits for each 120. -/
def trialPasses (m uncorrectable : Nat) (c : TrialCount) (codewords : Nat) : Bool :=
  uncorrectable == 0 &&
    (if modeInner m then decide (c.bitErrors * 1000 * 120 ≤ 2 * codewords * 5440 * 128)
     else decide (c.symbols * 10000 ≤ 2 * codewords * 544))

/-- TRIAL_END (R339). -/
def execTrialEnd (q : PortId) (uncorrectable : Nat) (c : TrialCount) (codewords : Nat) (s : State) :
    Host.Outcome State Fault Refusal :=
  let p := s.opt q
  .next (match p.trial with
    | none => s
    | some m =>
      if s.optState q ≠ stTrial ∨ s.beat < p.trialAt + 100000 then s
      else
        let p := if trialPasses m uncorrectable c codewords then { p with margin := Nat.lor p.margin (2 ^ m) } else p
        ((s.countTrial q uncorrectable c codewords).setOpt q p).goTrial q (m + 1) (s.beat + 20000))

/-- A capability frame: the partner is checked, and accepted once. -/
def State.capability (s : State) (q : PortId) (h : Hail) (lockable : Nat) : State :=
  let p := s.opt q
  if p.accepted then s.startTrials q
  else if p.refusedSeq = some h.seq then s
  else if s.partnerOk q h then (s.setOpt q { p with accepted := true }).setLocked q lockable
  else
    ((s.setOpt q { p with refusedSeq := some h.seq }).setFlag (.opt q) OPT_EVENTS 0).log (.opt q) 0x3201 2 [h.coord, h.port]

/-- HAIL_FRAME_RECEIVE (R337 to R343); `lockable` are the drop filters that the receiver can lock. -/
def execHailFrameReceive (q : PortId) (raw : List Byte) (lockable : Byte) (s : State) : Host.Outcome State Fault Refusal :=
  let b := Blk.opt q
  .next (if !(s.optState q == stHail || s.optState q == stTrial) || s.inTrial q then s
    else match hailOf raw with
      | none => s.badWord q
      | some h =>
        let p := s.opt q
        let s := if p.tuned then s else s.bump b OPT_CNT_HAIL
        let s := s.setOpt q { p with tuned := true, partner := some h }
        let s := s.setReg b OPT_PARTNER h.coord
        let s := s.setReg b OPT_PARTNER_PORT (h.port % 2 ^ 6 + h.role % 4 * 2 ^ 6 + h.locked * 2 ^ 8)
        let s := s.setField b OPT_MARGIN 16 16 h.modes
        let s := s.setReg b OPT_ASYM (int32 (s.asymmetry q h))
        if h.typ = 1 then s.capability q h lockable.toNat
        else if !(s.opt q).accepted then s
        else if h.typ = 2 then
          ((s.setOpt q { s.opt q with marginHeard := some h.margin }).startTrials q).agree q
        else if h.typ = 3 then s.setOpt q ({ s.opt q with commitHeard := some h.mode }.tryCommit s.beat)
        else s)

/-- MODE_SWITCH (R341). -/
def execModeSwitch (q : PortId) (s : State) : Host.Outcome State Fault Refusal :=
  let p := s.opt q
  .next (match p.switchAt, p.commit with
    | some t, some m =>
      if s.optState q ≠ stTrial ∨ s.beat < t then s
      else (s.setOpt q { p with switchAt := none }).enterMode q m (s.bothLocked q)
    | _, _ => s)

/-- HAIL_RETRY (R341): 100 ms after FAILED. -/
def execHailRetry (q : PortId) (s : State) : Host.Outcome State Fault Refusal :=
  .next (if s.optState q ≠ stFailed ∨ s.beat < (s.opt q).failedAt + 100 * optMs then s else s.beginHail q)

/-! ## Calibration and light (R344, R345) -/

def OptPort.dark1 (p : OptPort) (k : Nat) : Bool := p.noLight.any fun x => x.1 == k

/-- Do the wavelengths in use all see no light, from within the same 2 µs? -/
def State.allDark (s : State) (q : PortId) : Bool :=
  let ts := (upFrom 0 8).filterMap fun k => if bit (s.inUse q) k then some (((s.opt q).noLight.find? fun x => x.1 == k).map (·.2)) else none
  let l := ts.filterMap id
  ts.length != 0 && l.length == ts.length && decide ((l.max?.getD 0) ≤ (l.min?.getD 0) + 2000)

/-- LIGHT_RETURN (R345). -/
def execLightReturn (q : PortId) (wls : Byte) (s : State) : Host.Outcome State Fault Refusal :=
  .next (
    let p := s.opt q
    let s := s.setOpt q { p with noLight := p.noLight.filter fun x => !bit wls.toNat x.1 }
    let p := s.opt q
    match p.darkAt with
    | none => s
    | some t =>
      if s.beat ≤ t + optMs ∧ !((upFrom 0 8).any fun k => bit (s.inUse q) k && p.dark1 k) then
        ((s.setOpt q { p with darkAt := none }).setOptState q stUp).pumpPort q
      else s)

/-- The port enters DOWN (R345, R346). -/
def State.goDown (s : State) (q : PortId) : State :=
  let s := (s.setOpt q { s.opt q with exchange := none, darkAt := none, partnerLocked := false }).setOptState q stDown
  let s := s.setFlag (.opt q) OPT_EVENTS 5
  (s.log (.opt q) 0x3206 (s.failLevel q) [portIdx q, s.optMode q, s.rxLocked q]).linkFailure q 0x3206

/-- DARK_TIMEOUT (R345): the port enters DOWN and begins hail again. -/
def execDarkTimeout (q : PortId) (s : State) : Host.Outcome State Fault Refusal :=
  .next (match (s.opt q).darkAt with
    | none => s
    | some t => if s.beat < t + optMs then s else ((s.bump (.opt q) OPT_CNT_DARK).goDown q).beginHail q)

/-! ## Changes of mode in service (R346 to R348) -/

/-- The corrected symbol counts of the eight wavelengths, which a lock report carries to the partner's modulators (R344). -/
def State.symCounts (s : State) (q : PortId) : List Nat := (upFrom 0 8).map fun k => sget (fun _ => 0) (s.opt q).corrected k

def State.sendReport (s : State) (q : PortId) (request up : Bool) (mask : Nat) : State :=
  s.emitOn q (.lockReport (portIdx q) request up mask (s.symCounts q))

/-- The port asks for an exchange with its RX_LOCKED mask. -/
def State.askExchange (s : State) (q : PortId) (up : Bool) : State :=
  (s.setOpt q { s.opt q with exchange := some ⟨up, true, s.beat, s.beat, none, 0, s.rxLocked q, 0⟩ }).sendReport q true up
    (s.rxLocked q)

/-- A downgrade starts: the port stops starting packets. -/
def State.startDown (s : State) (q : PortId) : State := (s.setOptState q stRetune).askExchange q false

/-- A wavelength in use is lost: its lock goes, and the loss is counted, reported and logged. -/
def State.noteLoss (s : State) (q : PortId) (k : Nat) : State :=
  let s := s.setLocked q (setBitOff (s.rxLocked q) k)
  ((s.bump (.opt q) OPT_CNT_LOCK_LOSS).setFlag (.opt q) OPT_EVENTS 2).log (.opt q) 0x3203 2 [portIdx q, s.optMode q, 2 ^ k]

/-- Wavelengths in use are lost, which starts one downgrade. -/
def State.loseWls (s : State) (q : PortId) (l : List Nat) : State :=
  if l = [] then s else (l.foldl (fun s k => s.noteLoss q k) s).startDown q

def State.loseWl (s : State) (q : PortId) (k : Nat) : State := s.loseWls q [k]

def State.mayLose (s : State) (q : PortId) : Bool := s.inDataMode q && (s.opt q).darkAt.isNone

/-- Can the port lose wavelength `k`? It is in use and its filter is locked. -/
def State.canLose (s : State) (q : PortId) (k : Nat) : Bool := s.mayLose q && bit (s.inUse q) k && bit (s.rxLocked q) k

/-- WAVELENGTH_LOST (R346). -/
def execWavelengthLost (q : PortId) (k : Fin 8) (s : State) : Host.Outcome State Fault Refusal :=
  .next (if s.canLose q k.val then s.loseWl q k.val else s)

/-- LIGHT_LOSS (R345): the wavelengths of a mask see no light; a dark link enters RETUNE, and of a link with light the
wavelengths in use that see none are lost. -/
def execLightLoss (q : PortId) (wls : Byte) (s : State) : Host.Outcome State Fault Refusal :=
  .next (if s.optState q = stOff then s
    else
      let p := s.opt q
      let news := (upFrom 0 8).filter fun k => bit wls.toNat k && !p.dark1 k
      let s := s.setOpt q { p with noLight := p.noLight ++ news.map fun k => (k, s.beat) }
      if !s.mayLose q then s
      else if s.allDark q then (s.setOpt q { s.opt q with darkAt := some s.beat, exchange := none }).setOptState q stRetune
      else s.loseWls q (news.filter fun k => s.canLose q k))

/-- CALIBRATION_LOST (R345): more than 1 ms without light; a wavelength in use is then lost under R346 too. -/
def execCalibrationLost (q : PortId) (k : Fin 8) (s : State) : Host.Outcome State Fault Refusal :=
  .next (match (s.opt q).noLight.find? fun x => x.1 == k.val with
    | none => s
    | some x =>
      if s.beat ≤ x.2 + optMs then s
      else if s.canLose q k.val then s.loseWl q k.val
      else s.setLocked q (setBitOff (s.rxLocked q) k.val))

/-- A feed wavelength falls below +9 dBm: the port treats it as lost (R345), until it is fed again (DEDUCED, log entry 41). -/
def State.lowFeed (s : State) (q : PortId) (k : Nat) : State :=
  let s := s.setFeed q (setBitOff (s.feed q) k)
  let s := (s.setFlag (.opt q) OPT_EVENTS 6).log (.opt q) 0x3208 2 [portIdx q, k, s.feed q]
  if s.mayLose q && bit (s.inUse q) k then s.loseWl q k else s

/-- FEED_LOW (R345). -/
def execFeedLow (q : PortId) (k : Fin 8) (s : State) : Host.Outcome State Fault Refusal :=
  .next (if s.optState q = stOff ∨ !bit (s.feed q) k.val then s else s.lowFeed q k.val)

/-! ## Calibration on live traffic (R344) -/

/-- A heater's next setting: a small step up or down, or none, as gradients say that the spec does not give (log entry 2). -/
def steer (old free : Nat) : Nat :=
  match free % 3 with
  | 0 => old
  | 1 => (old + Config.heaterStep) % 2 ^ 32
  | _ => (old + (2 ^ 32 - Config.heaterStep % 2 ^ 32)) % 2 ^ 32

/-- Heater `i` of a port, two to a wavelength, is steered. -/
def State.steerHeater (s : State) (q : PortId) (i : Nat) : State :=
  let p := s.opt q
  (s.setOpt q { p with heaters := sset (fun _ => 0) p.heaters i (steer (sget (fun _ => 0) p.heaters i) s.free) }).useFree

/-- What a decoder counted joins the port's counters (R351). -/
def State.countWords (s : State) (q : PortId) (r : WlReading) : State :=
  let b := Blk.opt q
  (((s.bump b OPT_CNT_CW r.codewords.toNat).bump b OPT_CNT_CORR_SYM r.corrected.toNat).bump b OPT_CNT_UNCORR
    r.uncorrectable.toNat).bump b OPT_CNT_INNER r.inner.toNat

/-- A drop filter of a fed wavelength that finds its resonance again in service is locked, and has held since now (R348). -/
def State.relock (s : State) (q : PortId) (k : Nat) (locked : Bool) : State :=
  if locked && s.inDataMode q && bit (s.feed q) k && !bit (s.rxLocked q) k then
    (s.setOpt q { s.opt q with heldAt := sset (fun _ => 0) (s.opt q).heldAt k s.beat }).setLocked q (setBitOn (s.rxLocked q) k)
  else s

/-- One wavelength's monitors, which its OPT_WL shows: a feed of at least +9 dBm feeds it and a lower one does not (R335, R345); both
heaters of one that is fed or locked take a step, unless it sees no light. -/
def State.dither (s : State) (q : PortId) (k : Nat) (r : WlReading) : State :=
  let s := s.countWords q r
  let s := if 36 ≤ sgn r.feed.toNat 8 then s.setFeed q (setBitOn (s.feed q) k)
    else if bit (s.feed q) k then s.lowFeed q k else s
  let p := s.opt q
  let s := s.setOpt q { p with corrected := sset (fun _ => 0) p.corrected k r.corrected.toNat }
  let s := if p.dark1 k then s else s.relock q k r.locked
  let s := s.setField (.opt q) (OPT_WL k) 0 24 (r.rx.toNat + r.feed.toNat * 2 ^ 8 + r.ser.toNat * 2 ^ 16)
  if p.dark1 k || !(bit (s.rxLocked q) k || bit (s.feed q) k) then s
  else (s.steerHeater q (2 * k)).steerHeater q (2 * k + 1)

/-- CALIBRATION_DITHER (R344): every 10 µs. -/
def execCalibrationDither (q : PortId) (readings : List WlReading) (s : State) : Host.Outcome State Fault Refusal :=
  let due := match (s.opt q).ditherAt with
    | none => true
    | some t => decide (t + 10000 ≤ s.beat)
  .next (if s.optState q = stOff ∨ !due then s
    else ((upFrom 0 8).zip readings).foldl (fun s x => s.dither q x.1 x.2)
      (s.setOpt q { s.opt q with ditherAt := some s.beat }))

/-! ## The exchange of masks (R346 to R348) -/

/-- MARGIN_LOSS (R346). -/
def execMarginLoss (q : PortId) (s : State) : Host.Outcome State Fault Refusal :=
  .next (if s.optState q = stUp then s.startDown q else s)

/-- The mode that a downgrade or an upgrade comes to, by the AND of the two masks. -/
def State.targetMode (s : State) (q : PortId) (up : Bool) (mask : Nat) : Option Nat :=
  let cur := s.optMode q
  let fits m := bit (s.agreedMargin q) m && decide (modeWls m ≤ count8 mask)
  if up then (upFrom (s.opt q).committed (cur - (s.opt q).committed)).find? fits
  else (upFrom (cur + 1) (15 - cur)).find? fits

/-- A port of a slice, for which a change of mode is a fabric capacity event. -/
def State.inSlice (s : State) (q : PortId) : Bool := !s.isService q && s.enabled (.til q.tile)

/-- A capacity word goes to every other port and waits for its frame (R347). -/
def State.spreadCapacity (s : State) (but : Option PortId) (e : CapEvent) : State :=
  let s := { s with time := { s.time with capSeen := e :: s.time.capSeen, capNext := s.time.capNext ++ [e] } }
  (s.floodPorts but).foldl (fun s q => s.emitOn q (.capacityWord (portIdx q) s.sliceGen e)) s

/-- The port originates a capacity word (R347). -/
def State.originateCapacity (s : State) (q : PortId) (old new : Nat) : State :=
  if s.inSlice q then
    let d := s.frame
    let e := if s.beat + s.horizon ≤ s.frameEnd then d + 1 else d + 2
    s.spreadCapacity none ⟨s.coord q.tile, portIdx q, old, new, d, e % 2 ^ 32⟩
  else s

/-- Both masks are known, as the two lock reports carried them: the mode follows from them. -/
def State.agreeMode (s : State) (q : PortId) (up : Bool) (own other : Nat) : State :=
  match s.targetMode q up (Nat.land own other) with
  | none => if up then s.setOpt q { s.opt q with exchange := none } else s.goDown q
  | some m =>
    let s := s.setOpt q { s.opt q with exchange := some ⟨up, false, s.beat, s.beat, some m, s.beat, own, other⟩ }
    if up then s else s.originateCapacity q (s.optMode q) m

/-- The partner's mask and its corrected symbol counts, as a lock report brings them; a wavelength that it locked again has held
since now. -/
def OptPort.hearReport (p : OptPort) (r : LockReport) (now : Nat) : OptPort :=
  let mask := r.mask.toNat
  let old := (p.partner.map (·.locked)).getD 0
  let news := (upFrom 0 8).filter fun k => bit mask k && !bit old k
  { p with partner := p.partner.map fun h => { h with locked := mask }, partnerCorrected := r.corrected.map (·.toNat),
           heldAt := news.foldl (fun m k => sset (fun _ => 0) m k now) p.heldAt }

/-- The exchange in progress, if it has agreed on a mode in answer to such a request with this mask. -/
def OptPort.settledOn (p : OptPort) (up : Bool) (mask : Nat) : Option Exchange :=
  p.exchange.filter fun x => !x.waiting && x.up == up && x.mode.isSome && x.other == mask

/-- The exchange that waits for its answer. -/
def OptPort.asked (p : OptPort) (up : Bool) : Option Exchange := p.exchange.filter fun x => x.waiting && x.up == up

/-- LOCK_REPORT_RECEIVE (R346, R348); a repeated request is answered again and changes nothing else. -/
def execLockReportReceive (q : PortId) (kind : ReportKind) (r : LockReport) (damaged : Bool) (s : State) :
    Host.Outcome State Fault Refusal :=
  .next (if !s.inDataMode q || (s.opt q).darkAt.isSome then s
    else if damaged then s.badWord q
    else
      let p := s.opt q
      let mask := r.mask.toNat
      let s := s.setOpt q (p.hearReport r s.beat)
      match kind with
      | .answer => match p.exchange with
        | some x => if x.waiting then s.agreeMode q x.up x.own mask else s
        | none => s
      | .down =>
        match p.settledOn false mask, p.asked false with
        | some x, _ => s.sendReport q false false x.own
        | none, some x => s.agreeMode q false x.own mask
        | none, none => ((s.setOptState q stRetune).sendReport q false false (s.rxLocked q)).agreeMode q false (s.rxLocked q) mask
      | .up =>
        match p.settledOn true mask, p.asked true with
        | some x, _ => s.sendReport q false true x.own
        | none, some x => s.agreeMode q true x.own mask
        | none, none =>
          if s.optState q = stUp ∧ s.flag (.opt q) OPT_CTRL 17 then
            (s.sendReport q false true (s.rxLocked q)).agreeMode q true (s.rxLocked q) mask
          else s)

/-- LOCK_REPORT_REPEAT (R342). -/
def execLockReportRepeat (q : PortId) (s : State) : Host.Outcome State Fault Refusal :=
  .next (match (s.opt q).exchange with
    | none => s
    | some x =>
      if !x.waiting ∨ s.beat < x.lastSent + 256 then s
      else (s.setOpt q { s.opt q with exchange := some { x with lastSent := s.beat } }).sendReport q true x.up x.own)

/-- DOWNGRADE_TIMEOUT (R346): no answer in 20 µs; an upgrade's request lapses (log entry 41). -/
def execDowngradeTimeout (q : PortId) (s : State) : Host.Outcome State Fault Refusal :=
  .next (match (s.opt q).exchange with
    | none => s
    | some x =>
      if !x.waiting ∨ s.beat < x.since + 20000 then s
      else if x.up then s.setOpt q { s.opt q with exchange := none }
      else s.goDown q)

/-- A downgrade leaves a mode: what the wavelengths held before it counts no more (DEDUCED, log entry 41). -/
def OptPort.heldAnew (p : OptPort) (now : Nat) : OptPort :=
  { p with heldAt := (upFrom 0 8).foldl (fun m k => sset (fun _ => 0) m k now) p.heldAt }

/-- DOWNGRADE_SWITCH (R346): 4 µs after the exchange. -/
def execDowngradeSwitch (q : PortId) (s : State) : Host.Outcome State Fault Refusal :=
  .next (match (s.opt q).exchange with
    | none => s
    | some x =>
      match x.mode with
      | none => s
      | some m =>
        if x.up ∨ s.beat < x.agreedAt + 4000 then s
        else
          let old := s.optMode q
          let s := (s.setOpt q ((s.opt q).heldAnew s.beat)).enterMode q m (Nat.land x.own x.other)
          ((s.bump (.opt q) OPT_CNT_DOWNGRADE).setFlag (.opt q) OPT_EVENTS 3).log (.opt q) 0x3204 2
            [portIdx q, old + m * 2 ^ 8, s.inUse q])

/-- Have the wavelengths of mode `m` held their locks for 10 ms (R348)? -/
def State.heldLong (s : State) (q : PortId) (m : Nat) : Bool :=
  (upFrom 0 8).all fun k => !bit (lowestBits (s.bothLocked q) (modeWls m)) k ||
    decide (sget (fun _ => 0) (s.opt q).heldAt k + 10 * optMs ≤ s.beat)

/-- UPGRADE_REQUEST (R348): a higher mode has held for 10 ms. -/
def execUpgradeRequest (q : PortId) (s : State) : Host.Outcome State Fault Refusal :=
  .next (match s.targetMode q true (s.bothLocked q) with
    | none => s
    | some m =>
      if s.optState q ≠ stUp ∨ !s.flag (.opt q) OPT_CTRL 17 ∨ (s.opt q).exchange.isSome ∨ !s.heldLong q m then s
      else s.askExchange q true)

/-- At a frame boundary an upgrade agreed at least 256 beats before takes effect (R348). -/
def State.upgradeAt (s : State) (q : PortId) : State :=
  match (s.opt q).exchange with
  | none => s
  | some x =>
    match x.mode with
    | none => s
    | some m =>
      if !x.up ∨ x.waiting ∨ s.time.frameStart < x.agreedAt + 256 then s
      else
        let old := s.optMode q
        let s := s.enterMode q m (Nat.land x.own x.other)
        let s := ((s.bump (.opt q) OPT_CNT_UPGRADE).setFlag (.opt q) OPT_EVENTS 4).log (.opt q) 0x3205 1
          [portIdx q, old + m * 2 ^ 8, s.inUse q]
        s.originateCapacity q old m

/-! ## ENABLE (R336, R351) -/

/-- Are the service rings invalid? -/
def State.ringsBad (s : State) (q : PortId) : Option Nat :=
  let b := Blk.opt q
  let ring lo hi i :=
    let n := s.field b OPT_SVC_CFG i 4
    if n < 4 then some OPT_SVC_CFG else if rangeDram (s.pair b lo hi) (16 * 2 ^ n) then none else some lo
  match ring OPT_SVC_TX_LO OPT_SVC_TX_HI 0 with
  | some o => some o
  | none => ring OPT_SVC_RX_LO OPT_SVC_RX_HI 4

def State.optBad (s : State) (q : PortId) : Option Nat :=
  if s.field (.opt q) OPT_CTRL 0 16 = 0 then some OPT_CTRL
  else if s.isService q then (if q.p = 5 then s.ringsBad q else some OPT_CTRL)
  else none

/-- A port begins hail with the feed that it finds. -/
def State.optStart (s : State) (q : PortId) (fed : Nat) : State := (s.setFeed q fed).beginHail q

/-- The transmitter stops, calibration is lost and the agreed margin cleared. -/
def State.optStop (s : State) (q : PortId) : State :=
  let s := ((s.setOpt q OptPort.reset).setOptState q stOff).setLocked q 0
  (s.setInUse q 0).setField (.opt q) OPT_MARGIN 0 16 0

end Sys2Proof.Machine
end

