-- ==== Sys2Proof/Machine/Events.lean ====
section
/-! DEFINITION. What the Forester reports and keeps: interrupts, host events (R383), the module state (R381), Tally's
ring (R418 to R423) and the roll-up (R425). -/
namespace Sys2Proof.Machine

/-! ## Interrupts (R368, R372) -/

abbrev MSIX_TABLE : Nat := 0x1000
abbrev MSIX_PBA : Nat := 0x1800

/-- Signal an MSI-X vector; a vector masked in the table sets its pending bit, as PCIe has it (log entry 43). -/
def State.msix (s : State) (v : Nat) : State :=
  if s.flag .mbx (MSIX_TABLE + 16 * v + 12) 0 then s.setFlag .mbx (MSIX_PBA + v / 32 * 4) (v % 32)
  else s.emit (.msix v)

/-- A bit of MBX_EVENTS is set; the interrupt follows if it was clear (R383). -/
def State.hostEvent (s : State) (i : Nat) : State :=
  if !s.mainOn || s.flag .mbx MBX_EVENTS i then s
  else
    let s := s.setFlag .mbx MBX_EVENTS i
    if s.flag .mbx MBX_EVENT_CFG 0 then s.msix (s.field .mbx MBX_EVENT_CFG 1 6) else s

def evCapacity : Nat := 0
def evStopped : Nat := 1
def evFaulted : Nat := 2
def evLookout : Nat := 3
def evTally : Nat := 4

/-- A fabric capacity event is kept for EVENT_READ: the last sixteen (R383). -/
def State.capRecord (s : State) (e : CapEvent) : State :=
  let l := s.foe.caps ++ [e]
  { s with foe := { s.foe with caps := l.drop (l.length - 16) } }

/-! ## The module state (R381) -/

def stStandby : Nat := 0
def stRom : Nat := 1
def stLoaded : Nat := 2
def stReady : Nat := 3
def stJoined : Nat := 4
def stRunningModule : Nat := 5
def stStopped : Nat := 6
def stFaultedModule : Nat := 7

/-- The module state code, derived from the stage and the job slots. -/
def State.moduleState (s : State) : Nat :=
  if !s.mainOn then stStandby
  else
    match s.foe.stage with
    | .rom => stRom
    | .loaded => stLoaded
    | st =>
      if jobSlots.any fun j => (s.job j).stopped == some .fault && (s.job j).snapHeld then stFaultedModule
      else if s.anyRunning then stRunningModule
      else if jobSlots.any fun j => (s.job j).stopped.isSome then stStopped
      else if st = .joined then stJoined else stReady

/-- A bit per slot whose job runs. -/
def State.runningMask (s : State) : Nat := (jobSlots.map fun j => if (s.job j).running then 2 ^ j else 0).foldl (· + ·) 0

/-! ## Tally (R418 to R423) -/

def tallySlots : Nat := 8192

/-- An entry enters the ring and takes its sequence number; the oldest leaves a full ring (R418). -/
def State.ringPut (s : State) (e : TallyEntry) : State :=
  let l := s.tally.ring ++ [e]
  { s with tally := { s.tally with ring := l.drop (l.length - tallySlots) } }.bump .tly TLY_HEAD

/-- May entry `e` merge into `x` (R422)? -/
def TallyEntry.mergesInto (e x : TallyEntry) : Bool :=
  x.code == e.code && x.source == e.source && x.args[0]? == e.args[0]? && x.inFrame == e.inFrame && x.era == e.era

/-- The index of the ring entry that takes an event whose rule permits merging: the latest of the last 64 (R422). -/
def State.mergeAt (s : State) (e : TallyEntry) : Option Nat :=
  let r := s.tally.ring
  let n := r.length - 64
  if !e.mergeable then none
  else (findIdx? (fun x => e.mergesInto x) (r.drop n).reverse 0).map fun p => r.length - 1 - p.1

/-- Tally takes an entry (R422, R423). -/
def State.tallyTake (s : State) (e : TallyEntry) : State :=
  let s := match s.mergeAt e with
    | some i =>
      let r := s.tally.ring
      { s with tally := { s.tally with ring := match r[i]? with
          | some x => r.set i { x with repeats := min 255 (x.repeats + 1) }
          | none => r } }.bump .tly TLY_CNT_MERGED
    | none => s.ringPut e
  if 3 ≤ e.level then s.hostEvent evTally else s

/-- TALLY_ENTRY_ACCEPT (R423): one queued entry is accepted. -/
def execTallyEntryAccept (s : State) : Host.Outcome State Fault Refusal :=
  .next (match s.tally.queue with
    | [] => s
    | e :: q => { s with tally := { s.tally with queue := q } }.tallyTake e)

/-- TALLY_DISCARD_REPORT (R423): once the queue is empty, Tally counts what it discarded. -/
def execTallyDiscardReport (s : State) : Host.Outcome State Fault Refusal :=
  .next (if s.tally.queue ≠ [] ∨ s.tally.lostSince = 0 then s
    else
      let era := s.era
      let e : TallyEntry :=
        { beat := s.beat, cycle := s.free % 2 ^ 32, source := Blk.tly.base, code := 0x0120, level := 2,
          untimed := s.lock != lockLocked, repeats := 0, args := [s.tally.lostSince % 2 ^ 32, 0, 0], inFrame := era.1,
          era := era.2, mergeable := false }
      let s := s.useFree
      { s with tally := { s.tally with lostSince := 0 } }.ringPut e)

/-- The sequence number of the oldest entry held (R424). -/
def State.tallyOldest (s : State) : Nat := (s.reg .tly TLY_HEAD + (2 ^ 32 - s.tally.ring.length)) % 2 ^ 32

/-- The 32 bytes of an entry (R419). -/
def TallyEntry.bytes (e : TallyEntry) : List Byte :=
  leBytes 8 e.beat ++ leBytes 4 e.cycle ++ leBytes 4 e.source ++ leBytes 2 e.code ++
    leBytes 1 (e.level + b2n e.untimed * 128) ++ leBytes 1 e.repeats ++ e.args.flatMap (leBytes 4)

/-- The entry of a sequence number, if the ring holds it. -/
def State.tallyEntry (s : State) (seq : Nat) : Option TallyEntry :=
  s.tally.ring[(seq + (2 ^ 32 - s.tallyOldest)) % 2 ^ 32]?

/-! ## The roll-up (R425) -/

/-- The counters that roll-up entry `e` sums. -/
def rolled (e : Nat) (b : Blk) (o : Nat) : Bool :=
  match e, b with
  | 0, .cor _ => o == MTX_CNT_DENSE_CYC || o == MTX_CNT_THIN_CYC
  | 1, .cor _ => o == VEC_CNT_BUSY
  | 2, .cru _ => o == CRU_CNT_FETCHES
  | 3, .skd _ => o == SKD_CNT_PAGES
  | 4, .til _ => o == TIL_CNT_TX
  | 5, .til _ => decide (TIL_CNT_DROP_HDR ≤ o) && decide (o ≤ TIL_CNT_DROP_STEP)
  | 6, .til _ => o == TIL_CNT_RESENT || o == TIL_CNT_ACK_TO
  | 7, .opt _ => o == OPT_CNT_UNCORR
  | 8, .opt _ => o == OPT_CNT_DOWNGRADE
  | 9, .cor _ => o == COR_CNT_SCRATCH_CE
  | 9, .cch _ => o == CCH_CNT_CE
  | 10, .hbc .. => o == HBC_CNT_CE
  | 10, .lpc .. => o == HBC_CNT_CE
  | 11, .hbc .. => o == HBC_CNT_UE
  | 11, .lpc .. => o == HBC_CNT_UE
  | _, _ => false

def rolledAt (e a : Nat) : Bool :=
  match blkOfAddr a with
  | some (b, o) => rolled e b o
  | none => false

def rollEntries : List Nat := upFrom 0 12

/-- How much the counters of entry `e` have advanced since the last refresh, each modulo 2^32. -/
def State.rollDelta (s : State) (e : Nat) : Nat :=
  let prev := s.tally.rollPrev
  let now (a : Nat) : Nat := (sget (fun _ => (0 : W32)) s.regs a).toNat
  let was (a : Nat) : Nat := (sget (fun _ => (0 : W32)) prev a).toNat
  let keys := (s.regs.map (·.1)).filter (rolledAt e) ++
    ((prev.map (·.1)).filter fun a => rolledAt e a && !(s.regs.any fun p => p.1 == a))
  sumNat (keys.map fun a => (now a + (2 ^ 32 - was a)) % 2 ^ 32)

/-- The Forester refreshes the roll-up (R425). -/
def State.rollRefresh (s : State) : State :=
  if !s.mainOn then s
  else
    let t := s.tally
    let add (e : Nat) : Nat :=
      if e = 12 then t.jobFaults else if e = 13 then s.clock - t.rollMark else s.rollDelta e
    let totals := (upFrom 0 14).map fun e => (t.rollTotal.getD e 0 + add e) % 2 ^ 64
    { s with tally := { t with rollTotal := totals, rollPrev := s.regs.filter (fun p => rollEntries.any fun e => rolledAt e p.1),
                               rollMark := s.clock, jobFaults := 0 } }.setReg .tly TLY_ROLL_BEAT s.beat

/-- ROLLUP_REFRESH (R425): every 1,048,576 beats while the main domain is powered. -/
def execRollupRefresh (s : State) : Host.Outcome State Fault Refusal :=
  .next (if !s.mainOn ∨ s.clock < s.tally.rollAt + 1048576 then s
    else { s with tally := { s.tally with rollAt := s.tally.rollAt + 1048576 } }.rollRefresh)

/-! ## Capacity words (R347) -/

/-- A capacity word is logged and kept for EVENT_READ once. -/
def State.capFirst (s : State) (q : PortId) (e : CapEvent) : State :=
  if s.time.capLogged.contains e then s
  else
    let s := s.log (.opt q) 0x3207 1 [e.port, e.oldMode + e.newMode * 2 ^ 16, e.coord]
    { s with time := { s.time with capLogged := e :: s.time.capLogged } }.capRecord e

/-- A capacity word is recorded on a port, and the host is told; a word new to the module is flooded on. -/
def State.takeCapacity (s : State) (q : PortId) (e : CapEvent) : State :=
  let s := s.capFirst q e
  (if s.time.capSeen.contains e then s else s.spreadCapacity (some q) e).hostEvent evCapacity

/-- CAPACITY_WORD_RECEIVE (R347). -/
def execCapacityWordReceive (q : PortId) (w : CapWord) (s : State) : Host.Outcome State Fault Refusal :=
  .next (if !s.inDataMode q ∨ s.isService q then s
    else if w.damaged then s.badWord q
    else if w.gen.toNat ≠ s.sliceGen then s
    else
      let e : CapEvent := ⟨w.coord.toNat, w.port.val, w.oldMode.val, w.newMode.val, w.origin.toNat, w.frame.toNat⟩
      let b := Blk.opt q
      let s := (s.setFlag b OPT_EVENTS 7).setReg b OPT_CAP_LOG
        (e.port + e.oldMode * 2 ^ 6 + e.newMode * 2 ^ 10 + e.frame % 2 ^ 18 * 2 ^ 14)
      s.takeCapacity q e)

end Sys2Proof.Machine
end

