-- ==== Sys2Proof/Machine/Access.lean ====
section
/-! DEFINITION. Reading the control space (R8, R431, R436, R438): the registers that show other state, and what a read
clears or latches. -/
namespace Sys2Proof.Machine

/-! ## Statuses as numbers -/

def Status.index : Status → Nat
  | .ok => 0 | .badArg => 1 | .unknownOpcode => 2 | .versionMismatch => 3 | .fenced => 4 | .wrongState => 5
  | .notPermitted => 6 | .noResource => 7 | .verifyFailed => 8 | .busy => 9 | .timeout => 10

/-- The number that a completion's STATUS field holds (log entry 7). -/
def Status.code (x : Status) : Nat := (Config.statusNumber x.index).toNat

/-! ## Mailboxes as words (R371) -/

def State.box (s : State) (n : Nat) : Mailbox := sget (fun _ => Mailbox.reset) s.foe.boxes n
def State.setBox (s : State) (n : Nat) (v : Mailbox) : State :=
  { s with foe := { s.foe with boxes := sset (fun _ => Mailbox.reset) s.foe.boxes n v } }

def payloadZero : Nat → Byte := fun _ => 0

def Mailbox.flags (m : Mailbox) : Nat := b2n m.own + b2n m.irq * 2 + m.vector * 4

/-- Word at byte offset `o` of a mailbox: header, then payload. -/
def Mailbox.word (m : Mailbox) (o : Nat) : Nat :=
  if o = 0 then m.opcode + (match m.status with | some x => x.code | none => 0) * 2 ^ 16
  else if o = 4 then m.seq
  else if o = 8 then m.flags
  else if o = 0x0C then m.version
  else if o = 0x10 then m.length
  else if o = 0x14 then m.resultLength
  else if o = 0x18 then m.timeout
  else if o = 0x1C then m.detail
  else if 0x40 ≤ o ∧ o < 0x1040 then leVal (sgetMany payloadZero m.payload (o - 0x40) 4)
  else 0

/-- The bits of a header word that are reserved. -/
def spareBits (o v : Nat) : Nat :=
  if o = 8 then v / 2 ^ 8 * 2 ^ 8 else if o = 0x0C then v / 2 ^ 16 * 2 ^ 16 else if 0x20 ≤ o ∧ o < 0x40 then v else 0

/-- The reserved bits that the words of a handed-over header hold. -/
def spareOf (h : Handover) : SMap Nat :=
  h.reserved.foldl (fun m p => sset (fun _ => 0) m p.1 (spareBits p.1 p.2)) []

/-- A mailbox after a write of the word at byte offset `o`. OWN passes by the handover and the completion alone, and the Forester's
own fields are not written (R371). -/
def Mailbox.put (m : Mailbox) (o v : Nat) : Mailbox :=
  let m := if o < 0x40 then { m with spare := sset (fun _ => 0) m.spare o (spareBits o v) } else m
  if o = 0 then { m with opcode := v % 2 ^ 16, status := none }
  else if o = 4 then { m with seq := v }
  else if o = 8 then { m with irq := bit v 1, vector := bits v 2 6 }
  else if o = 0x0C then { m with version := v % 2 ^ 16 }
  else if o = 0x10 then { m with length := v }
  else if o = 0x18 then { m with timeout := v }
  else if 0x40 ≤ o ∧ o < 0x1040 then { m with payload := ssetMany payloadZero m.payload (o - 0x40) (leBytes 4 v) }
  else m

/-! ## Cores -/

def isWait (q : List QEntry) : Option Nat :=
  match q with
  | .wait o _ due _ :: _ => if due = 0 then none else some o
  | _ => none

def waitBits (w : Option Nat) : Nat :=
  match w with
  | some o => 1 + o * 2
  | none => 0

/-- SYN_STATE (R265). -/
def State.synState (s : State) (k : CoreId) : Nat :=
  let c := s.core k
  let own := match c.stall with | .swait o _ _ _ => some o | _ => none
  waitBits own + waitBits (isWait c.mtxQ) * 2 ^ 7 + waitBits (isWait c.vecQ) * 2 ^ 14 + waitBits (isWait c.dmaQ) * 2 ^ 21

/-- COR_SLOTS (R170). -/
def State.corSlots (s : State) (k : CoreId) : Nat :=
  let c := s.core k
  let pf := (c.slots.filter slotIsPrefetch).length
  c.slots.length + (c.slots.filter slotIsDma).length * 2 ^ 6 + pf * 2 ^ 12 + c.dmaRun.length * 2 ^ 18 + (c.dmaQ.filter isDmaEntry).length * 2 ^ 21

def groups4 : List (Fin 4) := [0, 1, 2, 3]

/-- MTX_STATE (R195): no instruction is running between commands. -/
def State.mtxState (s : State) (k : CoreId) : Nat :=
  let open_ := sumNat (groups4.map fun g => b2n (s.group k g).isOpen * 2 ^ g.val)
  let pair (g : Fin 4) : Nat := b2n ((s.group k g).isOpen && (s.group k g).kind == 2)
  open_ + pair 0 * 2 ^ 10 + pair 2 * 2 ^ 11

/-- The group that MTX_ACC_SEL shows: the even one of an FP64 pair. -/
def State.accGroup (s : State) (k : CoreId) : Group :=
  let g : Fin 4 := Fin.ofNat 4 (s.field (.cor k) MTX_ACC_SEL 0 2)
  if s.pairedAway k g then s.group k (partner g) else s.group k g

def State.accStack (s : State) (k : CoreId) : List (Nat × Nat) :=
  (s.accGroup k).stack (s.field (.cor k) MTX_ACC_SEL 2 4) (s.field (.cor k) MTX_ACC_SEL 6 6)

/-- MTX_ACC_DATA and MTX_ACC_INFO (R188). -/
def State.accData (s : State) (k : CoreId) : Nat :=
  match (s.accStack k).reverse[s.field (.cor k) MTX_ACC_SEL 12 4]? with
  | some (v, _) => if (s.accGroup k).kind = 2 ∧ s.flag (.cor k) MTX_ACC_SEL 16 then bits v 32 32 else bits v 0 32
  | none => 0

def State.accInfo (s : State) (k : CoreId) : Nat :=
  let st := s.accStack k
  let top := match st with | (_, l) :: _ => l | [] => 0
  st.length + top * 2 ^ 5 + (s.accGroup k).kcount * 2 ^ 10

/-- VEC_STATE (R237). -/
def State.vecState (s : State) (k : CoreId) : Nat :=
  let c := s.core k
  c.vl + c.vfmt * 2 ^ 8 + c.vecQ.length * 2 ^ 11

/-- The key of a vector register's word. -/
def State.vecSel (s : State) (k : CoreId) : Nat :=
  s.field (.cor k) VEC_REG_SEL 0 5 * 64 + s.field (.cor k) VEC_REG_SEL 5 6

/-! ## Cluster units -/

def State.cruBusy (s : State) (c : ClusterId) : Bool :=
  let u := s.cruiser c
  u.plot.isSome || !u.queue.isEmpty || !u.serves.isEmpty

def State.cruActive (s : State) (c : ClusterId) : Nat :=
  let u := s.cruiser c
  b2n (s.cruBusy c) + b2n (!u.serves.isEmpty) * 2 + (match u.plot with | some p => p.hop | none => 0) * 4 + u.running.length * 2 ^ 9

def State.skdBusy (s : State) (c : ClusterId) : Bool :=
  let u := s.skidder c
  !u.hauls.isEmpty || !u.queue.isEmpty || !u.serves.isEmpty

/-- The busiest bank's slots. -/
def Skidder.hot (u : Skidder) : Nat := (u.running.map u.bankCount).foldl max 0

def State.skdActive (s : State) (c : ClusterId) : Nat :=
  let u := s.skidder c
  b2n (s.skdBusy c) + b2n (!u.serves.isEmpty) * 2 + u.running.length * 4 + u.hot * 2 ^ 13

/-- A trail whose record is open and which waits for no space. -/
def Trail.opened (t : Trail) : Bool := !t.waiting

/-- A retrace is queued, or a trail is being written (R122). -/
def State.silBusy (s : State) (c : ClusterId) : Bool :=
  let u := s.sillage c
  !u.queue.isEmpty || u.trails.any fun t => t.opened && !t.complete

def State.silActive (s : State) (c : ClusterId) : Nat :=
  let u := s.sillage c
  b2n (s.silBusy c) + b2n (u.trails.any (·.waiting)) * 4 + b2n (!u.finished.isEmpty) * 8

/-! ## Registers that show other state -/

/-- FOR_STATE (R410). -/
def State.forState (s : State) : Nat :=
  let f := s.foe
  let fw := match f.firmware with | some w => 2 ^ 7 + b2n w.policy * 2 ^ 8 + w.keyIndex * 2 ^ 9 | none => 0
  s.moduleState + b2n s.mainOn * 2 ^ 3 + f.prov * 2 ^ 4 + b2n f.idOk * 2 ^ 6 + fw + b2n f.fence * 2 ^ 11

/-- MBX_STATE (R384). -/
def State.mbxState (s : State) : Nat :=
  s.moduleState + (match s.foe.agreed with | some v => v | none => 0) * 2 ^ 4 + b2n s.foe.fence * 2 ^ 20 + b2n s.foe.debug * 2 ^ 21

/-- The value at offset `o` of the common header (R431). -/
def State.headerView (s : State) (b : Blk) (o : Nat) : Nat :=
  if o = BLK_ID then b.id
  else if o = BLK_CTRL then b2n (s.enabled b) + s.field b BLK_CTRL 1 1 * 2
  else if o = BLK_CFG_CRC_NOW then s.crcNow b
  else if o = BLK_BUSY then b2n (sget (fun _ => none) s.posted b.base).isSome
  else if 0x20 ≤ o ∧ o < 0x100 then
    let l := sget (fun _ => []) s.snaps b.base
    if l.isEmpty || !Config.snapDefined b.type ((o - 0x20) / 4) then 0 else (Config.snapWord b.type ((o - 0x20) / 4) l).toNat
  else s.reg b o

/-- The value at offset `o` ≥ 0x100 of a block: computed where the register shows other state. -/
def State.ownView (s : State) (b : Blk) (o : Nat) : Nat :=
  match b with
  | .ftb =>
    if o = FTB_BEAT_LO then s.beat % 2 ^ 32
    else if o = FTB_BEAT_HI then s.time.hiLatch
    else if o = FTB_FRAME_BEAT then (if s.enabled .ftb && s.time.begun then s.beat - s.time.frameStart else 0)
    else match jobSlots.find? fun j => o == FTB_STEP j with
      | some j => (s.job j).step
      | none => s.reg b o
  | .mbx =>
    if o = MBX_STATE then s.mbxState
    else if 0x10000 ≤ o ∧ o < 0x30000 then (s.box ((o - 0x10000) / 0x2000)).word ((o - 0x10000) % 0x2000)
    else s.reg b o
  | .fo => if o = FOR_STATE then s.forState else s.reg b o
  | .lko => if o = LKO_STATE then s.reg b o + b2n s.lko.forcing.isSome * 8 else s.reg b o
  | .tly =>
    if TLY_DATA 0 ≤ o ∧ o ≤ TLY_DATA 7 then
      match s.tallyEntry (s.reg .tly TLY_SEL) with
      | some e => fieldAt e.bytes (o - TLY_DATA 0) 4
      | none => 0
    else match (upFrom 0 14).find? fun e => o == TLY_ROLL_LO e || o == TLY_ROLL_HI e with
      | some e => if o = TLY_ROLL_LO e then s.tally.rollTotal.getD e 0 % 2 ^ 32 else sget (fun _ => 0) s.tally.rollHiLatch e
      | none => s.reg b o
  | .pwr => if o = GLB_PWR_STATE then s.reg b o + b2n s.mainOn else s.reg b o
  | .til t =>
    if o = TIL_RT_DATA then (s.routeWord t (s.field b TIL_RT_INDEX 0 10) (s.field b TIL_RT_INDEX 10 2))
    else if o = TIL_ACTIVE then ((s.fabric t).rsbUsed + 2 ^ 20 - 1) / 2 ^ 20 + min 8191 (s.fabric t).tx.length * 2 ^ 11
    else s.reg b o
  | .lnd t =>
    if o = LND_ACTIVE then sumNat (jobSlots.map (s.landing t).openOf) + (s.landing t).held * 2 ^ 13
    else match jobSlots.find? fun j => o == LND_SLOT j with
      | some j => s.reg b o + (s.landing t).openOf j * 2 ^ 13
      | none => s.reg b o
  | .clu _ => if o = CLU_FRAME then s.frame else s.reg b o
  | .cru c =>
    if o = CRU_QUEUE_LEVEL then (s.cruiser c).queue.length else if o = CRU_ACTIVE then s.cruActive c else s.reg b o
  | .skd c =>
    if o = SKD_QUEUE_LEVEL then (s.skidder c).queue.length else if o = SKD_ACTIVE then s.skdActive c else s.reg b o
  | .sil c =>
    if o = SIL_QUEUE_LEVEL then (s.sillage c).queue.length
    else if o = SIL_ACTIVE then s.silActive c
    else if o = SIL_TRAILS then ((s.sillage c).trails.filter (·.opened)).length
    else if o = SIL_PARK_BYTES then (s.sillage c).parkBytes
    else s.reg b o
  | .cch c => if o = CCH_ACTIVE then (s.cluster c).streams.length * 2 else s.reg b o
  | .cor k =>
    if o = COR_SLOTS then s.corSlots k
    else if o = SYN_STATE then s.synState k
    else if o = MTX_STATE then s.mtxState k
    else if o = MTX_ACC_DATA then s.accData k
    else if o = MTX_ACC_INFO then s.accInfo k
    else if o = VEC_STATE then s.vecState k
    else if o = VEC_REG_DATA then (sget (fun _ => 0) (s.core k).vreg (s.vecSel k)).toNat
    else s.reg b o
  | _ => s.reg b o

/-- The access code of offset `o`; the words of the mailbox span past the registers read as they stand. -/
def Blk.accessOf (b : Blk) (o : Nat) : Option Access :=
  match b with
  | .mbx => if 0x1000 ≤ o then some .rw else (b.row? o).map (·.acc)
  | _ => (b.row? o).map (·.acc)

/-- What a read of the register at offset `o` returns. -/
def State.view (s : State) (b : Blk) (o : Nat) : Nat :=
  match b.accessOf o with
  | none => 0
  | some .wo => 0
  | some .dbg => if s.foe.debug then s.ownView b o % 2 ^ 32 else 0
  | some _ => (if o < 0x100 then s.headerView b o else s.ownView b o) % 2 ^ 32

/-- What a read does besides: an RC register clears (R436), and the read of a LO register latches its HI (R438). -/
def State.afterRead (s : State) (b : Blk) (o : Nat) : State :=
  match b.accessOf o with
  | some .rc => s.setReg b o 0
  | some .ro =>
    match b with
    | .tly =>
      match (upFrom 0 14).find? fun e => o == TLY_ROLL_LO e with
      | some e => { s with tally := { s.tally with
          rollHiLatch := sset (fun _ => 0) s.tally.rollHiLatch e (s.tally.rollTotal.getD e 0 / 2 ^ 32 % 2 ^ 32) } }
      | none => s
    | _ => s
  | some .rw =>
    match b with
    | .ftb => if o = FTB_BEAT_LO then { s with time := { s.time with hiLatch := s.beat / 2 ^ 32 % 2 ^ 32 } } else s
    | _ => s
  | _ => s

/-- A register read: its value, and the state after it. -/
def State.readReg (s : State) (b : Blk) (o : Nat) : Nat × State :=
  if s.powered b then (s.view b o, s.afterRead b o) else (0, s)

/-- A host read of `n` bytes at BAR0 offset `o` (R368), which no row of the command table is: the value, and the state after it. -/
def State.barRead (s : State) (o n : Nat) : Nat × State :=
  if n = 4 ∧ o % 4 = 0 ∧ o < 0x40000 then s.readReg .mbx o else (0, s)

/-- Reads of a list of addresses, in order. -/
def readAll : List Nat → State → List Nat × State
  | [], s => ([], s)
  | a :: t, s =>
    let r := match blkOfAddr a with
      | some (b, o) => s.readReg b o
      | none => (0, s)
    let u := readAll t r.2
    (r.1 :: u.1, u.2)

end Sys2Proof.Machine
end

