-- ==== Sys2Proof/Machine/Blaze.lean ====
section
/-! DEFINITION. Blaze: what each block's snapshot window latches, the latch at the trigger beat (R413 to R415), and
re-arming (R417). -/
namespace Sys2Proof.Machine

/-! ## Every block (R430) -/

def clustersOf (t : Fin 8) : List ClusterId := clusters80.map fun i => ⟨t, i⟩
def allClusters : List ClusterId := tiles8.flatMap clustersOf

def clusterBlocks (c : ClusterId) : List Blk :=
  [.clu c, .cru c, .skd c, .sil c, .cch c] ++ cores16.map fun i => .cor (c.coreAt i)

def tileBlocks (t : Fin 8) : List Blk :=
  [.til t, .lnd t] ++ ((upFrom 0 6).map fun p => .opt ⟨t, Fin.ofNat 6 p⟩) ++ ((upFrom 0 3).map fun i => .hbc t (Fin.ofNat 3 i)) ++
    ((upFrom 0 4).map fun i => .lpc t (Fin.ofNat 4 i)) ++ (clustersOf t).flatMap clusterBlocks

def serviceBlocks : List Blk := [.glb, .ftb, .mbx, .fo, .lko, .blz, .tly, .rng, .pwr]

def allBlocks : List Blk := serviceBlocks ++ tiles8.flatMap tileBlocks

/-! ## What a window latches -/

def optField {α : Type} (x : Option α) (f : α → Nat) : Nat := match x with | some a => f a | none => 0

def State.coreWindow (s : State) (k : CoreId) : List Nat :=
  let c := s.core k
  [s.pc k, s.reg (.cor k) COR_STATE, s.corSlots k, c.mtxQ.length, c.vecQ.length, c.dmaQ.length, c.dmaRun.length,
   s.mtxState k] ++ (groups4.map fun g => if (s.group k g).isOpen then (s.group k g).kcount else 0) ++
    [c.vl, c.vfmt, s.reg (.cor k) VEC_FLAGS]

/-- A Cruiser's window; of several acts in flight the first gives the parent index and the block counter (DEDUCED, log entry 34). -/
def State.cruWindow (s : State) (c : ClusterId) : List Nat :=
  let u := s.cruiser c
  let act := u.running.find? fun a => a.serve.isNone
  [optField u.plot (·.desc.addr), optField u.plot (·.hop), optField act (·.parents.headD 0),
   optField u.plot fun p => optField act fun a => p.actCounter a, u.running.length, optField u.plot (·.reqs.length)]

/-- The bank that holds the most request slots. -/
def Skidder.hotBank (u : Skidder) : Nat :=
  optField ((u.running.find? fun a => u.bankCount a == u.hot).bind bankOf) id

def State.skdWindow (s : State) (c : ClusterId) : List Nat :=
  let u := s.skidder c
  [optField u.hauls[0]? (·.desc.addr), optField u.hauls[0]? (·.lastWindow), optField u.hauls[0]? (·.groups.length),
   u.running.length, u.hotBank, u.hot, u.sent.length]

/-- A Sillage unit's window: no retrace is in progress between commands, so its key is 0. -/
def State.silWindow (s : State) (c : ClusterId) : List Nat :=
  let u := s.sillage c
  let out (step : Nat) : Nat := (s.members c.tile).countP fun m => !u.received.contains (step, m)
  [0, u.head, optField u.ring[0]? (·.start), (u.trails.filter (·.opened)).length, optField u.finished[0]? id,
   optField u.finished[0]? out]

def PortQ.levels (q : PortQ) : List Nat := [q.lane0.length, q.lane1.length]

def State.tilWindow (s : State) (t : Fin 8) : List Nat :=
  let f := s.fabric t
  [f.rsbUsed, f.tx.length] ++ ((f.tx.take 1).flatMap fun x => [x.job, x.dst, x.flow, x.step, x.xfer]) ++
    (upFrom 0 6).flatMap fun p => (s.portQ (6 * t.val + p)).levels

def State.lndWindow (s : State) (t : Fin 8) : List Nat :=
  let l := s.landing t
  [(l.streams.filter (·.isOpen)).length, l.held] ++
    ((l.streams.filter (·.isOpen)).take 1).flatMap fun x => [x.job, x.step, x.stream]

def State.optWindow (s : State) (q : PortId) : List Nat :=
  let b := Blk.opt q
  [s.reg b OPT_STATE, s.reg b OPT_ASYM] ++ ((s.opt q).heaters.flatMap fun p => [p.1, p.2]) ++
    (upFrom 0 8).map fun k => s.reg b (OPT_WL k)

def State.mbxWindow (s : State) : List Nat :=
  [sumNat ((upFrom 0 16).map fun n => b2n (s.box n).own * 2 ^ n)] ++
    (match s.foe.waiting with
      | w :: _ => [1, w.h.box.val, (s.box w.h.box.val).opcode]
      | [] => [0, 0, 0]) ++ [optField s.foe.agreed id]

def State.foWindow (s : State) : List Nat :=
  [s.forState, s.reg .fo FOR_REJECT] ++
    match s.foe.image with
    | some i => [1, b2n i.lookout, i.received]
    | none => [0, 0, 0]

/-- The window of a DRAM controller (R443): its state, its queue occupancy, 0 since an access ends with the command that makes
it, and the last error address. -/
def State.dramWindow (s : State) (b : Blk) : List Nat := [s.reg b HBC_STATE, 0, s.reg b HBC_ERR_LO, s.reg b HBC_ERR_HI]

/-- The values that a block's window latches; none for a block that defines no window words. Between commands the cluster cache
has no miss queued and no directory invalidation pending. -/
def State.window (s : State) : Blk → List Nat
  | .ftb => [s.beat, s.frame, s.beat - s.time.frameStart, s.reg .ftb FTB_CUR_EXT, s.lock]
  | .mbx => s.mbxWindow
  | .fo => s.foWindow
  | .lko => [s.lko.lastSrc, s.lko.lastSeq, s.lko.lastOp]
  | .pwr => [s.view .pwr GLB_PWR_STATE, s.reg .pwr GLB_POWER, s.reg .pwr GLB_VOLT] ++
      (upFrom 0 8).map fun t => s.reg .pwr (GLB_TEMP_TILE t)
  | .til t => s.tilWindow t
  | .lnd t => s.lndWindow t
  | .opt q => s.optWindow q
  | .hbc t i => s.dramWindow (.hbc t i)
  | .lpc t i => s.dramWindow (.lpc t i)
  | .cru c => s.cruWindow c
  | .skd c => s.skdWindow c
  | .sil c => s.silWindow c
  | .cch c => [0, (s.cluster c).streams.length, 0]
  | .cor k => s.coreWindow k
  | .clu _ | .glb | .blz | .tly | .rng => []

/-! ## Latching (R414) -/

/-- One block latches the window that `was` gives it, if it is powered and armed. -/
def State.latchBlock (was s : State) (b : Blk) : State :=
  if s.powered b && s.flag b BLK_CTRL 1 then
    { (s.clearFlag b BLK_CTRL 1).setFlag b BLK_STATUS 2 with
      snaps := sset (fun _ => []) s.snaps b.base (was.window b) }
  else s

/-- BLAZE_LATCH (R414): every armed block latches the state of one beat, and the roll-up is refreshed (R425). -/
def State.latchAll (s : State) : State :=
  (allBlocks.foldl (fun t b => s.latchBlock t b) { s with blaze := { s.blaze with latchAt := none } }).rollRefresh

/-- Latch if Blaze has fired and its trigger beat has come. -/
def State.settleBlaze (s : State) : State :=
  match s.blaze.latchAt with
  | some t => if t ≤ s.beat then s.latchAll else s
  | none => s

/-! ## Re-arming (R417) -/

/-- Blaze returns to armed, every powered block is armed, and a pending match is gone. -/
def State.rearmBlaze (s : State) : State :=
  let s := ((s.setReg .blz BLZ_CAUSE 0).setReg .blz BLZ_FIRST 0).setReg .blz BLZ_FIRST_SRC 0
  let s := (s.setReg .blz BLZ_STATE 0).setPair .blz BLZ_MATCH_LO BLZ_MATCH_HI 0
  let s := { s with blaze := ⟨0, none⟩ }
  allBlocks.foldl (fun s b => if s.powered b then s.setFlag b BLK_CTRL 1 else s) s

/-- BLAZE_MATCH (R413): the beat count reaches a pending match. -/
def execBlazeMatch (s : State) : Host.Outcome State Fault Refusal :=
  let t := s.pair .blz BLZ_MATCH_LO BLZ_MATCH_HI
  .next (if !s.flag .blz BLZ_STATE 1 ∨ s.beat < t then s else (s.fireBlaze 1 t 0 0).settleBlaze)

/-- SNAP_ARM of a block's BLK_CTRL is written (R431). Writing 1 releases the window, which the next trigger
overwrites. -/
def State.writeArm (s : State) (b : Blk) (on : Bool) : State :=
  if !s.powered b then s else if on then s.setFlag b BLK_CTRL 1 else s.clearFlag b BLK_CTRL 1

end Sys2Proof.Machine
end

