-- ==== Sys2Proof/Machine/Issue.lean ====
section
/-! DEFINITION. Issuing one instruction of a core's program (R146 to R150): when an instruction command takes effect,
the fetch check, register hazards, and the advance of the program counter. -/
namespace Sys2Proof.Machine

/-- The core is enabled and fetching, and no wait holds its control core (log entry 12). -/
def State.issuable (s : State) (k : CoreId) : Bool :=
  s.enabled (.cor k) && s.coreRunning k && decide ((s.core k).stall = .none)

def State.progBase (s : State) (k : CoreId) : Nat := s.field (.cor k) COR_PROG 0 9 * 1024
def State.progSize (s : State) (k : CoreId) : Nat := s.field (.cor k) COR_PROG 9 9 * 1024

/-- Is the program counter inside the program area? -/
def State.fetchOk (s : State) (k : CoreId) : Bool :=
  decide (s.progBase k ≤ s.pc k) && decide (s.pc k < s.progBase k + s.progSize k)

/-- The instruction has issued: the program counter moves to `target` and COR_CNT_INSTR counts. -/
def State.retireTo (s : State) (k : CoreId) (target : Nat) : State := (s.setPc k target).bump (.cor k) COR_CNT_INSTR
def State.retire (s : State) (k : CoreId) : State := s.retireTo k (s.pc k + 4)

/-- Issue an instruction that uses registers `uses` and whose own conditions are `ready`. A fetch outside the program
area stops the core with cause 3; an instruction that must wait changes nothing (log entry 12). -/
def State.issue (s : State) (k : CoreId) (uses : List (Fin 32)) (ready : Bool) (f : State → State) : State :=
  if !s.issuable k then s
  else if !s.fetchOk k then s.coreFault k 3 (s.pc k)
  else if (uses.any fun r => s.loadPending k r) || !ready then s
  else f s

/-- An illegal instruction stops the core at its own address (R147). -/
def State.illegal (s : State) (k : CoreId) : State := s.coreFault k 4 (s.pc k)

/-- Issue to an engine queue that has room (R149): the entry joins the queue and the program counter advances. -/
def State.issueTo (s : State) (k : CoreId) (uses : List (Fin 32)) (e : EngineId) (x : State → QEntry) : State :=
  s.issue k uses (!s.queueFull k e) fun t => (t.retire k).enqueue k e (x t)

/-- Issue one vector instruction. -/
def State.issueVec (s : State) (k : CoreId) (op : VOp) : State := s.issueTo k [] .vec fun t => .vec op (t.pc k)

/-- A scratch or job access checked for alignment, and the pair forms for an even register (R148). -/
def pairOdd (size : MemSize) (r : Fin 32) : Bool := size == .pair && r.val % 2 == 1

/-- The registers a load or store of a size names. -/
def pairRegs (size : MemSize) (r : Fin 32) : List (Fin 32) := if size = .pair then [r, r + 1] else [r]

/-- Write a loaded value: the pair forms write gn and gn+1; the upper bits of a narrow load are a free value. -/
def State.loadResult (s : State) (k : CoreId) (size : Nat) (r : Fin 32) (v : Nat) : State :=
  if size = 8 then (s.setGpr k r (BitVec.ofNat 32 v)).setGpr k (r + 1) (BitVec.ofNat 32 (v / 2 ^ 32))
  else if size = 4 then s.setGpr k r (BitVec.ofNat 32 v)
  else (s.setGpr k r (BitVec.ofNat 32 (v % 2 ^ (8 * size) + s.free * 2 ^ (8 * size)))).useFree

/-- The value that a store moves. -/
def State.storeValue (s : State) (k : CoreId) (size : MemSize) (r : Fin 32) : Nat :=
  if size = .pair then (s.gpr k r).toNat + (s.gpr k (r + 1)).toNat * 2 ^ 32
  else (s.gpr k r).toNat % 2 ^ (8 * memBytes size)

end Sys2Proof.Machine
end

