-- ==== Sys2Proof/Machine/Units.lean ====
section
/-! DEFINITION. ENABLE of every kind of block: what each checks when it is enabled, how it begins to run and how it
stops (R77, R101, R123, R170, R259, R433, R443). -/
namespace Sys2Proof.Machine

/-! ## Cruiser and Skidder: the owner map image (R27, R77, R101) -/

/-- Load the owner map image and report it; the offset argument of a refusal is 0, since the check concerns no single
register (R433). -/
def State.loadMapFor (s : State) (b : Blk) (lo hi status : Nat) : State × OwnerMap × Option Nat :=
  let r := s.loadOwnerMap (queueAddr (s.reg b lo) (s.reg b hi))
  if r.2 = 0 then (s.setReg b status 1, r.1, none) else (s.setReg b status (2 + r.2 * 4), OwnerMap.empty, some 0)

def State.enableCru (s : State) (c : ClusterId) : State :=
  let b := Blk.cru c
  if !s.powered b || s.enabled b then s
  else
    let r := s.loadMapFor b CRU_OMAP_LO CRU_OMAP_HI CRU_OMAP_STATUS
    r.1.enableWith b r.2.2 fun t => t.setCruiser c { t.cruiser c with map := r.2.1 }

def State.disableCru (s : State) (c : ClusterId) : State := s.disableWith (.cru c) id

/-- SKD_RRC_CFG with ON set needs a row size in range. -/
def State.rrcBad (s : State) (c : ClusterId) : Option Nat :=
  if s.flag (.skd c) SKD_RRC_LO 0 && !inRange (s.field (.skd c) SKD_RRC_CFG 16 9) 1 256 then some SKD_RRC_CFG else none

/-- The Skidder begins to run: the cache epoch advances (R97), and the round robin of every set begins at way 0 (DESIGN CHOICE, log
entry 35). -/
def State.enableSkd (s : State) (c : ClusterId) : State :=
  let b := Blk.skd c
  if !s.powered b || s.enabled b then s
  else
    let r := s.loadMapFor b SKD_OMAP_LO SKD_OMAP_HI SKD_OMAP_STATUS
    let bad := match r.2.2 with | some o => some o | none => r.1.rrcBad c
    r.1.enableWith b bad fun t =>
      let u := t.skidder c
      t.setSkidder c { u with map := r.2.1, epoch := (u.epoch + 1) % 2 ^ 16, ways := [] }

def State.disableSkd (s : State) (c : ClusterId) : State := s.disableWith (.skd c) id

/-! ## Sillage unit (R119, R123) -/

/-- The apply record of a table slot as it stands in memory. -/
def State.applyRec (s : State) (c : ClusterId) (slot : Nat) : ApplyRec :=
  let a := queueAddr (s.reg (.sil c) (SIL_APPLY_LO slot)) (s.reg (.sil c) (SIL_APPLY_HI slot))
  { slot := slot, accAddr := s.rd a 8, accEntries := s.rd (a + 8) 4, elements := s.rd (a + 0xC) 4, outAddr := s.rd (a + 0x10) 8,
    done := s.rd (a + 0x18) 4 }

/-- Does an apply record refuse enable (R119)? -/
def State.applyBad (s : State) (c : ClusterId) (slot : Nat) : Bool :=
  let a := queueAddr (s.reg (.sil c) (SIL_APPLY_LO slot)) (s.reg (.sil c) (SIL_APPLY_HI slot))
  let r := s.applyRec c slot
  !rangeBacked a 64 || crc32c (s.readBytes a 0x3C) != s.rd (a + 0x3C) 4 || decide (2 ^ 10 ≤ r.done) ||
    !allZero (s.readBytes (a + 0x1C) 32) || !inRange r.accEntries 1 16777216 || !inRange r.elements 1 4096 ||
    decide (47 < bits r.done 4 6) || r.accAddr % 64 != 0 || r.outAddr % 64 != 0 ||
    !rangeHbm r.accAddr (r.accEntries * up64 (64 + 9 * r.elements)) ||
    !rangeHbm r.outAddr (64 + r.accEntries * up64 (16 + 4 * r.elements))

def slots8 : List Nat := upFrom 0 8

def State.silBad (s : State) (c : ClusterId) : Option Nat :=
  let b := Blk.sil c
  let n := s.field b SIL_SPILL_CFG 0 16
  if 384 < s.field b SIL_SCR 4 9 + s.field b SIL_SCR 13 9 then some SIL_SCR
  else if n ≠ 0 ∧ !rangeHbm (queueAddr (s.reg b SIL_SPILL_LO) (s.reg b SIL_SPILL_HI)) (2 ^ 20 * n) then some SIL_SPILL_CFG
  else (slots8.find? fun i => s.flag b (SIL_APPLY_LO i) 0 && s.applyBad c i).map fun i => SIL_APPLY_LO i

/-- The unit begins to run with the valid apply records and no step refused or closed. -/
def State.silStart (s : State) (c : ClusterId) : State :=
  let recs := (slots8.filter fun i => s.flag (.sil c) (SIL_APPLY_LO i) 0).map fun i => s.applyRec c i
  s.setSillage c { s.sillage c with applies := recs, acc := [], sections := [], contribs := [], finished := [], refused := [],
                                    received := [], held := [], overfull := [], handed := none }

def State.enableSil (s : State) (c : ClusterId) : State := s.enableWith (.sil c) (s.silBad c) fun t => t.silStart c

/-- With no retrace queued the trails and tables go at once; otherwise with the last retrace that is queued now (R123). -/
def State.disableSil (s : State) (c : ClusterId) : State :=
  s.disableWith (.sil c) fun t =>
    let u := t.sillage c
    if u.queue.isEmpty then t.silDrop c else t.setSillage c { u with owed := some (u.queue.length, u.nextId) }

/-! ## Cores, cluster common, cluster cache (R160, R170, R259) -/

def State.corBad (s : State) (k : CoreId) : Option Nat :=
  let b := Blk.cor k
  let size := s.field b COR_PROG 9 9
  if size = 0 ∨ 384 < s.field b COR_PROG 0 9 + size then some COR_PROG
  else if 1024 * size ≤ s.field b COR_ENTRY 2 17 * 4 then some COR_ENTRY
  else none

/-- The core begins to fetch, at COR_ENTRY or at a pending resume, which keeps the restored vector and generator state
and groups (R170, R457). -/
def State.corStart (s : State) (k : CoreId) : State :=
  let b := Blk.cor k
  let c := s.core k
  let s := ((s.setReg b COR_FAULT 0).setReg b COR_FAULT_ADDR_LO 0).setReg b COR_FAULT_ADDR_HI 0
  let s := ((s.setReg b SYN_ERROR 0).setReg b MTX_FAULT 0).setReg b VEC_FAULT 0
  let s := s.setReg b COR_STATE 1
  let c := { c.dropDma with dmaQ := [], mtxQ := [], vecQ := [], dmaRun := [], stall := .none, stepMarkAt := s.beat, jobStopped := false }
  match c.resume with
  | some r =>
    let g := if r.keepGroups then c.groups else List.replicate 4 Group.closed
    (s.setCore k { c with groups := g, resume := none }).setPc k r.pc
  | none =>
    let s := s.setReg b VEC_FLAGS 0
    (s.setCore k { c with groups := List.replicate 4 Group.closed, vl := 0, vfmt := 0, gen := GenState.reset }).setPc k
      (s.field b COR_PROG 0 9 * 1024 + s.field b COR_ENTRY 2 17 * 4)

def State.enableCor (s : State) (k : CoreId) : State := s.enableWith (.cor k) (s.corBad k) fun t => t.corStart k

/-- The control core stops issuing; queued engine work completes, then every group closes without writing (R188). -/
def State.corStop (s : State) (k : CoreId) : State :=
  let b := Blk.cor k
  let s := s.leaveBarrier k
  let s := ((s.clearFlag b COR_STATE stRunning).clearFlag b COR_STATE stWaiting).setStall k .none
  (s.kick k).closeIdle k

def State.disableCor (s : State) (k : CoreId) : State := s.disableWith (.cor k) fun t => t.corStop k

/-- PHASE, ARRIVED and EARLY of every barrier become 0 (R259); a core that waits for neither bit proceeds (R262). -/
def State.cluStart (s : State) (c : ClusterId) : State :=
  (upFrom 0 8).foldl (fun s i =>
    let s := (s.setReg (.clu c) (BAR_STATE i) 0).setField (.clu c) (BAR_PHASE i) 16 1 0
    cores16.foldl (fun s j => s.releaseWaiter c i j) s) s

def State.disableCch (s : State) (c : ClusterId) : State := s.disableWith (.cch c) fun t => t.flushCache c

/-! ## Memory controllers (R443) -/

def State.ctlStart (s : State) (b : Blk) : State := if s.flag b HBC_CFG 0 then s.setFlag b HBC_STATE 2 else s

def State.ctlBad (s : State) (b : Blk) : Option Nat := if s.field b HBC_CFG 8 8 = 0 then some HBC_CFG else none

/-! ## Any block -/

/-- ENABLE goes to 1 in an optical port: the feed is as OPT_ENABLE has said, and a measured value, free here, where it has not. -/
def State.enableOpt (s : State) (q : PortId) : State :=
  let fed := (s.opt q).fed.getD (s.free % 256)
  (s.useFree.setOpt q { s.opt q with fed := none }).enableWith (.opt q) (s.optBad q) fun u => u.optStart q fed

/-- ENABLE goes to 1 in a block of any kind. -/
def State.enableBlk (s : State) (b : Blk) : State :=
  match b with
  | .ftb => s.enableWith b s.ftbBad State.ftbStart
  | .til t => s.enableWith b (s.tilBad t) fun u => u.tilStart t
  | .lnd t => s.enableWith b (s.lndBad t) fun u => u.lndStart t
  | .opt q => s.enableOpt q
  | .hbc .. | .lpc .. => s.enableWith b (s.ctlBad b) fun u => u.ctlStart b
  | .clu c => s.enableWith b none fun u => u.cluStart c
  | .cru c => s.enableCru c
  | .skd c => s.enableSkd c
  | .sil c => s.enableSil c
  | .cch _ => s.enableWith b none id
  | .cor k => s.enableCor k
  | .glb | .mbx | .fo | .lko | .blz | .tly | .rng | .pwr => s

/-- ENABLE goes to 0 in a block of any kind. -/
def State.disableBlk (s : State) (b : Blk) : State :=
  match b with
  | .ftb => s.disableWith b State.ftbStop
  | .til t => s.disableWith b fun u => u.tilStop t
  | .lnd t => s.disableWith b fun u => u.lndClear t
  | .opt q => s.disableWith b fun u => u.optStop q
  | .hbc .. | .lpc .. => s.disableWith b fun u => u.clearFlag b HBC_STATE 2
  | .clu _ => s.disableWith b id
  | .cru c => s.disableCru c
  | .skd c => s.disableSkd c
  | .sil c => s.disableSil c
  | .cch c => s.disableCch c
  | .cor k => s.disableCor k
  | .glb | .mbx | .fo | .lko | .blz | .tly | .rng | .pwr => s

/-! ## The rows -/

/-- CRU_ENABLE (R77). -/
def execCruEnable (c : ClusterId) (s : State) : Host.Outcome State Fault Refusal := .next (s.enableCru c)
/-- CRU_DISABLE (R77): intake stops, work in progress goes on. -/
def execCruDisable (c : ClusterId) (s : State) : Host.Outcome State Fault Refusal := .next (s.disableCru c)
/-- SKD_ENABLE (R97, R100). -/
def execSkdEnable (c : ClusterId) (s : State) : Host.Outcome State Fault Refusal := .next (s.enableSkd c)
/-- SKD_DISABLE (R101). -/
def execSkdDisable (c : ClusterId) (s : State) : Host.Outcome State Fault Refusal := .next (s.disableSkd c)
/-- SIL_ENABLE (R123). -/
def execSilEnable (c : ClusterId) (s : State) : Host.Outcome State Fault Refusal := .next (s.enableSil c)
/-- SIL_DISABLE (R106, R123). -/
def execSilDisable (c : ClusterId) (s : State) : Host.Outcome State Fault Refusal := .next (s.disableSil c)
/-- COR_ENABLE (R170). -/
def execCorEnable (k : CoreId) (s : State) : Host.Outcome State Fault Refusal := .next (s.enableCor k)
/-- COR_DISABLE (R170). -/
def execCorDisable (k : CoreId) (s : State) : Host.Outcome State Fault Refusal := .next (s.disableCor k)
/-- CCH_DISABLE (R160). -/
def execCchDisable (c : ClusterId) (s : State) : Host.Outcome State Fault Refusal := .next (s.disableCch c)

end Sys2Proof.Machine
end

