-- ==== Sys2Proof/Machine/Power.lean ====
section
/-! DEFINITION. Supplies, power sequences and resets of the main domain (R386, R387, R461 to R464), sensors and clock
steps (R465 to R468). -/
namespace Sys2Proof.Machine

/-! ## The provenance flash (R389) -/

/-- What a byte of the flash that nothing has written reads as (log entry 45). -/
def flashDefault : Nat → Byte := fun _ => 0xFF

def copyBase (c : Nat) : Nat := c * 0x100000
def State.flashBytes (s : State) (a n : Nat) : List Byte := sgetMany flashDefault s.flash a n

/-- The bytes of copy `c` that its BYTES names; none where BYTES is out of range, and the copy then not valid (R390). -/
def State.copyBytes (s : State) (c : Nat) : List Byte :=
  let n := leVal (s.flashBytes (copyBase c + 0xC) 4)
  if inRange n 4096 1048576 then s.flashBytes (copyBase c) n else []

/-- The active copy's bytes; none of a record that is unusable. -/
def State.prov (s : State) : Option (List Byte) := s.foe.active.map fun c => s.copyBytes c

/-- A field of the active copy; 0 where the record is unusable. -/
def State.provField (s : State) (o n : Nat) : Nat :=
  match s.prov with
  | some l => fieldAt l o n
  | none => 0

/-! ## The main domain (R386, R387) -/

def standbyAddr (a : Nat) : Bool :=
  match blkOfAddr a with
  | some (b, _) => b.standby
  | none => true

/-- A job slot after the main domain is lost: nothing runs; what the time base holds, which stands by, is as it was (R9). -/
def JobSlot.lost (v : JobSlot) : JobSlot :=
  { JobSlot.empty with job := v.job, plan := v.plan, nextPlan := v.nextPlan, nextAt := v.nextAt, oldPlans := v.oldPlans,
                       step := v.step, stepFrame := v.stepFrame }

/-- What the Forester keeps over a loss of the main domain (R387). -/
def Forester.lostMain (f : Forester) : Forester :=
  { Forester.reset with romDone := f.romDone, romDigest := f.romDigest, active := f.active, prov := f.prov, idKey := f.idKey,
                        idOk := f.idOk, fence := f.fence, heldOff := f.heldOff, sram := f.sram }

/-- Every main-domain register and unit returns to its reset value, and DRAM contents are not preserved (R464, log
entry 1). -/
def State.clearMain (s : State) : State :=
  let s := { s with mem := [], cores := [], clusters := [], fabrics := [], routes := [], ports := [], loopback := [],
                    mailrooms := [], cruisers := [], skidders := [], sillages := [], landings := [], opts := [], shape := 0 }
  let s := { s with regs := s.regs.filter fun p => standbyAddr p.1, snaps := s.snaps.filter fun p => standbyAddr p.1,
                    posted := s.posted.filter fun p => standbyAddr p.1 }
  let s := jobSlots.foldl (fun s j => s.setJob j (s.job j).lost) s
  let s := { s with foe := s.foe.lostMain, tally := { s.tally with rollPrev := [] } }
  s.setReg .fo FOR_FW_VERSION 0

/-- The Forester writes what the provenance record says of a port: its latencies, and the address of a service-capable one (R349,
R351, R389). -/
def State.loadPort (s : State) (m : Nat) : State :=
  let b := Blk.opt (portOfIdx m)
  let mac := s.provField (0x68 + m / 6 * 8) 6
  let s := s.setReg b OPT_LAT (s.provField (0xA8 + 4 * m) 4)
  if m % 6 = 5 then (s.setReg b OPT_SVC_MAC_LO (mac % 2 ^ 32)).setReg b OPT_SVC_MAC_HI (mac / 2 ^ 32) else s

/-- The main domain enters ROM: Blaze is re-armed (R417), the roll-up begins from zero counters, and the Forester writes the
ports' registers that show the provenance record (log entry 96). -/
def State.enterRom (s : State) : State :=
  let s := { s with tally := { s.tally with rollMark := s.clock, rollAt := s.clock } }.rearmBlaze
  (upFrom 0 48).foldl State.loadPort s

def State.clockStep (s : State) : Nat := s.field .pwr GLB_PWR_STATE 1 2

/-- The power block as the main domain goes down or comes up: no step is requested; what it watches of the coolant and of the
main input stands by (R386). -/
def Power.restart (p : Power) : Power := { Power.reset with warn := p.warn, powers := p.powers }

/-- MAIN_POWER_DOWN (R463): the module is in STANDBY. -/
def State.powerDown (s : State) : State :=
  if s.mainOn then { s.clearMain with mainOn := false, pwr := s.pwr.restart } else s

/-- The power-up sequence of R462: the clock starts at the step that GLB_STEP_LIMIT allows. -/
def State.powerUp (s : State) : State :=
  if s.mainOn ∨ !s.standbyOn then s
  else
    let s := { s with mainOn := true, foe := { s.foe with heldOff := false, stage := .rom }, pwr := s.pwr.restart }
    let s := s.setField .pwr GLB_PWR_STATE 1 4 (s.field .pwr GLB_STEP_LIMIT 0 2 * 5)
    (s.bump .fo FOR_CNT_MAIN_ON).enterRom

/-- The limits of R460 and R465 that a power-up needs. -/
def inputsOk (i : SupplyInputs) : Bool :=
  inRange i.volt 4400 5800 && decide (160 ≤ i.topFlow) && decide (80 ≤ i.bottomFlow) && inRange i.topInlet 15 40 &&
    inRange i.bottomInlet 15 40

/-- The power-up sequence (R462), its 46 ms one step: an input that leaves its range in it stops it, R463 runs, and the module
stays in STANDBY (log entry 100). -/
def State.powerSequence (s : State) (i : SupplyInputs) : State := if i.lost then s.powerDown else s.powerUp

/-- MAIN_POWER_UP (R462): the ROM has done its steps, the inputs have held together for 100 ms, and nothing holds the domain
off. -/
def execMainPowerUp (i : SupplyInputs) (s : State) : Host.Outcome State Fault Refusal :=
  .next (if !s.standbyOn ∨ !s.foe.romDone ∨ s.mainOn ∨ s.foe.heldOff ∨ !inputsOk i ∨ i.held < 100 then s else s.powerSequence i)

/-- MAIN_DOMAIN_RESET (R464): requested by the host die; the roll-up is refreshed first (R425). -/
def execMainDomainReset (s : State) : Host.Outcome State Fault Refusal :=
  .next (if s.mainOn then s.rollRefresh.clearMain.enterRom else s)

/-! ## Trips (R461, R468) -/

/-- A trip takes the main domain down at once, and it stays off until POWER_ON or the next standby power-up. -/
def State.trip (s : State) (event code : Nat) : State :=
  let s := ((s.setFlag .pwr GLB_EVENTS event).log .pwr code 4).bump .pwr GLB_CNT_TRIPS
  { s.powerDown with foe := { s.powerDown.foe with heldOff := true } }

def supplyEvent : SupplyFault → Nat
  | .undervolt => 0 | .overvolt => 1 | .standby => 2

/-- The trips that what is watched of the inputs calls for (R461). -/
def supplyTrips (w : SupplyWatch) : List SupplyFault :=
  (if w.main < 4200 ∧ 1000 ≤ w.mainFor then [.undervolt] else []) ++ (if 6000 < w.main ∧ 100 ≤ w.mainFor then [.overvolt] else []) ++
    if !inRange w.standby 1080 1320 ∧ 1000 ≤ w.standbyFor then [.standby] else []

def State.supplyTrip (s : State) (f : SupplyFault) : State := s.trip (supplyEvent f) (0x5003 + supplyEvent f)

/-- SUPPLY_TRIP (R461). -/
def execSupplyTrip (w : SupplyWatch) (s : State) : Host.Outcome State Fault Refusal :=
  .next (if s.standbyOn then (supplyTrips w).foldl State.supplyTrip s else s)

def thermalTrip (s : State) : State := s.trip 3 0x5002

/-- Has a reading reached its GLB_TRIP value, or has power exceeded the cap for 100 ms at step 3? -/
def State.tripDue (s : State) : Bool :=
  let lim i := s.field .pwr GLB_TRIP (8 * i) 8
  (upFrom 0 8).any (fun t => decide (lim 0 ≤ s.field .pwr (GLB_TEMP_TILE t) 0 8) || decide (lim 1 ≤ s.field .pwr (GLB_TEMP_TILE t) 8 8)) ||
    decide (lim 2 ≤ s.field .pwr GLB_COOLANT 8 8) || decide (lim 2 ≤ s.field .pwr GLB_COOLANT 24 8) ||
    match s.pwr.capSince with
    | some t => decide (t + 100 * beatsPerMs ≤ s.clock)
    | none => false

/-- THERMAL_TRIP (R468): whenever a value is reached, with the main domain off too. -/
def execThermalTrip (s : State) : Host.Outcome State Fault Refusal :=
  .next (if s.standbyOn && s.tripDue then thermalTrip s else s)

/-! ## Sensors and clock steps (R465 to R467) -/

def hottest (l : List Byte) : Nat := (l.map (·.toNat)).foldl max 0

/-- The hottest reading of each kind of a tile (R466). -/
def junction (t : TileSensors) : Nat := hottest t.junctions.toList
def stack (t : TileSensors) : Nat := hottest t.hbms.toList
def package (t : TileSensors) : Nat := hottest t.lps.toList

/-- The readings of one millisecond, one every 10 µs, with the newest in front (R466). -/
def Power.addPower (p : Power) (w : Nat) : Power := { p with powers := (w :: p.powers).take 100 }

/-- The main input power as a 1 ms average (R466), rounded down (log entry 101). -/
def Power.average (p : Power) : Nat := sumNat p.powers / p.powers.length

/-- The readings appear in the registers (R466, R469). -/
def State.storeReadings (s : State) (r : Sensors) : State :=
  let s := { s with pwr := s.pwr.addPower r.mainPower.toNat }
  let s := s.setReg .pwr GLB_POWER (s.pwr.average + r.standbyPower.toNat * 2 ^ 16)
  let s := s.setReg .pwr GLB_VOLT (r.mainVolt.toNat + r.standbyVolt.toNat * 2 ^ 16)
  let s := s.setReg .pwr GLB_COOLANT
    (r.topInlet.toNat + r.topOutlet.toNat * 2 ^ 8 + r.bottomInlet.toNat * 2 ^ 16 + r.bottomOutlet.toNat * 2 ^ 24)
  let s := s.setReg .pwr GLB_FLOW (r.topFlow.toNat + r.bottomFlow.toNat * 2 ^ 16)
  tiles8.foldl (fun s (t : Fin 8) =>
    let q := r.tiles[t]
    s.setReg .pwr (GLB_TEMP_TILE t) (junction q + stack q * 2 ^ 8 + package q * 2 ^ 16)) s

/-- Coolant outside the limits of R465: flow below 80% of the minimum, or an inlet above 40 °C. -/
def coolantBad (r : Sensors) : Bool :=
  decide (r.topFlow.toNat < 128) || decide (r.bottomFlow.toNat < 64) || decide (40 < r.topInlet.toNat) || decide (40 < r.bottomInlet.toNat)

/-- The requested step (R467), with whether the conditions for a faster clock hold now. -/
def State.stepRequest (s : State) (r : Sensors) : Nat × Bool :=
  let cur := s.clockStep
  let lim i := s.field .pwr GLB_THROTTLE (8 * i) 8
  let tile := (r.tiles.toList.map junction).foldl max 0
  let hbm := (r.tiles.toList.map stack).foldl max 0
  let cap := s.field .pwr GLB_PWR_CAP 0 16
  let power := s.pwr.average
  let slow := decide (lim 0 ≤ tile) || decide (lim 2 ≤ hbm) || decide (cap < power) || coolantBad r
  let cool := decide (tile < lim 1) && decide (hbm < lim 3) && decide (power < cap - cap / 20)
  let held := match s.pwr.coolSince with | some t => decide (t + 100 * beatsPerMs ≤ s.clock) | none => false
  let req := if slow then min (cur + 1) 3 else if cool && held then cur - 1 else cur
  (max req (s.field .pwr GLB_STEP_LIMIT 0 2), !slow && cool)

/-- Requests are latched with the beat at which they were made. -/
def State.latchStep (s : State) (req : Nat) : State :=
  let p := s.pwr
  let s := s.setField .pwr GLB_PWR_STATE 3 2 req
  if s.clockStep < req then { s with pwr := { p with down := some (p.down.getD s.beat) } }
  else if req < s.clockStep then { s with pwr := { p with up := some (p.up.getD s.beat) } }
  else s

/-- The coolant leaves its limits, or is back in them (R465, log entry 68). -/
def State.coolantWatch (s : State) (bad : Bool) : State :=
  let s := if bad && !s.pwr.warn then (s.setFlag .pwr GLB_EVENTS 4).log .pwr 0x5006 2 else s
  { s with pwr := { s.pwr with warn := bad } }

/-- SENSOR_EVALUATION (R465 to R467): the coolant and the power are watched with the main domain off too. -/
def execSensorEvaluation (r : Sensors) (s : State) : Host.Outcome State Fault Refusal :=
  .next (if !s.standbyOn then s
    else
      let s := (s.storeReadings r).coolantWatch (coolantBad r)
      let ovf := decide (s.field .pwr GLB_PWR_CAP 0 16 < s.pwr.average)
      let s := if ovf then s.bump .pwr GLB_CNT_CAP else s
      if !s.mainOn then s
      else
        let q := s.stepRequest r
        let p := s.pwr
        let since (ok : Bool) (x : Option Nat) : Option Nat := if ok then some (x.getD s.clock) else none
        { s with pwr := { p with coolSince := since q.2 p.coolSince,
                                 capSince := since (ovf && s.clockStep == 3) p.capSince } }.latchStep q.1)

/-- A clock step takes effect (R467); the cause that 0x5001 carries is a free value, since the spec numbers none. -/
def State.takeStep (s : State) (new : Nat) : State :=
  let old := s.clockStep
  let s := (s.setField .pwr GLB_PWR_STATE 1 2 new).setFlag .pwr GLB_EVENTS 5
  let s := s.bump .pwr (if old < new then GLB_CNT_STEP_DOWN else GLB_CNT_STEP_UP)
  let s := { s with pwr := { s.pwr with coolSince := none, capSince := none } }
  s.useFree.log .pwr 0x5001 1 [old, new, s.free]

/-- Was a request latched at least 256 beats before the boundary at beat `t` (R275)? -/
def stepDue (t : Nat) (x : Option Nat) : Bool := match x with | some b => decide (b + 256 ≤ t) | none => false

/-- A request that stood at the boundary at beat `t` is done with; a later one stands at the next (R275). -/
def Power.after (p : Power) (t : Nat) : Power :=
  let later (x : Option Nat) : Option Nat := if stepDue t x then none else x
  { p with down := later p.down, up := later p.up }

/-- CLOCK_STEP at the boundary at beat `t`: a step down is taken before a step up (R467). -/
def State.stepAt (s : State) (t : Nat) : State :=
  let p := s.pwr
  let s := { s with pwr := p.after t }
  if !s.mainOn then s
  else if stepDue t p.down ∧ s.clockStep < 3 then s.takeStep (s.clockStep + 1)
  else if stepDue t p.up ∧ 0 < s.clockStep then s.takeStep (s.clockStep - 1)
  else s

/-- ALIGNED_INTERVAL_BOUNDARY (R467): with the time base's ENABLE 0, clock steps are taken at multiples of 65,536 beats. -/
def execAlignedIntervalBoundary (s : State) : Host.Outcome State Fault Refusal :=
  .next (if s.enabled .ftb ∨ s.beat % 65536 ≠ 0 then s else s.stepAt s.beat)

end Sys2Proof.Machine
end

