-- ==== Sys2Proof/Machine/Service.lean ====
section
/-! DEFINITION. Service ports: Ethernet frames through rings in memory (R349, R350). -/
namespace Sys2Proof.Machine

/-- Descriptors of a ring: `i` is 0 for transmit, 4 for receive. -/
def State.ringSizeOf (s : State) (q : PortId) (i : Nat) : Nat := 2 ^ s.field (.opt q) OPT_SVC_CFG i 4

/-- A write of TAIL (R351): a value at or above the ring size is ignored. -/
def State.writeTail (s : State) (q : PortId) (reg i v : Nat) : State :=
  let b := Blk.opt q
  if !s.powered b then s
  else if s.ringSizeOf q i ≤ v % 2 ^ 16 then s.writeIgnored b
  else s.setReg b reg (v % 2 ^ 15)

def State.serviceUp (s : State) (q : PortId) : Bool := s.enabled (.opt q) && s.isService q && s.optState q == stUp

/-- Does a SYNC value name a sync object that exists, 0 to 47 of a core of clusters 0 to 79 (R251)? -/
def syncNamed (v : Nat) : Bool := decide (bits v 4 7 < 80) && decide (bits v 14 6 < 48)

/-- The completion signal of a descriptor that asks for one; OPT_SVC_SYNC that names no object signals none (log entry 102). -/
def State.svcSignal (s : State) (q : PortId) (word : Nat) : State :=
  if bit word 62 && syncNamed (s.reg (.opt q) OPT_SVC_SYNC) then
    let g := syncTarget (s.reg (.opt q) OPT_SVC_SYNC)
    s.signal [⟨g.1, g.2, 1⟩]
  else s

/-- SVC_FRAME_SENT (R349, R350): the descriptor at HEAD is transmitted with its FCS, on a credit of lane 0, and completes. -/
def execSvcFrameSent (q : PortId) (s : State) : Host.Outcome State Fault Refusal :=
  let b := Blk.opt q
  let head := s.field b OPT_SVC_TX_HEAD 0 15
  let m := portIdx q
  let c := (s.portQ m).credit0
  .next (if !s.serviceUp q ∨ s.feed q = 0 ∨ c = 0 ∨ head = s.field b OPT_SVC_TX_TAIL 0 15 then s
    else
      let a := s.pair b OPT_SVC_TX_LO OPT_SVC_TX_HI + 16 * head
      let w := s.rd a 8
      let l := s.readBytes (bits w 0 48) (bits w 48 14)
      let s := (s.emit (.ethernet m (l ++ leBytes 4 (frameCheck l)))).setPortQ m { s.portQ m with credit0 := c - 1 }
      let s := s.outsideWrite a (leBytes 8 (setBitOn w 63) ++ leBytes 8 0)
      let s := s.setReg b OPT_SVC_TX_HEAD ((head + 1) % s.ringSizeOf q 0)
      (s.bump b OPT_CNT_SVC_TX).svcSignal q w)

/-- The number that six bytes spell, first byte highest. -/
def beVal (l : List Byte) : Nat := leVal l.reverse

/-- Does the port accept a frame's destination address (R349)? -/
def State.acceptsMac (s : State) (q : PortId) (l : List Byte) : Bool :=
  let d := beVal (l.take 6)
  d == s.pair (.opt q) OPT_SVC_MAC_LO OPT_SVC_MAC_HI || d == 0xFFFFFFFFFFFF ||
    (bit d 40 && s.flag (.opt q) OPT_CTRL 18)

/-- SVC_FRAME_RECEIVE (R349, R350): `bytes` are the frame without its FCS. -/
def execSvcFrameReceive (q : PortId) (bytes : List Byte) (fcsOk : Bool) (s : State) : Host.Outcome State Fault Refusal :=
  let b := Blk.opt q
  let head := s.field b OPT_SVC_RX_HEAD 0 15
  let full := head == s.field b OPT_SVC_RX_TAIL 0 15
  .next (if !s.serviceUp q then s
    else if !fcsOk || !inRange bytes.length 60 9212 || beVal ((bytes.drop 12).take 2) == 0x8808 then s.bump b OPT_CNT_SVC_DROP
    else if !s.acceptsMac q bytes then s
    else if full then s.bump b OPT_CNT_SVC_DROP
    else
      let a := s.pair b OPT_SVC_RX_LO OPT_SVC_RX_HI + 16 * head
      let w := s.rd a 8
      let dst := bits w 0 48
      let s := if rangeDram dst bytes.length then s.outsideWrite dst bytes else s
      let s := s.outsideWrite a (leBytes 8 (setBitOn (setBits w 48 14 bytes.length) 63) ++ leBytes 8 s.beat)
      let s := s.setReg b OPT_SVC_RX_HEAD ((head + 1) % s.ringSizeOf q 4)
      (s.bump b OPT_CNT_SVC_RX).svcSignal q w)

end Sys2Proof.Machine
end

