-- ==== Sys2Proof/Machine/RegWrite.lean ====
section
/-! DEFINITION. Writing the control space (R432 to R437): gating, field rules, posted writes, the local register path of
a core (R151), and the rows for a register of any block. -/
namespace Sys2Proof.Machine

/-! ## What one register's write does -/

/-- Registers that only the Forester writes: a write of any other agent is ignored (R256, R288, R329, R427, R432). -/
def foresterOnly (b : Blk) (o : Nat) : Bool :=
  match b with
  | .ftb => decide (FTB_PLAN_LO 0 ≤ o) && decide (o < FTB_PLAN_LO 0 + 0x200) && decide ((o - FTB_PLAN_LO 0) % 0x20 < 0x10)
  | .tly => o == TLY_SEL
  | .lnd _ => decide (LND_SLOT 0 ≤ o) && decide (o ≤ LND_SLOT 15)
  | .clu _ => o == CLU_XLAT_LO || o == CLU_XLAT_HI || o == CLU_XLAT_GEN
  | .cor _ => decide (SYN_OBJ 0 ≤ o) && decide (o ≤ SYN_OBJ 47)
  | _ => false

/-- Is work in progress that keeps the configuration of a disabled unit from changing (R77, R101, R123)? -/
def State.unitBusy (s : State) (b : Blk) : Bool :=
  match b with
  | .cru c => s.cruBusy c
  | .skd c => s.skdBusy c
  | .sil c => s.silBusy c
  | _ => false

def stored (v lo hi dflt : Nat) : Nat := if inRange v lo hi then v else dflt

/-- The value that a register takes from a write of `v`, where its fields say what an out-of-range value stores. -/
def clampReg (b : Blk) (o v : Nat) : Nat :=
  match b with
  | .skd _ => if o = SKD_BANK_CAP then stored v 16 256 256 else v
  | .sil _ => if o = SIL_WAIT then stored v 1 1000000 1000 else v
  | .cor _ =>
    if o = COR_SLOT_CFG then stored (bits v 0 4) 3 12 12 + stored (bits v 8 5) 0 24 8 * 2 ^ 8
    else if o = SYN_WDOG then stored v 1 1000000 1000
    else v
  | .clu _ => if o = BAR_WDOG then stored v 1 1000000 1000 else v
  | .cch _ => if o = CCH_PF_CFG then stored (bits v 0 8) 4 128 32 + bits v 8 1 * 2 ^ 8 else v
  | .lnd _ => if o = LND_CFG then stored v 1 256 256 else v
  | .pwr => if o = GLB_PWR_CAP then stored v 4000 18000 18000 else v
  | _ => v

/-- The bits of a route-table word that a write reaches. -/
def routeMask (i v : Nat) : Nat := if i % 4 = 3 then v % 2 else v

/-- A write of GLB_THROTTLE: a LOW not below its HIGH, or a HIGH above the matching trip, is ignored (R469). -/
def State.throttleBad (s : State) (v : Nat) : Bool :=
  decide (bits v 0 8 ≤ bits v 8 8) || decide (bits v 16 8 ≤ bits v 24 8) ||
    decide (s.field .pwr GLB_TRIP 0 8 < bits v 0 8) || decide (s.field .pwr GLB_TRIP 8 8 < bits v 16 8)

/-- A write of FTB_SWITCH_STEP j: a switch step that the slot's running job has reached refuses its next plan (R281). -/
def State.writeSwitch (s : State) (j v : Nat) : State :=
  let s := (s.setReg .ftb (FTB_SWITCH_STEP j) v).setJob j { s.job j with nextAt := s.beat }
  if s.flag .ftb (FTB_NEXT_LO j) 0 && s.switchReached j v then s.refuseNext j else s

/-- A write that reaches a writable register of a block, `v` holding its writable bits. -/
def State.storeReg (s : State) (b : Blk) (o v : Nat) : State :=
  let plain := s.setReg b o (clampReg b o v)
  match b with
  | .ftb =>
    if o = FTB_BEAT_HI then s.presetBeat (s.reg b FTB_BEAT_LO + v * 2 ^ 32)
    else match jobSlots.find? fun j => o == FTB_SWITCH_STEP j with
      | some j => s.writeSwitch j v
      | none => plain
  | .pwr => if o = GLB_THROTTLE ∧ s.throttleBad v then s.writeIgnored b else plain
  | .til t =>
    if o = TIL_RT_DATA then
      let i := s.field b TIL_RT_INDEX 10 2 + s.field b TIL_RT_INDEX 0 10 * 4
      s.setRouteWord t i (routeMask i v)
    else plain
  | .opt q =>
    if o = OPT_SVC_TX_TAIL then s.writeTail q OPT_SVC_TX_TAIL 0 v
    else if o = OPT_SVC_RX_TAIL then s.writeTail q OPT_SVC_RX_TAIL 4 v
    else plain
  | .clu c =>
    if o = CLU_PROFILE then (s.setField b o 0 1 v).setCluster c
        { s.cluster c with profileAt := (s.beat, bit v 0) :: (s.cluster c).profileAt }
    else match (upFrom 0 8).find? fun i => o == BAR_CFG i with
      | some i => plain.settleBarrier c i
      | none => plain
  | .cru c => if o = CRU_QUEUE_HI then s.cruQueueHi c v else plain
  | .skd c =>
    if o = SKD_QUEUE_HI then s.skdQueueHi c v
    else if SKD_APPLIED 0 ≤ o ∧ o ≤ SKD_APPLIED 7 then plain.skdKick c
    else plain
  | .sil c =>
    if o = SIL_QUEUE_HI then s.silQueueHi c v
    else if o = SIL_PARK_HI then s.park c v
    else if o = SIL_ADOPT_HI then s.adopt c v
    else match slots8.find? fun i => o == SIL_APPLY_DONE i with
      | some i => s.applyDone c i v
      | none => plain
  | .cor k =>
    if o = VEC_REG_DATA then
      if s.enabled b then s.writeIgnored b
      else s.setCore k { s.core k with vreg := sset (fun _ => 0) (s.core k).vreg (s.vecSel k) (BitVec.ofNat 32 v) }
    else plain
  | _ => plain

/-- A write to a block's own register takes effect, under R432 and R437. -/
def State.writeOwn (s : State) (b : Blk) (o v : Nat) : State :=
  match b.row? o with
  | none => s
  | some r =>
    let w := Nat.land v r.mask
    match r.acc with
    | .ro | .rc => s
    | .dbg => if s.foe.debug then s.storeReg b o w else s.writeIgnored b
    | .rw | .wo => if r.cfg && (s.enabled b || s.unitBusy b) then s.writeIgnored b else s.storeReg b o w

/-- A write to the MSI-X table or a mailbox: unmasking a vector whose pending bit is set signals it (log entry 43). -/
def State.writeMsix (s : State) (o v : Nat) : State :=
  if o < MSIX_TABLE + 0x400 then
    let n := (o - MSIX_TABLE) / 16
    let s := s.setReg .mbx o v
    if o % 16 = 12 ∧ !bit v 0 ∧ s.flag .mbx (MSIX_PBA + n / 32 * 4) (n % 32) then
      (s.clearFlag .mbx (MSIX_PBA + n / 32 * 4) (n % 32)).msix n
    else s
  else if 0x10000 ≤ o ∧ o < 0x30000 then
    let n := (o - 0x10000) / 0x2000
    s.setBox n ((s.box n).put ((o - 0x10000) % 0x2000) v)
  else s

/-- A write takes effect in its block (R432 to R435). -/
def State.writeEffect (s : State) (b : Blk) (o v : Nat) : State :=
  if !s.powered b then s
  else if o = BLK_CTRL then
    let s := s.writeArm b (bit v 1)
    if bit v 0 then s.enableBlk b else s.disableBlk b
  else if o = BLK_CFG_CRC_REF then (if s.enabled b then s.writeIgnored b else s.setReg b o v)
  else if o < 0x100 then s
  else if b = .mbx ∧ 0x1000 ≤ o then s.writeMsix o v
  else if foresterOnly b o then s.writeIgnored b
  else s.writeOwn b o v

/-! ## Posted writes (R435) -/

def State.pendingWrite (s : State) (b : Blk) : Option (Nat × Nat) := sget (fun _ => none) s.posted b.base
def State.setPending (s : State) (b : Blk) (w : Option (Nat × Nat)) : State :=
  { s with posted := sset (fun _ => none) s.posted b.base w }

/-- A write reaches a block: a posted block takes it later, and ignores a second one meanwhile (R435). -/
def State.writeReg (s : State) (b : Blk) (o v : Nat) : State :=
  if !s.powered b then s
  else if !b.posted then s.writeEffect b o v
  else if (s.pendingWrite b).isSome then s.writeIgnored b
  else s.setPending b (some (o, v))

/-- FTB_BEAT_PRESET (R269, R435): the write of FTB_BEAT_LO has taken effect when FTB_BEAT_HI is written, as R8 has software poll
BLK_BUSY; while a write is pending both are ignored. -/
def execFtbBeatPreset (lo hi : W32) (s : State) : Host.Outcome State Fault Refusal :=
  .next (if (s.pendingWrite .ftb).isSome then s.writeReg .ftb FTB_BEAT_LO lo.toNat
    else (s.writeEffect .ftb FTB_BEAT_LO lo.toNat).writeReg .ftb FTB_BEAT_HI hi.toNat)

/-- SVC_TX_TAIL_WRITE (R350, R351): TAIL is written as its register is, posted. -/
def execSvcTxTailWrite (q : PortId) (v : W32) (s : State) : Host.Outcome State Fault Refusal :=
  .next (s.writeReg (.opt q) OPT_SVC_TX_TAIL v.toNat)

/-- SVC_RX_TAIL_WRITE (R350, R351). -/
def execSvcRxTailWrite (q : PortId) (v : W32) (s : State) : Host.Outcome State Fault Refusal :=
  .next (s.writeReg (.opt q) OPT_SVC_RX_TAIL v.toNat)

/-- The block at a control-space address. -/
def withBlk (a : W32) (f : Blk → Nat → State) (s : State) : State :=
  match blkOfAddr a.toNat with
  | some (b, o) => f b o
  | none => s

/-- POSTED_WRITE_EFFECT (R435). -/
def execPostedWriteEffect (addr : W32) (s : State) : Host.Outcome State Fault Refusal :=
  .next (withBlk addr (fun b _ =>
    match s.pendingWrite b with
    | some (o, v) => (s.setPending b none).writeEffect b o v
    | none => s) s)

/-- BLK_CTRL with ENABLE as asked and SNAP_ARM as it stands. -/
def State.ctrlWord (s : State) (b : Blk) (en : Nat) : Nat := en + s.field b BLK_CTRL 1 1 * 2

/-- BLK_ENABLE (R433). -/
def execBlkEnable (addr : W32) (s : State) : Host.Outcome State Fault Refusal :=
  .next (withBlk addr (fun b _ => s.writeReg b BLK_CTRL (s.ctrlWord b 1)) s)

/-- BLK_DISABLE (R433). -/
def execBlkDisable (addr : W32) (s : State) : Host.Outcome State Fault Refusal :=
  .next (withBlk addr (fun b _ => s.writeReg b BLK_CTRL (s.ctrlWord b 0)) s)

/-- OPT_ENABLE (R336, R435): the write of ENABLE is posted; `fed` are the wavelengths that the feed supplies when it takes effect. -/
def execOptEnable (q : PortId) (fed : Byte) (s : State) : Host.Outcome State Fault Refusal :=
  .next (let t := if (s.pendingWrite (.opt q)).isSome then s else s.setOpt q { s.opt q with fed := some fed.toNat }
    if s.powered (.opt q) then t.writeReg (.opt q) BLK_CTRL (s.ctrlWord (.opt q) 1) else s)

/-- OPT_DISABLE (R351, R435): the write of ENABLE is posted. -/
def execOptDisable (q : PortId) (s : State) : Host.Outcome State Fault Refusal :=
  .next (s.writeReg (.opt q) BLK_CTRL (s.ctrlWord (.opt q) 0))

/-- SNAP_ARM_WRITE (R431). -/
def execSnapArmWrite (addr : W32) (on : Bool) (s : State) : Host.Outcome State Fault Refusal :=
  .next (withBlk addr (fun b _ => s.writeReg b BLK_CTRL (b2n (s.enabled b) + b2n on * 2)) s)

/-! ## The running CRC (R434) -/

/-- A halted block stops at once, without its orderly stop. The trail that a haul of a halted Skidder had open stays open: its
Sillage unit is BUSY, and no park begins, until that unit is disabled (log entry 38). -/
def State.haltUnits (s : State) (b : Blk) : State :=
  match b with
  | .cor k =>
    let s := s.leaveBarrier k
    let s := ((s.clearFlag b COR_STATE stRunning).clearFlag b COR_STATE stWaiting).setStall k .none
    s.setCore k { (s.core k).dropDma with dmaQ := [], mtxQ := [], vecQ := [], dmaRun := [],
                                          groups := List.replicate 4 Group.closed }
  | .cru c => s.setCruiser c { s.cruiser c with queue := [], plot := none, own := [], served := [], running := [], serves := [] }
  | .skd c =>
    s.setSkidder c { s.skidder c with queue := [], hauls := [], gather := [], sent := [], serves := [], waits := [], reads := [],
                                      ownQ := [], servedQ := [], running := [] }
  | .sil c => (s.setSillage c { s.sillage c with queue := [] }).silDrop c
  | .til t => s.tilStop t
  | .lnd t => s.lndClear t
  | .opt q => s.optStop q
  | .ftb => s.ftbStop
  | .hbc .. | .lpc .. => s.clearFlag b HBC_STATE 2
  | _ => s

/-- A block's running compare fails (R434): it halts, and every running job faults. The power block takes a thermal trip
instead (23). -/
def State.crcHalt (s : State) (b : Blk) : State :=
  if b = .pwr then thermalTrip ((s.setFlag b BLK_STATUS 1).log b b.crcCode 4 [1])
  else
    let s := ((s.clearFlag b BLK_CTRL 0).setFlag b BLK_STATUS 1).haltUnits b
    (s.log b b.crcCode 3 [1]).faultAll b.crcCode b.base

/-- Damage to configuration storage: a configuration register, or a word of a tile's route table, holds another value. -/
def State.damageCfg (s : State) (b : Blk) (d : Option CfgDamage) : State :=
  match d with
  | some (.register o v) => if b.cfgOffsets.contains o.toNat then s.setReg b o.toNat v.toNat else s
  | some (.routeWord i v) =>
    match b with
    | .til t => s.setRouteWord t i.toNat (routeMask i.toNat v.toNat)
    | _ => s
  | none => s

/-- CFG_CRC_COMPARE (R434): the compare that an enabled block makes every 1,024 cycles; `damage` is what has happened to
its storage since the last. -/
def execCfgCrcCompare (addr : W32) (damage : Option CfgDamage) (s : State) : Host.Outcome State Fault Refusal :=
  .next (withBlk addr (fun b _ =>
    let t := s.damageCfg b damage
    if s.enabled b && t.crcNow b != t.reg b BLK_CFG_CRC_REF then t.crcHalt b else t) s)

/-! ## The local register path (R151) -/

/-- Registers that LRD reads, by offset from the cluster base. -/
def lrdOk (o : Nat) : Bool :=
  [0x100, 0x114, 0x1104, 0x1148, 0x2148, 0x3148, 0x3154, 0x3158].contains o || (decide (0x21A0 ≤ o) && decide (o < 0x21C0)) ||
    (decide (0x31C0 ≤ o) && decide (o < 0x31E0))

/-- Registers that LWR writes. -/
def lwrOk (o : Nat) : Bool :=
  [0x100, 0x1104, 0x1140, 0x1144, 0x2140, 0x2144, 0x3140, 0x3144, 0x3160, 0x3164, 0x3168, 0x316C].contains o ||
    (decide (0x21A0 ≤ o) && decide (o < 0x21C0)) || (decide (0x31C0 ≤ o) && decide (o < 0x31E0))

def State.localOff (s : State) (k : CoreId) (ra : Fin 32) (imm : BitVec 15) : Nat := ((s.gpr k ra).toNat + imm.toNat) % 2 ^ 16

/-- LRD (R151). -/
def execLrd (k : CoreId) (rt ra : Fin 32) (imm : BitVec 15) (s : State) : Host.Outcome State Fault Refusal :=
  .next (s.issue k [rt, ra] true fun s =>
    let o := s.localOff k ra imm
    if o % 4 ≠ 0 then s.coreFault k 6 o
    else if !lrdOk o then s.coreFault k 3 o
    else
      let p := clusterBlk k.cluster o
      (s.setGpr k rt (BitVec.ofNat 32 (s.view p.1 p.2))).retire k)

/-- LWR (R151): it takes effect once the core's earlier loads and stores have been performed. -/
def execLwr (k : CoreId) (rt ra : Fin 32) (imm : BitVec 15) (s : State) : Host.Outcome State Fault Refusal :=
  .next (s.issue k [rt, ra] true fun s =>
    let o := s.localOff k ra imm
    if o % 4 ≠ 0 then s.coreFault k 6 o
    else if !lwrOk o then s.coreFault k 3 o
    else if !s.accessesDone k then s
    else
      let p := clusterBlk k.cluster o
      (s.retire k).writeEffect p.1 p.2 (s.gpr k rt).toNat)

/-! ## Memory controllers and the random source (R443 to R445) -/

def ctlBlk : MemCtl → Blk
  | .hbm t i => .hbc t i
  | .lp t i => .lpc t i

/-- PATROL_SCRUB (R443, R444): the scrub reads one beat of the device. -/
def execPatrolScrub (m : MemCtl) (addr : BitVec 48) (r : ScrubResult) (s : State) : Host.Outcome State Fault Refusal :=
  let b := ctlBlk m
  .next (if !s.enabled b ∨ !s.flag b HBC_CFG 0 ∨ memCtl addr.toNat ≠ some b then s
    else
      let s := s.setFlag b HBC_STATE 2
      match r with
      | .clean => s
      | .corrected n => (s.bump b HBC_CNT_CE n).bump b HBC_CNT_SCRUB_FIX
      | .uncorrectable => s.dramUncorrectable addr.toNat 1)

/-- RNG_HEALTH_FAIL (R445). -/
def execRngHealthFail (s : State) : Host.Outcome State Fault Refusal :=
  .next (if s.standbyOn then ((s.setFlag .rng RNG_STATE 1).bump .rng RNG_CNT_FAIL).log .rng 0x0150 4 else s)

end Sys2Proof.Machine
end

