-- ==== Sys2Proof/Machine/Jobs.lean ====
section
/-! DEFINITION. What takes effect at a frame boundary (R275): job stops (R363), job starts, plan switches and steps
(R281), profiling (R169), translation invalidations (R165) and capacity events (R347). -/
namespace Sys2Proof.Machine

/-- Was a request latched at `b` early enough for the boundary at `t` (R275)? -/
def latchedFor (b t : Nat) : Bool := decide (b + 256 ≤ t)

/-! ## Job stops (R363) -/

/-- Transfers of the job that the fabric block had begun are discarded with their timers; a flow whose hand-over order a
discarded transfer held starts again from the next that comes. -/
def State.dropJobFabric (s : State) (job : Nat) (t : Fin 8) : State :=
  let f := s.fabric t
  let gone := f.rx.filter fun x => x.job == job && !x.handed
  let seqs := gone.foldl (fun l x => setSeq l x.src x.flow none) f.rxSeq
  s.setFabric t { f with tx := f.tx.filter (fun x => x.job != job), rx := f.rx.filter (fun x => x.job != job), rxSeq := seqs,
                         arrived := f.arrived.filter fun p => p.job != job }

/-- The Cruiser abandons the job's plot and served batches; batches that wait for a window are never sent. -/
def State.dropJobUnits (s : State) (job : Nat) (c : ClusterId) : State :=
  let m := s.mailroom c
  let s := s.setMailroom c { m with outbox := m.outbox.filter fun x => x.job != job }
  let u := s.cruiser c
  let s := s.setCruiser c { u with plot := none, own := [], served := [], running := [], serves := [] }
  s.setCluster c { s.cluster c with poisoned := [] }

/-- A core that runs stops issuing where it stands, and is marked as stopped by a job stop (R363, R448). -/
def State.stopCoreIssue (s : State) (k : CoreId) : State :=
  if s.coreRunning k then (s.clearFlag (.cor k) COR_STATE stRunning).setCore k { s.core k with jobStopped := true } else s

/-- Every core of a cluster stops issuing where it stands (R363). -/
def State.stopIssuing (s : State) (c : ClusterId) : State := cores16.foldl (fun s i => s.stopCoreIssue (c.coreAt i)) s

def StopKind.code : StopKind → Nat
  | .command => 1 | .fault => 2 | .lookout => 3

/-- A FORCE_STOP takes effect, which is a trigger of its own (R413, R415). -/
def State.reportForce (s : State) (t : Nat) : State := (s.fireBlaze 2 t 0 0).hostEvent evLookout

/-- Blaze and the host hear of a stop; `t` is the boundary's beat, and `forced` says whether a FORCE_STOP takes effect with a
fault. -/
def State.reportStop (s : State) (r : StopReq) (forced : Bool) (t : Nat) : State :=
  match r.kind with
  | .fault =>
    let s := (if r.blazed then s else s.fireBlaze 4 t r.cause r.source).hostEvent evFaulted
    if forced then s.reportForce t else s
  | .lookout => (s.hostEvent evStopped).reportForce t
  | .command => s.hostEvent evStopped

/-- JOB_STOP_AT_BOUNDARY (R363): slot `j`'s job stops at the boundary at beat `t`, which opens frame `f`. -/
def State.stopJob (s : State) (j : Nat) (r : StopReq) (forced : Bool) (t f : Nat) : State :=
  let v := s.job j
  let fault := r.kind == .fault
  let s := tiles8.foldl (fun s u => s.dropJobFabric v.job u) s
  let s := tiles8.foldl (fun s u => s.writeLndSlot u j (v.job % 2 ^ 12)) s
  let s := v.clusters.foldl (fun s c => (s.dropJobUnits v.job (clusterOfIdx c)).stopIssuing (clusterOfIdx c)) s
  let s := s.setJob j { v with running := false, starting := false, stopped := some r.kind, snapHeld := fault, stops := [],
                               owed := [], watch := [], done := [], opened := [], waiting := [], winCounts := [], winUses := [],
                               record := ⟨v.job, r.kind.code, r.cause, f⟩ }
  let s := s.log .fo 0x0131 (if fault then 3 else 1) [v.job, r.cause, f]
  let s := if fault then { s with tally := { s.tally with jobFaults := s.tally.jobFaults + 1 } } else s
  s.reportStop r forced t

/-- The stop that counts at the boundary at beat `t` among those latched in time for it: a fault before a stop by Lookout,
and that before one by command (R363, R406). -/
def JobSlot.stopDue (v : JobSlot) (t : Nat) : Option StopReq :=
  let due := v.stops.filter fun r => latchedFor r.at_ t
  ((due.find? (·.kind == .fault)).orElse fun _ => due.find? (·.kind == .lookout)).orElse fun _ => due.head?

/-- Does a FORCE_STOP of the slot take effect at the boundary at beat `t`? -/
def JobSlot.forceDue (v : JobSlot) (t : Nat) : Bool := v.stops.any fun r => latchedFor r.at_ t && r.kind == .lookout

def State.stopsAt (s : State) (t f : Nat) : State :=
  jobSlots.foldl (fun s j =>
    match (s.job j).stopDue t with
    | some r => if (s.job j).running then s.stopJob j r ((s.job j).forceDue t) t f else s
    | none => s) s

/-! ## Steps (R281) -/

def Plan.stepAt (p : Plan) (f : Nat) : Nat :=
  (p.firstStep + (f + (2 ^ 32 - p.startFrame)) % 2 ^ 32 / p.stepFrames) % 2 ^ 32

/-- Is step `m` one of n − 2 to n + 1 (R305, R318)? -/
def nearStep (w n m : Nat) : Bool := decide ((n + 1 + 2 ^ w - m % 2 ^ w) % 2 ^ w ≤ 3)

/-- Records of steps before n − 2 are forgotten (R305, R318); marks go when their step's number is about to be reused, half
the step numbers later. -/
def State.forgetSteps (s : State) (j n : Nat) : State :=
  let v := s.job j
  let ok (m : Mark) : Bool := m.step != (n + 2 ^ 31) % 2 ^ 32
  let s := s.setJob j { v with owed := v.owed.filter ok, opened := v.opened.filter ok, waiting := v.waiting.filter ok,
                               done := v.done.filter fun m => nearStep 32 n m.step || v.watch.contains m || v.waiting.contains m || v.owed.contains m,
                               winCounts := v.winCounts.filter (fun w => ok w.mark), winUses := v.winUses.filter fun w => ok w.mark }
  tiles8.foldl (fun s t =>
    let f := s.fabric t
    let s := s.setFabric t { f with rx := f.rx.filter fun x => x.job != v.job || nearStep 16 n x.step }
    let l := s.landing t
    s.setLanding t { streams := l.streams.filter fun x => x.slot != j || x.isOpen || nearStep 32 n x.step,
                     logged := l.logged.filter fun x => x.id.slot != j || nearStep 32 n x.id.step,
                     refused := l.refused.filter fun x => x.slot != j || nearStep 32 n x.step }) s

/-- Does a fabric block or a cluster take the entry at its beat? Landing reads no slab of a REDUCE that is not LOCAL. -/
def PlanEntry.taken (e : PlanEntry) : Bool := e.kind != 3 || bit e.param 14

/-- Is the entry one whose deadline is checked (R280, R283)? A prefetch window has none. -/
def PlanEntry.checked (e : PlanEntry) : Bool := e.kind == 1 || e.kind == 3 || (e.kind == 2 && bits e.param 0 3 != 2)

/-- The marks of a step of a job, tile by tile in entry order. -/
def JobSlot.marks (v : JobSlot) (step : Nat) : List Mark :=
  match v.planFor step with
  | none => []
  | some p => (upFrom 0 8).flatMap fun t =>
      (upFrom 0 ((p.tiles[t]?).getD []).length).map fun i => ⟨t, i, step⟩

/-- Step `n`, which began at frame `at_`, is the job's step in frame `f`: slips are counted anew, its entries are to be
taken, and those whose deadline has not passed to be checked; its streams open. -/
def State.enterStep (s : State) (j n at_ f : Nat) : State :=
  let s := s.setReg .ftb (FTB_STEP_SLIPS j) 0
  let v := s.job j
  let that (p : Mark → PlanEntry → Bool) : List Mark := (v.marks n).filter fun m => ((v.entry m).map (p m)).getD false
  let late (m : Mark) (e : PlanEntry) : Bool := ((v.deadline m e).map (later32 f)).getD false
  let s := s.setJob j { v with step := n, stepFrame := at_, owed := v.owed ++ that fun _ e => e.taken,
                               watch := v.watch ++ that fun m e => e.checked && !late m e }
  (s.forgetSteps j n).openStep j

/-- Has the slot a next plan that was asked for in time for the boundary at beat `t` (R275)? -/
def State.nextReady (s : State) (j t : Nat) : Bool := s.flag .ftb (FTB_NEXT_LO j) 0 && latchedFor (s.job j).nextAt t

/-- What completed of step `n` under the plan before is matched again under the plan that begins with it (R303, R304). -/
def State.rematch (s : State) (j n : Nat) : State :=
  let v := s.job j
  let s := s.setJob j { v with done := v.done.filter fun m => m.step != n, winCounts := v.winCounts.filter fun w => w.mark.step != n }
  tiles8.foldl (fun s t =>
    ((s.fabric t).rx.filter fun x => x.job == v.job && x.step == n && x.complete).foldl (fun s x =>
      if x.typ = typPut then (s.expectsMet t j x).foldl (fun s m => s.markComplete j m) s
      else if x.typ = typMsg ∧ x.handed then s.countBatch t j x
      else s) s) s

/-- PLAN_SWITCH (R281): step `n`, which begins at frame `at_`, runs under the next plan, whose START_FRAME is that frame and
whose FIRST_STEP is `n`. -/
def State.switchPlan (s : State) (j n at_ t : Nat) : State :=
  let v := s.job j
  if s.nextReady j t ∧ s.reg .ftb (FTB_SWITCH_STEP j) = n then
    match v.nextPlan with
    | some p =>
      let s := (s.setReg .ftb (FTB_PLAN_LO j) (s.reg .ftb (FTB_NEXT_LO j))).setReg .ftb (FTB_PLAN_HI j) (s.reg .ftb (FTB_NEXT_HI j))
      ((s.clearFlag .ftb (FTB_NEXT_LO j) 0).setJob j
        { v with plan := some { p with startFrame := at_, firstStep := n }, nextPlan := none,
                 oldPlans := v.plan.toList ++ v.oldPlans }).rematch j n
    | none => s
  else s

/-- A running job's step advances with the frames: each lasts STEP_FRAMES of its plan. -/
def State.advanceJob (s : State) (j f t : Nat) : State :=
  let v := s.job j
  match v.plan with
  | some p =>
    let n := (v.step + 1) % 2 ^ 32
    let at_ := (v.stepFrame + p.stepFrames) % 2 ^ 32
    if v.running ∧ !later32 at_ f then (s.switchPlan j n at_ t).enterStep j n at_ f else s
  | none => s

/-- A switch step that is reached when its request takes effect refuses the plan (R275, R281). -/
def State.refuseLate (s : State) (j t : Nat) : State :=
  if s.nextReady j t ∧ s.switchReached j (s.reg .ftb (FTB_SWITCH_STEP j)) then s.refuseNext j else s

/-- A started job begins at the boundary that opens its START_FRAME, or at the first one after it. -/
def State.startJob (s : State) (j f t : Nat) : State :=
  let v := s.job j
  match v.plan with
  | some p =>
    if v.starting ∧ !later32 p.startFrame f then
      let n := p.stepAt f
      let at_ := (p.startFrame + (n + (2 ^ 32 - p.firstStep)) % 2 ^ 32 * p.stepFrames) % 2 ^ 32
      let s := s.setJob j { v with starting := false, running := true, stopped := none, snapHeld := false, stops := [], oldPlans := [],
                                   record := ⟨0, 0, 0, 0⟩ }
      (s.switchPlan j n at_ t).enterStep j n at_ f
    else s
  | none => s

/-- Entries whose deadline frame was `f`, which has ended, are checked no more. -/
def State.unwatch (s : State) (j f : Nat) : State :=
  let v := s.job j
  s.setJob j { v with watch := v.watch.filter fun m => ((v.entry m).map fun e => v.deadline m e != some f).getD false }

/-! ## Profiling and translation (R165, R168, R169) -/

/-- The last of the requests for profiling mode that were latched in time takes effect (R169, R275). -/
def State.profileOne (s : State) (t c : Nat) : State :=
  let k := clusterOfIdx c
  let l := (s.cluster k).profileAt
  match l.find? fun p => latchedFor p.1 t with
  | some p =>
    (s.setField (.clu k) CLU_PROFILE 1 1 p.2.toNat).setCluster k
      { s.cluster k with profileAt := l.filter fun p => !latchedFor p.1 t }
  | none => s

def State.profileAt (s : State) (t : Nat) : State := (s.clusters.map (·.1)).foldl (fun s c => s.profileOne t c) s

/-- Every translation cache and prefetcher translation of a cluster is invalidated (R165). -/
def State.invalidateXlat (s : State) (c : Nat) : State :=
  let k := clusterOfIdx c
  let s := cores16.foldl (fun s i => s.setCore (k.coreAt i) { s.core (k.coreAt i) with tlb := [] }) s
  let v := s.cluster k
  (s.setCluster k { v with streams := v.streams.map fun t => { t with pages := [] } }).bump (.clu k) CLU_XLAT_GEN

/-- The invalidations latched for the boundary are made. -/
def State.invalsAt (s : State) (t : Nat) : State :=
  let due := s.foe.invals.filter fun v => latchedFor v.at_ t
  let s := { s with foe := { s.foe with invals := s.foe.invals.filter fun v => !latchedFor v.at_ t } }
  due.foldl (fun s v => v.clusters.foldl State.invalidateXlat s) s

def frameUsedAddr (s : State) (a : Nat) : Bool :=
  match blkOfAddr a with
  | some (.cor k, o) => o == COR_FRAME_USED && !(s.core k).framesMarked
  | _ => false

/-- COR_FRAME_USED reads 0xFFFF_FFFF where the frame that ended held no FRAME mark (R168). -/
def State.marksAt (s : State) : State :=
  let s := { s with regs := s.regs.filter fun p => !frameUsedAddr s p.1 }
  (s.cores.map (·.1)).foldl (fun s n => s.setCore (coreOfIdx n) { s.core (coreOfIdx n) with framesMarked := false }) s

/-! ## The boundary (R273, R275) -/

/-- Capacity events whose effective frame has come (R347). -/
def State.capsAt (s : State) (f : Nat) : State :=
  { s with time := { s.time with capNext := s.time.capNext.filter fun e => later32 e.frame f } }

/-- Slip tokens that came early for the frame that opens (R285). -/
def State.tokensAt (s : State) (f : Nat) : State :=
  let l := s.time.ahead.filter fun a => a.frame == f
  let s := { s with time := { s.time with ahead := s.time.ahead.filter fun a => later32 a.frame f } }
  l.foldl (fun s a => s.applySlip a.n a.src) s

/-- Frame F + 1 opens at beat `t`; what is known of frames whose numbers now name frames to come is forgotten (R274,
log entry 99). -/
def State.openFrame (s : State) (t : Nat) : State :=
  let old := s.frame
  let n := s.reg .ftb FTB_CUR_EXT
  let s := jobSlots.foldl (fun s j => s.unwatch j old) s
  let s := (s.setReg .ftb FTB_FRAME (old + 1)).setReg .ftb FTB_CUR_EXT 0
  let ok (a : Slip) : Bool := a.frame != (old + 1 + 2 ^ 31) % 2 ^ 32
  let fresh (e : CapEvent) : Bool := e.origin != (old + 1 + 2 ^ 31) % 2 ^ 32
  { s with time := { s.time with frameStart := t, checked := false, past := ⟨old, n, 0⟩ :: s.time.past.filter ok,
                                 seen := s.time.seen.filter ok, capSeen := s.time.capSeen.filter fresh,
                                 capLogged := s.time.capLogged.filter fresh } }

/-- All that takes effect at the boundary at beat `t`, where the current frame has opened: stops, then starts and switches, then
the requests of R275. -/
def State.opened (s : State) (t : Nat) : State :=
  let s := s.marksAt
  let f := s.frame
  let s := s.stopsAt t f
  let s := jobSlots.foldl (fun s j => s.startJob j f t) s
  let s := jobSlots.foldl (fun s j => (s.advanceJob j f t).refuseLate j t) s
  let s := ((s.profileAt t).invalsAt t).capsAt f
  let s := ports48.foldl State.upgradeAt s
  ((s.stepAt t).tokensAt f).settleBlaze

def State.boundaryAt (s : State) (t : Nat) : State := (s.openFrame t).opened t

/-- The frames begin at the origin beat (R273), a boundary like any other: a job that starts with that frame starts there (R281). -/
def State.originAt (s : State) : State :=
  let s := s.beginFrames
  if s.time.begun then s.opened s.time.frameStart else s

/-- FRAME_BOUNDARY in the time base and the job slots. -/
def State.frameBoundary (s : State) : State :=
  if !s.enabled .ftb then s
  else if !s.time.begun then s.originAt
  else if s.frameEnd ≤ s.beat then s.boundaryAt s.frameEnd
  else s

end Sys2Proof.Machine
end

