-- ==== Sys2Proof/Machine/Boot.lean ====
section
/-! DEFINITION. The provenance record (R389 to R391), identity (R393), firmware images and update records (R395 to
R400), the power-up of the standby domain (R388), and the quote (R401, R402). -/
namespace Sys2Proof.Machine

/-! ## Cryptography as bytes (log entry 8) -/

def sha512 (l : List Byte) : List Byte := leBytes 64 (Config.sha512 l).toNat

/-- Ed25519 over the SHA-512 digest of a message, as every signature of the spec is. -/
def signedBy (key msg sig : List Byte) : Bool := Config.ed25519Verify key (sha512 msg) sig

/-! ## The active copy (R389 to R391) -/

def zeroAt (l : List Byte) (o n : Nat) : List Byte := l.take o ++ List.replicate n 0 ++ l.drop (o + n)

/-- A copy is valid (R390). -/
def copyValid (l : List Byte) : Bool :=
  let f o n := fieldAt l o n
  f 0 4 == 0x564F5250 && f 4 2 == 1 && inRange (f 0xC 4) 4096 1048576 && l.length == f 0xC 4 &&
    f 0x3C 4 == crc32c (zeroAt l 0x3C 4) && f 6 2 == 0 && decide (f 0x1C 1 < 8) && decide (f 0x1D 1 < 2) && f 0x1E 2 == 0 &&
    allZero (slice l 0x28 20) && allZero (slice l 0x168 152) && f 0x10 8 == f 0x208 8

def State.copyGen (s : State) (c : Nat) : Nat := leVal (s.flashBytes (copyBase c + 8) 4)

/-- The identity certificate (R392). -/
def State.cert (s : State) : List Byte :=
  match s.prov with
  | some l => slice l 0x200 256
  | none => List.replicate 256 0

def State.operatorBound (s : State) : Bool := bit (s.provField 0x1D 1) 0

/-- The registers that show the active copy. -/
def State.showProv (s : State) : State :=
  let s := (s.setReg .fo FOR_MIN_VERSION (s.provField 0x18 4)).setReg .fo FOR_PROV_GEN (s.provField 8 4)
  let s := s.setReg .fo FOR_KEYS (s.provField 0x1C 1 + b2n s.operatorBound * 8)
  s.setField .lko LKO_STATE 1 1 (b2n (!s.operatorBound))

/-- The copy that becomes active at standby power-up, and PROV (R391). -/
def State.chooseProv (s : State) : Option Nat × Nat :=
  let a := copyValid (s.copyBytes 0)
  let b := copyValid (s.copyBytes 1)
  if a && b then (some (if later32 (s.copyGen 1) (s.copyGen 0) then 1 else 0), 0)
  else if a then (some 0, 1)
  else if b then (some 1, 1)
  else (none, 2)

/-- Selecting a copy (R388, R391). -/
def State.selectProv (s : State) : State :=
  let p := s.chooseProv
  let s := { s with foe := { s.foe with active := p.1, prov := p.2 } }
  let s := if p.2 = 1 then (s.setFlag .fo FOR_EVENTS 0).log .fo 0x0102 2
    else if p.2 = 2 then (s.setFlag .fo FOR_EVENTS 1).log .fo 0x0103 4
    else s
  s.showProv

/-- Reconstructing the identity key (R393). -/
def State.rebuildIdentity (s : State) : State :=
  match s.prov with
  | none => (s.setFlag .fo FOR_EVENTS 2).log .fo 0x0104 4
  | some l =>
    let key := Config.identityKey Config.pufResponse (slice l 0x300 2048)
    if Config.ed25519Public key = slice l 0x220 32 then { s with foe := { s.foe with idKey := key, idOk := true } }
    else (s.setFlag .fo FOR_EVENTS 2).log .fo 0x0104 4

/-- Lookout comes up: its address, and the first nonce (R403, R405). -/
def State.bringUpLookout (s : State) : State :=
  let r := State.freeBytes 3 s
  let s := r.2
  let mac := if s.foe.active.isSome then s.provField 0x60 6 else leVal r.1 + 0x025741 * 2 ^ 24
  let s := (s.setReg .lko LKO_MAC_LO mac).setReg .lko LKO_MAC_HI (mac / 2 ^ 32 % 2 ^ 16)
  let s := s.setField .lko LKO_STATE 2 1 (b2n s.foe.active.isNone)
  let n := State.freeBytes 16 s
  { n.2 with lko := { n.2.lko with nonce := n.1 } }

/-- STANDBY_POWER_UP (R388): the ROM's steps up to powering the main domain; the ROM commits the reference of the power
block, whose one configuration register it writes (log entry 46). -/
def execStandbyPowerUp (s : State) : Host.Outcome State Fault Refusal :=
  .next (if s.standbyOn then s
    else
      let s := { s with standbyOn := true, foe := { s.foe with romDone := true, romDigest := sha512 Config.romImage } }
      let s := s.setReg .pwr BLK_CFG_CRC_REF (s.crcNow .pwr)
      let s := (s.setFlag .rng RNG_STATE 0).selectProv.rebuildIdentity.bringUpLookout
      s.log .fo 0x0101 1)

/-- STANDBY_POWER_LOSS (R387): everything but the flash is lost, the main domain with it. -/
def execStandbyPowerLoss (s : State) : Host.Outcome State Fault Refusal :=
  .next { State.reset with pending := s.pending, clock := s.clock, freeCount := s.freeCount, out := s.out, flash := s.flash }

/-! ## The image buffer (R380, R394) -/

/-- FW_BEGIN from either agent: BUSY while the other agent's buffer is open. -/
def State.openImage (s : State) (lookout : Bool) (bytes : Nat) : State × Status :=
  match s.foe.image with
  | some i =>
    if i.lookout = lookout then ({ s with foe := { s.foe with image := some ⟨lookout, bytes, [], 0, s.clock⟩ } }, .ok) else (s, .busy)
  | none => ({ s with foe := { s.foe with image := some ⟨lookout, bytes, [], 0, s.clock⟩ } }, .ok)

/-- FW_CHUNK: bytes are written into the caller's open buffer. -/
def State.writeImage (s : State) (lookout : Bool) (off : Nat) (data : List Byte) : State × Status :=
  match s.foe.image with
  | some i =>
    if i.lookout ≠ lookout ∨ i.bytes < off + data.length then (s, .badArg)
    else
      let i := { i with data := ssetMany payloadZero i.data off data, received := i.received + data.length, at_ := s.clock }
      ({ s with foe := { s.foe with image := some i } }, .ok)
  | none => (s, .badArg)

/-- IMAGE_BUFFER_IDLE (R394): no chunk for 10 s. -/
def execImageBufferIdle (s : State) : Host.Outcome State Fault Refusal :=
  .next (match s.foe.image with
    | some i =>
      if s.clock < i.at_ + 10000 * beatsPerMs then s
      else ({ s with foe := { s.foe with image := none } }.setFlag .fo FOR_EVENTS 6).log .fo 0x0113 2
    | none => s)

def Image.content (i : Image) : List Byte := sgetMany payloadZero i.data 0 i.bytes

/-! ## Update records (R399, R400) -/

structure UpdRec where
  bytes : List Byte
  deriving DecidableEq, Repr

def UpdRec.f (r : UpdRec) (o n : Nat) : Nat := fieldAt r.bytes o n
def UpdRec.kind (r : UpdRec) : Nat := r.f 6 1
def UpdRec.value (r : UpdRec) : Nat := r.f 0x10 4

/-- Does a key stand in the ROM under its index, unrevoked? -/
def keyGood (revoked idx : Nat) (key : List Byte) : Bool :=
  decide (idx ≤ 2) && !bit revoked idx && sha512 key == Config.vendorKeyHash idx

/-- Is a record refused (R400)? -/
def State.recRefused (s : State) (fwVersion : Nat) (r : UpdRec) : Bool :=
  let revoked := s.provField 0x1C 1
  let serial := r.f 8 8
  let k := r.kind
  r.f 0 4 != 0x44524355 || r.f 4 2 != 1 || !inRange k 1 4 || !allZero (slice r.bytes 0x14 12) || !allZero (slice r.bytes 0x60 96) ||
    (k != 3 && !allZero (slice r.bytes 0x20 32)) || (k == 2 && decide (8 ≤ r.value)) || !keyGood revoked (r.f 7 1) (slice r.bytes 0x40 32) ||
    !signedBy (slice r.bytes 0x40 32) (slice r.bytes 0 0xC0) (slice r.bytes 0xC0 64) ||
    !(serial == s.provField 0x10 8 || (serial == 0 && decide (k ≤ 2))) || (k == 1 && decide (fwVersion < r.value)) ||
    (k == 2 && (bit r.value (r.f 7 1) || Nat.lor revoked r.value % 8 == 7)) ||
    (decide (3 ≤ k) && decide (r.value ≤ s.provField 0x20 4))

def putAt (l : List Byte) (o : Nat) (v : List Byte) : List Byte := l.take o ++ v ++ l.drop (o + v.length)

/-- One record applied to the record's content (R400). -/
def applyRecord (l : List Byte) (r : UpdRec) : List Byte :=
  if r.kind = 1 then (if fieldAt l 0x18 4 < r.value then putAt l 0x18 (leBytes 4 r.value) else l)
  else if r.kind = 2 then putAt l 0x1C (leBytes 1 (Nat.lor (fieldAt l 0x1C 1) r.value))
  else
    let key := if r.kind = 3 then slice r.bytes 0x20 32 else List.replicate 32 0
    putAt (putAt (putAt l 0x40 key) 0x1D (leBytes 1 (b2n (r.kind == 3)))) 0x20 (leBytes 4 r.value)

/-- PROV once the copy that was not active has been written (R391, R410): 0 where both copies are valid, 1 where one is. -/
def State.provAfter (s : State) : State :=
  { s with foe := { s.foe with prov := b2n !(copyValid (s.copyBytes 0) && copyValid (s.copyBytes 1)) } }

/-- Bytes in a copy of the provenance record, with what the Forester then knows of the copies. -/
def State.putCopy (s : State) (c : Nat) (l : List Byte) (f : Forester) : State :=
  { s with flash := ssetMany flashDefault s.flash (copyBase c) l, foe := f }

/-- Write the new content into the copy that is not active, and make it active if it reads back valid (R390). After a write that
fails that copy is not valid and holds free values. -/
def State.writeProv (s : State) (c : Nat) (l : List Byte) (ok : Bool) : State × Bool :=
  let l := putAt l 8 (leBytes 4 (s.copyGen c + 1))
  let l := putAt l 0x3C (leBytes 4 (crc32c (zeroAt l 0x3C 4)))
  if ok then
    let s := s.putCopy (1 - c) l { s.foe with active := some (1 - c) }
    (((s.provAfter.showProv.setFlag .fo FOR_EVENTS 4).bump .fo FOR_CNT_RECORDS).log .fo 0x0107 1, true)
  else
    let r := State.freeBytes l.length s
    let s := r.2.putCopy (1 - c) r.1 { r.2.foe with prov := 1 }
    ((s.setFlag .fo FOR_EVENTS 5).log .fo 0x0108 2, false)

/-- Apply the records of an image in order, as one update (R400); `ok` is whether the flash takes the write. -/
def State.applyRecords (s : State) (rs : List UpdRec) (ok : Bool) : State × Bool :=
  match s.foe.active, s.prov with
  | some c, some l =>
    let new := rs.foldl applyRecord l
    if new = l then (s, true) else s.writeProv c new ok
  | _, _ => (s, true)

/-! ## Images (R395 to R397) -/

/-- The embedded records of an image. -/
def imageRecords (l : List Byte) : List UpdRec :=
  (upFrom 0 (min 16 (fieldAt l 0x24 4))).map fun i => ⟨slice l (fieldAt l 0x20 4 + 256 * i) 256⟩

/-- Is the layout of an image wrong (reason 1)? -/
def imageMalformed (l : List Byte) (opened : Nat) : Bool :=
  let f o n := fieldAt l o n
  let total := f 0x10 4
  let body := total - 64
  f 0 4 != 0x57465443 || f 4 2 != 1 || decide (1 < f 7 1) || !allZero (slice l 0xD 3) || !allZero (slice l 0x28 24) ||
    !allZero (slice l 0x60 32) || total != opened || !inRange total 256 16777216 || f 0x14 4 % 64 != 0 ||
    decide (f 0x14 4 < 0x80) || !inRange (f 0x18 4) 64 4194304 || decide (body < f 0x14 4 + f 0x18 4) || decide (f 0x18 4 ≤ f 0x1C 4) ||
    decide (16 < f 0x24 4) || (f 0x24 4 == 0 && f 0x20 4 != 0) ||
    (f 0x24 4 != 0 && (f 0x20 4 % 64 != 0 || decide (f 0x20 4 < 0x80) || decide (body < f 0x20 4 + 256 * f 0x24 4)))

/-- The first reason of R396 for which an image is rejected; 0 if none. -/
def State.imageReason (s : State) (l : List Byte) (opened : Nat) : Nat :=
  let f o n := fieldAt l o n
  let revoked := s.provField 0x1C 1
  let idx := f 6 1
  if s.foe.active.isNone then 7
  else if imageMalformed l opened then 1
  else if f 0xC 1 ≠ 1 then 2
  else if 2 < idx ∨ bit revoked idx then 3
  else if sha512 (slice l 0x40 32) ≠ Config.vendorKeyHash idx then 4
  else if !signedBy (slice l 0x40 32) (l.take (l.length - 64)) (slice l (l.length - 64) 64) then 5
  else if f 8 4 < s.provField 0x18 4 then 6
  else if (imageRecords l).any fun r => s.recRefused (f 8 4) r then 8
  else 0

/-- An image is rejected (R396): the buffer is discarded, the module stays in ROM. -/
def State.rejectImage (s : State) (lookout : Bool) (reason : Nat) (l : List Byte) : State :=
  let s := { s with foe := { s.foe with image := none } }
  let s := (s.setReg .fo FOR_REJECT (reason + b2n lookout * 16)).setFlag .fo FOR_EVENTS 3
  (s.bump .fo FOR_CNT_REJECTS).log .fo 0x0105 2 [reason, fieldAt l 8 4, fieldAt l 6 1]

/-- What a byte of the Forester's SRAM that nothing has written reads as (log entry 95). -/
def sramDefault : Nat → Byte := fun _ => 0

/-- The firmware's code is copied to the start of the Forester's SRAM (log entry 95) and starts, and the module enters LOADED
(R397). -/
def State.startFirmware (s : State) (l : List Byte) : State :=
  let w : Firmware := ⟨fieldAt l 8 4, fieldAt l 6 1, fieldAt l 7 1 == 1, sha512 (l.take (l.length - 64)), fieldAt l 0x1C 4⟩
  let code := slice l (fieldAt l 0x14 4) (fieldAt l 0x18 4)
  let s := { s with foe := { s.foe with image := none, firmware := some w, agreed := none, debug := false, stage := .loaded,
                                        sram := ssetMany sramDefault s.foe.sram 0 code } }
  ((s.setReg .fo FOR_FW_VERSION w.version).bump .fo FOR_CNT_BOOTS).log .fo 0x0106 1 [w.version, w.keyIndex]

/-- FW_COMMIT from either agent (R396, R397, R400): the status, its DETAIL, and FW_VERSION. -/
def State.commitImage (s : State) (lookout flashOk : Bool) : State × Status × Nat × Nat :=
  match s.foe.image with
  | none => (s, .badArg, 0, 0)
  | some i =>
    if i.lookout ≠ lookout then (s, .badArg, 0, 0)
    else
      let l := i.content
      let reason := s.imageReason l i.bytes
      if reason = 0 then
        let r := s.applyRecords (imageRecords l) flashOk
        if r.2 then (r.1.startFirmware l, .ok, 0, fieldAt l 8 4) else (r.1.rejectImage lookout 8 l, .verifyFailed, 0x0105, 0)
      else
        let s := if reason = 8 then (s.setFlag .fo FOR_EVENTS 5).log .fo 0x0108 2 else s
        (s.rejectImage lookout reason l, .verifyFailed, 0x0105, 0)

/-! ## The quote (R394, R401, R402) -/

/-- The bytes of a slot's plan record, header and entry array, as installed. -/
def State.planBytes (s : State) (j : Nat) : List Byte :=
  match (s.job j).plan with
  | some p => p.raw
  | none => []

def State.plansDigest (s : State) (slots : List Nat) : List Byte :=
  if slots.isEmpty then List.replicate 64 0 else sha512 (slots.flatMap fun j => leBytes 1 j ++ sha512 (s.planBytes j))

/-- The part of a quote that is signed. -/
def State.quoteBody (s : State) (nonce : List Byte) (mask : Nat) : List Byte :=
  let slots := jobSlots.filter fun j => bit mask j && s.flag .ftb (FTB_PLAN_LO j) 0
  let fw := s.foe.firmware
  let flags := b2n s.foe.fence + b2n s.foe.debug * 2 + (match fw with | some w => b2n w.policy * 4 + 8 | none => 0)
  leBytes 4 0x544F5551 ++ leBytes 2 1 ++ leBytes 2 (sumNat (slots.map fun j => 2 ^ j)) ++ leBytes 8 (fieldAt s.cert 8 8) ++ slice nonce 0 32 ++
    leBytes 8 s.beat ++ leBytes 1 s.moduleState ++ leBytes 1 flags ++ leBytes 1 (optField fw (·.keyIndex)) ++ List.replicate 5 0 ++
    leBytes 4 (optField fw (·.version)) ++ leBytes 4 (s.provField 0x18 4) ++ leBytes 1 (s.provField 0x1C 1) ++ List.replicate 7 0 ++
    s.foe.romDigest ++ (match fw with | some w => w.digest | none => List.replicate 64 0) ++ sha512 (s.prov.getD []) ++ s.plansDigest slots

/-- ATTEST: the quote, or VERIFY_FAILED where the identity key was not reconstructed (R391, R393). -/
def State.quote (s : State) (nonce : List Byte) (mask : Nat) : Option (List Byte) :=
  if s.foe.idOk then
    let body := s.quoteBody nonce mask
    some (body ++ Config.ed25519Sign s.foe.idKey (sha512 body) ++ s.cert)
  else none

end Sys2Proof.Machine
end

