-- ==== Sys2Proof/Machine/CoreMem.lean ====
section
/-! DEFINITION. Loads and stores of the control core, and the completion of its outstanding accesses (R148, R150,
R155, R160 to R164). -/
namespace Sys2Proof.Machine

/-- A job-address access issues: it is translated and checked, takes a slot, and trains the prefetchers. `ok` continues
with the module data address. A table entry that its walk cannot read stops the core with cause 7 (R160, R444). -/
def State.jobAccess (s : State) (k : CoreId) (va n : Nat) (write : Bool) (ecc : Ecc) (use : Nat → SlotUse) (cnt : Nat) : State :=
  let w := s.walkError k va ecc
  match w.2 with
  | some a => w.1.coreFault k 7 a
  | none =>
  let r := w.1.reach k va n write
  match r.2 with
  | .fault cause a => r.1.coreFault k cause a
  | .ok a x =>
    let t := (r.1.dmaYield k a).dmaYield k a
    if !t.slotReady k a then s
    else (((t.takeSlot k (use a)).bump (.cor k) cnt).retire k).demand k va a x write

/-- Does a scratch access of the core wait for an earlier job access of its own to the same line, reached through the scratch
window (R150, R155)? -/
def State.windowBusy (s : State) (k : CoreId) (o : Nat) : Bool :=
  (s.slotsOf k).any fun x => slotIsCore x && slotAddr x / 64 == (scratchBase k + o) / 64

/-- LOAD (R148). -/
def execLoad (k : CoreId) (rd : Fin 32) (size : MemSize) (place : MemPlace) (ecc : Ecc) (s : State) :
    Host.Outcome State Fault Refusal :=
  let n := memBytes size
  .next (s.issue k (pairRegs size rd) true fun t =>
    if pairOdd size rd then t.illegal k
    else
      match place with
      | .scratch off =>
        let o := off.toNat
        if o % n ≠ 0 then t.coreFault k 6 o
        else if !inCoreScratch o n then t.coreFault k 3 o
        else if t.windowBusy k o then t
        else t.scratchEcc k [(o, n)] ecc fun t => (t.loadResult k n rd (t.scrRd k o n)).retire k
      | .job addr =>
        let va := addr.toNat
        if va % n ≠ 0 then t.coreFault k 6 va
        else t.jobAccess k va n false ecc (fun a => .load rd n va a) COR_CNT_LOADS)

/-- STORE (R148). A store of fewer than 8 bytes to scratch reads the word it changes (R152). -/
def execStore (k : CoreId) (rs : Fin 32) (size : MemSize) (place : Checked MemPlace) (s : State) :
    Host.Outcome State Fault Refusal :=
  let n := memBytes size
  .next (s.issue k (pairRegs size rs) true fun t =>
    if pairOdd size rs then t.illegal k
    else
      match place.val with
      | .scratch off =>
        let o := off.toNat
        if o % n ≠ 0 then t.coreFault k 6 o
        else if !inCoreScratch o n then t.coreFault k 3 o
        else if t.windowBusy k o then t
        else t.scratchEcc k (if n < 8 then [(o, n)] else []) place.ecc fun t => (t.scrWr k o n (t.storeValue k size rs)).retire k
      | .job addr =>
        let va := addr.toNat
        if va % n ≠ 0 then t.coreFault k 6 va
        else t.jobAccess k va n true place.ecc (fun a => .store n va a (t.storeValue k size rs)) COR_CNT_STORES)

def State.slotById (s : State) (k : CoreId) (id : Nat) : Option Slot := (s.slotsOf k).find? fun x => x.id == id

/-- A slot has been freed: DMA may take it, a FENCE may complete, and only then do prefetches that wait for one take it
(R162). -/
def State.slotFreed (s : State) (k : CoreId) : State := (s.coreProgress k).advanceAll k.cluster

/-- JOB_LOAD_RETURN (R148, R150): the load's data returns and its slot is free. An error on the line, or in the words of
a scratch window, stops the core with cause 7 (R153, R160, R444). -/
def execJobLoadReturn (k : CoreId) (slot : Checked (Fin 48)) (err : LineErr) (s : State) : Host.Outcome State Fault Refusal :=
  .next (match s.slotById k slot.val.val with
    | some ⟨_, .load rd n _ a⟩ =>
      if s.lineBlocked k slot.val.val a then s
      else
        let r := s.lineError k.cluster a err
        let w := r.1.windowEcc [(a, n)] slot.ecc
        let t := w.1.dropSlot k slot.val.val
        if r.2 then (t.coreFault k 7 a).slotFreed k
        else
          match w.2 with
          | some x => (t.coreFault k 7 x).slotFreed k
          | none => if s.coreFaulted k then t.slotFreed k else (t.loadResult k n rd (t.rd a n)).slotFreed k
    | _ => s)

/-- JOB_STORE_PERFORMED (R159): the store's bytes are written and its slot is free. A store of fewer than 8 bytes to a
scratch window reads the word it changes (R152, R153). -/
def execJobStorePerformed (k : CoreId) (slot : Checked (Fin 48)) (s : State) : Host.Outcome State Fault Refusal :=
  .next (match s.slotById k slot.val.val with
    | some ⟨_, .store n _ a v⟩ =>
      if s.lineBlocked k slot.val.val a then s
      else
        let w := s.windowEcc (if n < 8 then [(a, n)] else []) slot.ecc
        match w.2 with
        | some x => ((w.1.dropSlot k slot.val.val).coreFault k 7 x).slotFreed k
        | none =>
          let t := (w.1.writeBytes a (leBytes n v)).dropSlot k slot.val.val
          (t.invalidateLine (some k.cluster) a).slotFreed k
    | _ => s)

/-- What the memory path found in the line that a prefetch reads, `ok` or one line; is it without data? -/
def State.fillError (s : State) (c : ClusterId) (a : Nat) (e : Ecc) : State × Bool :=
  match e with
  | .line 0 err => s.lineError c a err
  | _ => (s, s.lineLost a)

/-- PREFETCH_FILL (R166): the line joins the cache, its slot is free, and the streams request on. The cache allocates no line for
an uncorrectable beat, which is delivered to no agent and faults none (R444, log entry 103). -/
def execPrefetchFill (k : CoreId) (slot : Checked (Fin 48)) (s : State) : Host.Outcome State Fault Refusal :=
  .next (match s.slotById k slot.val.val with
    | some ⟨_, .prefetch _ a⟩ =>
      let r := (s.dropSlot k slot.val.val).fillError k.cluster a slot.ecc
      let t := r.1
      let t := if !r.2 && t.cacheable k.cluster a && !(t.cluster k.cluster).hasLine a then
          t.cacheInsert k.cluster a ⟨a / 64, false, true⟩
        else t
      t.slotFreed k
    | _ => s)

end Sys2Proof.Machine
end

