-- ==== Sys2Proof/Machine/CoreScalar.lean ====
section
/-! DEFINITION. Branches, FENCE, MARK and HALT (R146 to R150, R168). -/
namespace Sys2Proof.Machine

/-- BRANCH on a register being zero or non-zero (R146). -/
def execBranch (k : CoreId) (onZero : Bool) (r : Fin 32) (target : W32) (s : State) :
    Host.Outcome State Fault Refusal :=
  .next (s.issue k [r] true fun t =>
    if decide (t.gpr k r = 0) = onZero then t.retireTo k target.toNat else t.retire k)

def jumpRegs : JumpTo → List (Fin 32)
  | .addr _ => []
  | .reg r => [r]

def State.jumpTarget (s : State) (k : CoreId) : JumpTo → Nat
  | .addr o => o.toNat
  | .reg r => (s.gpr k r).toNat

/-- JUMP (R146). -/
def execJump (k : CoreId) (target : JumpTo) (s : State) : Host.Outcome State Fault Refusal :=
  .next (s.issue k (jumpRegs target) true fun t => t.retireTo k (t.jumpTarget k target))

/-- JUMP_AND_LINK: the link register receives the address of the next instruction (R146). -/
def execJumpAndLink (k : CoreId) (rd : Fin 32) (target : JumpTo) (s : State) : Host.Outcome State Fault Refusal :=
  .next (s.issue k (rd :: jumpRegs target) true fun t =>
    (t.setGpr k rd (BitVec.ofNat 32 (t.pc k + 4))).retireTo k (t.jumpTarget k target))

/-- FENCE (R150): it holds the control core until every earlier access and descriptor is done. -/
def execFence (k : CoreId) (s : State) : Host.Outcome State Fault Refusal :=
  .next (s.issue k [] true fun t => ((t.retire k).setStall k .fence).coreProgress k)

/-- MARK FRAME (R168): the beat offset within the current frame. -/
def execMarkFrame (k : CoreId) (s : State) : Host.Outcome State Fault Refusal :=
  .next (s.issue k [] true fun t =>
    let t := t.setReg (.cor k) COR_FRAME_USED (t.beat - t.time.frameStart)
    (t.setCore k { t.core k with framesMarked := true }).retire k)

/-- MARK STEP (R168): the beats since the previous STEP mark, or since the enable for the first one. -/
def execMarkStep (k : CoreId) (s : State) : Host.Outcome State Fault Refusal :=
  .next (s.issue k [] true fun t =>
    let t := (t.setReg (.cor k) COR_STEP_BEATS (t.beat - (t.core k).stepMarkAt)).bump (.cor k) COR_STEP_COUNT
    (t.setCore k { t.core k with stepMarkAt := t.beat }).retire k)

/-- HALT (R150): the control core stops after every engine queue has drained. -/
def execHalt (k : CoreId) (s : State) : Host.Outcome State Fault Refusal :=
  .next (s.issue k [] true fun t => ((t.retire k).setStall k .halt).coreProgress k)

end Sys2Proof.Machine
end

