-- ==== Sys2Proof/Machine/MatrixIssue.lean ====
section
/-! DEFINITION. Issue of matrix instructions (R173) and the segment queue (R191 to R193). -/
namespace Sys2Proof.Machine

/-- A word with an unnamed bit set is a reserved encoding (R147, R173). -/
def State.named (s : State) (k : CoreId) (unnamed : W32) (f : State → State) : State :=
  if unnamed ≠ 0 then s.illegal k else f s

/-- The descriptor offset of MACC and MEND: g[RS] + 64 IMM (R173). -/
def State.mtxOff (s : State) (k : CoreId) (rs : Fin 32) (imm : BitVec 13) : Nat :=
  ((s.gpr k rs).toNat + imm.toNat * 64) % 2 ^ 32

/-- MBEGIN (R173, R174). -/
def execMbegin (k : CoreId) (group kind : Fin 4) (unnamed : W32) (s : State) : Host.Outcome State Fault Refusal :=
  .next (s.issue k [] (!s.queueFull k .mtx) fun t =>
    if unnamed ≠ 0 ∨ kind = 3 then t.illegal k
    else (t.retire k).enqueue k .mtx (.mtx (.begin_ group kind) (t.pc k)))

/-- MACC (R176). -/
def execMacc (k : CoreId) (group : Fin 4) (rs : Fin 32) (imm : BitVec 13) (unnamed : W32) (ecc : Ecc) (s : State) :
    Host.Outcome State Fault Refusal :=
  .next (s.issue k [rs] (!s.queueFull k .mtx) fun t => t.named k unnamed fun t =>
    (t.retire k).enqueue k .mtx (.mtx (.macc group (t.mtxOff k rs imm) ecc) (t.pc k)))

/-- MEND (R185). -/
def execMend (k : CoreId) (group : Fin 4) (rs : Fin 32) (imm : Checked (BitVec 13)) (unnamed : W32) (s : State) :
    Host.Outcome State Fault Refusal :=
  .next (s.issue k [rs] (!s.queueFull k .mtx) fun t => t.named k unnamed fun t =>
    (t.retire k).enqueue k .mtx (.mtx (.mend group (t.mtxOff k rs imm.val) imm.ecc) (t.pc k)))

/-- MABORT (R175). -/
def execMabort (k : CoreId) (group : Fin 4) (unnamed : W32) (s : State) : Host.Outcome State Fault Refusal :=
  .next (s.issue k [] (!s.queueFull k .mtx) fun t => t.named k unnamed fun t =>
    (t.retire k).enqueue k .mtx (.mtx (.abort group) (t.pc k)))

/-! ## Segment queue -/

def State.wqHead (s : State) (k : CoreId) : Nat := s.reg (.cor k) MTX_WQ_HEAD
def State.wqTail (s : State) (k : CoreId) : Nat := s.reg (.cor k) MTX_WQ_TAIL
def State.wqEmpty (s : State) (k : CoreId) : Bool := s.wqHead k == s.wqTail k

/-- Where entry `i` of a core's queue lies in that core's scratch. -/
def State.wqOff (s : State) (k : CoreId) (i : Nat) : Nat := s.field (.cor k) MTX_WQ_CFG 0 13 * 64 + i * 4
def State.wqEntry (s : State) (k : CoreId) (i : Nat) : W32 := BitVec.ofNat 32 (s.scrRd k (s.wqOff k i) 4)

/-- MQCFG (R191, R192). -/
def execMqcfg (k : CoreId) (rs : Fin 32) (unnamed : W32) (s : State) : Host.Outcome State Fault Refusal :=
  .next (s.issue k [rs] true fun t => t.named k unnamed fun t =>
    let v := (t.gpr k rs).toNat
    if !t.wqEmpty k ∨ scratchBytes < bits v 0 13 * 64 + 2 ^ bits v 13 4 * 4 ∨ 12 < bits v 13 4 then
      t.mtxRefuse k 9 0 (t.pc k)
    else (t.setReg (.cor k) MTX_WQ_CFG (bits v 0 20)).retire k)

/-- MQSET (R191, R192). -/
def execMqset (k : CoreId) (rs : Fin 32) (unnamed : W32) (s : State) : Host.Outcome State Fault Refusal :=
  .next (s.issue k [rs] true fun t => t.named k unnamed fun t =>
    let v := (t.gpr k rs).toNat
    if !t.wqEmpty k ∨ 2 ^ t.field (.cor k) MTX_WQ_CFG 13 4 < v then t.mtxRefuse k 9 0 (t.pc k)
    else ((t.setReg (.cor k) MTX_WQ_HEAD 0).setReg (.cor k) MTX_WQ_TAIL v).retire k)

/-- MTAKE (R191). -/
def execMtake (k : CoreId) (rd : Checked (Fin 32)) (unnamed : W32) (s : State) : Host.Outcome State Fault Refusal :=
  .next (s.issue k [rd.val] true fun t => t.named k unnamed fun t =>
    let h := t.wqHead k
    if h < t.wqTail k then
      t.scratchEcc k [(t.wqOff k h, 4)] rd.ecc fun t =>
      (((t.setGpr k rd.val (t.wqEntry k h)).setReg (.cor k) MTX_WQ_HEAD (h + 1)).bump (.cor k) MTX_CNT_TAKEN).retire k
    else (t.setGpr k rd.val 0xFFFFFFFF).retire k)

/-- The ring neighbours that MSTEAL tries, left then right: cores (k + 15) mod 16 and (k + 1) mod 16. -/
def State.victims (s : State) (k : CoreId) : List CoreId :=
  let v := s.reg (.cor k) MTX_WQ_CFG
  (if bit v 17 then [{ k with core := k.core + 15 }] else []) ++ (if bit v 18 then [{ k with core := k.core + 1 }] else [])

/-- MSTEAL (R191, R193). It reads the neighbour's scratch. -/
def execMsteal (k : CoreId) (rd : Checked (Fin 32)) (unnamed : W32) (s : State) : Host.Outcome State Fault Refusal :=
  .next (s.issue k [rd.val] true fun t => t.named k unnamed fun t =>
    match (t.victims k).find? fun n => t.flag (.cor n) MTX_WQ_CFG 19 && decide (t.wqHead n < t.wqTail n) with
    | some n =>
      let e := t.wqTail n - 1
      let w := t.windowEcc [(scratchBase n + t.wqOff n e, 4)] rd.ecc
      match w.2 with
      | some a => w.1.coreFault k 7 a
      | none =>
      let t := w.1
      let t := (t.setGpr k rd.val (t.wqEntry n e)).setReg (.cor n) MTX_WQ_TAIL e
      ((t.bump (.cor k) MTX_CNT_STOLE).bump (.cor n) MTX_CNT_STOLEN).retire k
    | none => (t.setGpr k rd.val 0xFFFFFFFF).retire k)

end Sys2Proof.Machine
end

