-- ==== Sys2Proof/Machine/SyncIssue.lean ====
section
/-! DEFINITION. Sync and barrier instructions (R252 to R263) and their watchdogs (R257, R264). -/
namespace Sys2Proof.Machine

/-- The amount or threshold of SSIG and SWAIT, read at issue (R252). -/
def State.syncAmount (s : State) (k : CoreId) (rs : Fin 32) (reg : Bool) (imm : BitVec 8) : Nat :=
  if reg then (s.gpr k rs).toNat % 2 ^ 16 else imm.toNat

def engineOf : QSel → Option EngineId
  | .core => none
  | .mtx => some .mtx
  | .vec => some .vec
  | .dma => some .dma

def State.qReady (s : State) (k : CoreId) (q : QSel) : Bool :=
  match engineOf q with
  | none => true
  | some e => !s.queueFull k e

def regUse (reg : Bool) (rs : Fin 32) : List (Fin 32) := if reg then [rs] else []

/-- SSIG (R252, R253). Q 0 takes effect once every earlier store of the core is performed (R150). -/
def execSsig (k : CoreId) (q : QSel) (core : Fin 16) (obj : Fin 64) (rs : Fin 32) (reg : Bool) (amount : BitVec 8)
    (s : State) : Host.Outcome State Fault Refusal :=
  .next (s.issue k (regUse reg rs) (s.qReady k q && (q != .core || s.storesDone k)) fun t =>
    let n := t.syncAmount k rs reg amount
    if 47 < obj.val ∨ n = 0 then t.illegal k
    else
      match engineOf q with
      | none => (t.retire k).signal [⟨k.cluster.coreAt core, obj.val, n⟩]
      | some e => (t.retire k).enqueue k e (.sig core obj.val n))

/-- SWAIT (R252, R253). -/
def execSwait (k : CoreId) (q : QSel) (obj : Fin 64) (rs : Fin 32) (reg : Bool) (thresh : BitVec 8) (unnamed : W32)
    (s : State) : Host.Outcome State Fault Refusal :=
  .next (s.issue k (regUse reg rs) (s.qReady k q) fun t =>
    let n := t.syncAmount k rs reg thresh
    if unnamed ≠ 0 ∨ 47 < obj.val ∨ n = 0 then t.illegal k
    else
      match engineOf q with
      | none =>
        if n ≤ t.syncCount k obj.val then ((t.retire k).takeWait k obj.val n).kick k
        else (t.retire k).beginWait k (.swait obj.val n (t.syncDue k) false)
      | some e => (t.retire k).enqueue k e (.wait obj.val n 0 false))

/-- SDEC (R252, R255): it subtracts without waiting; below zero it is an underflow. -/
def execSdec (k : CoreId) (obj : Fin 64) (rs : Fin 32) (unnamed : W32) (s : State) :
    Host.Outcome State Fault Refusal :=
  .next (s.issue k [rs] true fun t =>
    let n := (t.gpr k rs).toNat % 2 ^ 16
    let c := t.syncCount k obj.val
    if unnamed ≠ 0 ∨ 47 < obj.val then t.illegal k
    else if c < n then t.syncStop k 2 (obj.val * 8) n 0x1011 [obj.val, n, c]
    else ((t.setSyncCount k obj.val (c - n)).retire k))

/-- SREAD (R252, R254). -/
def execSread (k : CoreId) (rd : Fin 32) (obj : Fin 64) (unnamed : W32) (s : State) :
    Host.Outcome State Fault Refusal :=
  .next (s.issue k [rd] true fun t =>
    if unnamed ≠ 0 ∨ 47 < obj.val then t.illegal k
    else (t.setGpr k rd (BitVec.ofNat 32 (t.syncCount k obj.val))).retire k)

/-! ## Watchdogs -/

/-- A wait that is over its limit and not yet reported, at the head of its queue. -/
def State.waitOf (s : State) (k : CoreId) (q : QSel) : Option (Nat × Nat × Nat × Bool) :=
  match engineOf q with
  | none =>
    match (s.core k).stall with
    | .swait o t due r => some (o, t, due, r)
    | _ => none
  | some e =>
    match (s.core k).queue e with
    | .wait o t due r :: _ => some (o, t, due, r)
    | _ => none

def State.markReported (s : State) (k : CoreId) (q : QSel) (o t due : Nat) : State :=
  match engineOf q with
  | none => s.setStall k (.swait o t due true)
  | some e => s.setQueue k e (.wait o t due true :: ((s.core k).queue e).tail)

def qselNumber : QSel → Nat
  | .core => 0 | .mtx => 1 | .vec => 2 | .dma => 3

/-- SYNC_WATCHDOG (R257): a wait over its limit is logged once and goes on. -/
def execSyncWatchdog (k : CoreId) (waiter : QSel) (s : State) : Host.Outcome State Fault Refusal :=
  .next (match s.waitOf k waiter with
    | some (o, t, due, false) =>
      if due < s.clock then
        ((s.markReported k waiter o t due).log (.cor k) 0x1015 2 [o, qselNumber waiter, s.syncCount k o]).bump (.cor k)
          SYN_CNT_WDOG
      else s
    | _ => s)

/-! ## Barriers -/

/-- A barrier instruction: illegal words first, then the participant check (R263). -/
def State.barIssue (s : State) (k : CoreId) (bar : Fin 8) (unnamed : W32) (f : State → State) : State :=
  s.issue k [] true fun t =>
    if unnamed ≠ 0 then t.illegal k
    else if !bit (t.barMask k.cluster bar.val) k.core.val then t.barNonpart k bar.val
    else f (t.retire k)

/-- BARR (R260). The rules of R150 hold it until every earlier store is performed. -/
def execBarr (k : CoreId) (bar : Fin 8) (unnamed : W32) (s : State) : Host.Outcome State Fault Refusal :=
  .next (if s.issuable k && !s.storesDone k then s else s.barIssue k bar unnamed fun t => t.barArrive k bar.val false)

/-- BWAIT (R262). -/
def execBwait (k : CoreId) (bar : Fin 8) (unnamed : W32) (s : State) : Host.Outcome State Fault Refusal :=
  .next (s.barIssue k bar unnamed fun t =>
    let c := k.cluster
    if !t.arrived c bar.val k.core.val && !t.early c bar.val k.core.val then t
    else t.beginWait k (.bwait bar.val t.clock false))

/-- BSYNC (R262). -/
def execBsync (k : CoreId) (bar : Fin 8) (unnamed : W32) (s : State) : Host.Outcome State Fault Refusal :=
  .next (if s.issuable k && !s.storesDone k then s else s.barIssue k bar unnamed fun t => t.barArrive k bar.val true)

/-- BARRIER_TIMEOUT (R264): a core stalled or blocked at a barrier for longer than the limit is logged once. -/
def execBarrierTimeout (k : CoreId) (s : State) : Host.Outcome State Fault Refusal :=
  let c := k.cluster
  let ovf (since : Nat) : Bool := decide (since + s.field (.clu c) BAR_WDOG 0 20 * beatsPerUs ≤ s.clock)
  let report (b : Nat) (w : Stall) : State :=
    let t := (s.setStall k w).log (.clu c) 0x1013 2 [b, k.core.val, s.field (.clu c) (BAR_STATE b) 0 16]
    (t.setFlag (.clu c) BAR_STATUS b).bump (.clu c) BAR_CNT_TIMEOUT
  .next (match (s.core k).stall with
    | .bwait b since false => if ovf since then report b (.bwait b since true) else s
    | .barr b since false w => if ovf since then report b (.barr b since true w) else s
    | _ => s)

end Sys2Proof.Machine
end

