-- ==== Sys2Proof/Machine/VectorIssue.lean ====
section
/-! DEFINITION. Issue of vector instructions (R220 to R233): each joins the vector queue and executes there in order. -/
namespace Sys2Proof.Machine

/-- VADD (R223). -/
def execVadd (k : CoreId) (x : VForm) (s : State) : Host.Outcome State Fault Refusal :=
  .next (s.issueVec k (.ew .vadd x))

/-- VSUB (R223). -/
def execVsub (k : CoreId) (x : VForm) (s : State) : Host.Outcome State Fault Refusal :=
  .next (s.issueVec k (.ew .vsub x))

/-- VMUL (R223). -/
def execVmul (k : CoreId) (x : VForm) (s : State) : Host.Outcome State Fault Refusal :=
  .next (s.issueVec k (.ew .vmul x))

/-- VFMA (R223). -/
def execVfma (k : CoreId) (x : VForm) (s : State) : Host.Outcome State Fault Refusal :=
  .next (s.issueVec k (.ew .vfma x))

/-- VMIN (R223). -/
def execVmin (k : CoreId) (x : VForm) (s : State) : Host.Outcome State Fault Refusal :=
  .next (s.issueVec k (.ew .vmin x))

/-- VMAX (R223). -/
def execVmax (k : CoreId) (x : VForm) (s : State) : Host.Outcome State Fault Refusal :=
  .next (s.issueVec k (.ew .vmax x))

/-- VDIV (R223). -/
def execVdiv (k : CoreId) (x : VForm) (s : State) : Host.Outcome State Fault Refusal :=
  .next (s.issueVec k (.ew .vdiv x))

/-- VSQRT (R223). -/
def execVsqrt (k : CoreId) (x : VForm) (s : State) : Host.Outcome State Fault Refusal :=
  .next (s.issueVec k (.ew .vsqrt x))

/-- VRCP (R223). -/
def execVrcp (k : CoreId) (x : VForm) (s : State) : Host.Outcome State Fault Refusal :=
  .next (s.issueVec k (.ew .vrcp x))

/-- VEXP (R223). -/
def execVexp (k : CoreId) (x : VForm) (s : State) : Host.Outcome State Fault Refusal :=
  .next (s.issueVec k (.ew .vexp x))

/-- VLOG (R223). -/
def execVlog (k : CoreId) (x : VForm) (s : State) : Host.Outcome State Fault Refusal :=
  .next (s.issueVec k (.ew .vlog x))

/-- VTANH (R223). -/
def execVtanh (k : CoreId) (x : VForm) (s : State) : Host.Outcome State Fault Refusal :=
  .next (s.issueVec k (.ew .vtanh x))

/-- VSIGM (R223). -/
def execVsigm (k : CoreId) (x : VForm) (s : State) : Host.Outcome State Fault Refusal :=
  .next (s.issueVec k (.ew .vsigm x))

/-- VABS (R223). -/
def execVabs (k : CoreId) (x : VForm) (s : State) : Host.Outcome State Fault Refusal :=
  .next (s.issueVec k (.ew .vabs x))

/-- VNEG (R223). -/
def execVneg (k : CoreId) (x : VForm) (s : State) : Host.Outcome State Fault Refusal :=
  .next (s.issueVec k (.ew .vneg x))

/-- VCMPEQ (R223). -/
def execVcmpeq (k : CoreId) (x : VForm) (s : State) : Host.Outcome State Fault Refusal :=
  .next (s.issueVec k (.ew .vcmpeq x))

/-- VCMPLT (R223). -/
def execVcmplt (k : CoreId) (x : VForm) (s : State) : Host.Outcome State Fault Refusal :=
  .next (s.issueVec k (.ew .vcmplt x))

/-- VCMPLE (R223). -/
def execVcmple (k : CoreId) (x : VForm) (s : State) : Host.Outcome State Fault Refusal :=
  .next (s.issueVec k (.ew .vcmple x))

/-- VCMPNE (R223). -/
def execVcmpne (k : CoreId) (x : VForm) (s : State) : Host.Outcome State Fault Refusal :=
  .next (s.issueVec k (.ew .vcmpne x))

/-- VSEL (R223). -/
def execVsel (k : CoreId) (x : VForm) (s : State) : Host.Outcome State Fault Refusal :=
  .next (s.issueVec k (.ew .vsel x))

/-- VAND (R223). -/
def execVand (k : CoreId) (x : VForm) (s : State) : Host.Outcome State Fault Refusal :=
  .next (s.issueVec k (.ew .vand x))

/-- VOR (R223). -/
def execVor (k : CoreId) (x : VForm) (s : State) : Host.Outcome State Fault Refusal :=
  .next (s.issueVec k (.ew .vor x))

/-- VXOR (R223). -/
def execVxor (k : CoreId) (x : VForm) (s : State) : Host.Outcome State Fault Refusal :=
  .next (s.issueVec k (.ew .vxor x))

/-- VSHL (R223). -/
def execVshl (k : CoreId) (x : VForm) (s : State) : Host.Outcome State Fault Refusal :=
  .next (s.issueVec k (.ew .vshl x))

/-- VSHR (R223). -/
def execVshr (k : CoreId) (x : VForm) (s : State) : Host.Outcome State Fault Refusal :=
  .next (s.issueVec k (.ew .vshr x))

/-- VMOV (R223). -/
def execVmov (k : CoreId) (x : VForm) (s : State) : Host.Outcome State Fault Refusal :=
  .next (s.issueVec k (.ew .vmov x))

/-- VLDEXP (R223). -/
def execVldexp (k : CoreId) (x : VForm) (s : State) : Host.Outcome State Fault Refusal :=
  .next (s.issueVec k (.ew .vldexp x))

/-- VRESADD (R223). -/
def execVresadd (k : CoreId) (x : VForm) (s : State) : Host.Outcome State Fault Refusal :=
  .next (s.issueVec k (.ew .vresadd x))

/-- VUPD (R223). -/
def execVupd (k : CoreId) (x : VForm) (s : State) : Host.Outcome State Fault Refusal :=
  .next (s.issueVec k (.ew .vupd x))

/-- VCVTW (R223). -/
def execVcvtw (k : CoreId) (x : VForm) (s : State) : Host.Outcome State Fault Refusal :=
  .next (s.issueVec k (.ew .vcvtw x))

/-- VCVTN (R223). -/
def execVcvtn (k : CoreId) (x : VForm) (s : State) : Host.Outcome State Fault Refusal :=
  .next (s.issueVec k (.ew .vcvtn x))

/-- VCVTS (R223). -/
def execVcvts (k : CoreId) (x : VForm) (s : State) : Host.Outcome State Fault Refusal :=
  .next (s.issueVec k (.ew .vcvts x))

/-- VBERN (R223). -/
def execVbern (k : CoreId) (x : VForm) (s : State) : Host.Outcome State Fault Refusal :=
  .next (s.issueVec k (.ew .vbern x))

/-- VPERM (R226 to R231). -/
def execVperm (k : CoreId) (x : VForm) (s : State) : Host.Outcome State Fault Refusal :=
  .next (s.issueVec k (.cl .vperm x))

/-- VRSUM (R226 to R231). -/
def execVrsum (k : CoreId) (x : VForm) (s : State) : Host.Outcome State Fault Refusal :=
  .next (s.issueVec k (.cl .vrsum x))

/-- VRSSQ (R226 to R231). -/
def execVrssq (k : CoreId) (x : VForm) (s : State) : Host.Outcome State Fault Refusal :=
  .next (s.issueVec k (.cl .vrssq x))

/-- VRMAX (R226 to R231). -/
def execVrmax (k : CoreId) (x : VForm) (s : State) : Host.Outcome State Fault Refusal :=
  .next (s.issueVec k (.cl .vrmax x))

/-- VRMIN (R226 to R231). -/
def execVrmin (k : CoreId) (x : VForm) (s : State) : Host.Outcome State Fault Refusal :=
  .next (s.issueVec k (.cl .vrmin x))

/-- VRCNT (R226 to R231). -/
def execVrcnt (k : CoreId) (x : VForm) (s : State) : Host.Outcome State Fault Refusal :=
  .next (s.issueVec k (.cl .vrcnt x))

/-- VMV (R226 to R231). -/
def execVmv (k : CoreId) (x : VForm) (s : State) : Host.Outcome State Fault Refusal :=
  .next (s.issueVec k (.cl .vmv x))

/-- VMVCOMB (R226 to R231). -/
def execVmvcomb (k : CoreId) (x : VForm) (s : State) : Host.Outcome State Fault Refusal :=
  .next (s.issueVec k (.cl .vmvcomb x))

/-- VSMSTAT (R226 to R231). -/
def execVsmstat (k : CoreId) (x : VForm) (s : State) : Host.Outcome State Fault Refusal :=
  .next (s.issueVec k (.cl .vsmstat x))

/-- VSMMERGE (R226 to R231). -/
def execVsmmerge (k : CoreId) (x : VForm) (s : State) : Host.Outcome State Fault Refusal :=
  .next (s.issueVec k (.cl .vsmmerge x))

/-- VSMEXP (R226 to R231). -/
def execVsmexp (k : CoreId) (x : VForm) (s : State) : Host.Outcome State Fault Refusal :=
  .next (s.issueVec k (.cl .vsmexp x))

/-- VSMNORM (R226 to R231). -/
def execVsmnorm (k : CoreId) (x : VForm) (s : State) : Host.Outcome State Fault Refusal :=
  .next (s.issueVec k (.cl .vsmnorm x))

/-- VLD (R222): the base and the stride are read at issue. -/
def execVld (k : CoreId) (vd rs rt : Fin 32) (imm : BitVec 9) (ecc : Ecc) (s : State) :
    Host.Outcome State Fault Refusal :=
  .next (s.issueTo k [rs, rt] .vec fun t =>
    .vec (.ld vd (t.gpr k rs).toNat (t.gpr k rt).toNat imm.toNat ecc) (t.pc k))

/-- VST (R222). -/
def execVst (k : CoreId) (vs rs rt : Fin 32) (imm : Checked (BitVec 9)) (s : State) : Host.Outcome State Fault Refusal :=
  .next (s.issueTo k [rs, rt] .vec fun t =>
    .vec (.st vs (t.gpr k rs).toNat (t.gpr k rt).toNat imm.val.toNat imm.ecc) (t.pc k))

/-- VCFG (R219, R233): g[RD] receives VL at issue. -/
def execVcfg (k : CoreId) (rd rs : Fin 32) (func : Fin 16) (unnamed : W32) (s : State) :
    Host.Outcome State Fault Refusal :=
  .next (s.issue k [rd, rs] (!s.queueFull k .vec) fun t =>
    let vfmt := func.val % 8
    if unnamed ≠ 0 ∨ 8 ≤ func.val ∨ 4 < vfmt then (t.retire k).enqueue k .vec (.vec (.bad 1) (t.pc k))
    else
      let vl := min (t.gpr k rs).toNat (vlmax vfmt)
      ((t.setGpr k rd (BitVec.ofNat 32 vl)).retire k).enqueue k .vec (.vec (.cfg vl vfmt) (t.pc k)))

/-- A summary transfer joins the queue and stalls the control core until it has executed (R232). -/
def State.issueSummary (s : State) (k : CoreId) (uses : List (Fin 32)) (rd : Fin 32) (op : State → VOp) : State :=
  s.issue k uses (!s.queueFull k .vec) fun t =>
    ((t.retire k).setStall k (.summary rd)).enqueue k .vec (.vec (op t) (t.pc k))

/-- VSUM (R232). -/
def execVsum (k : CoreId) (rd va : Fin 32) (func : Fin 16) (unnamed : W32) (s : State) :
    Host.Outcome State Fault Refusal :=
  .next (s.issueSummary k [rd] rd fun _ => if unnamed ≠ 0 then .bad 1 else .sum rd va func.val)

/-- SMCFG (R205, R233). -/
def execSmcfg (k : CoreId) (rs : Fin 32) (unnamed : W32) (s : State) : Host.Outcome State Fault Refusal :=
  .next (s.issueTo k [rs] .vec fun t =>
    .vec (if unnamed ≠ 0 then .bad 1 else .smcfg (t.gpr k rs).toNat) (t.pc k))

/-- SMREAD (R205): g[RD] receives STEP_MAX of the entry in g[RS][5:0]; it stalls as VSUM does. -/
def execSmread (k : CoreId) (rd rs : Fin 32) (unnamed : W32) (s : State) : Host.Outcome State Fault Refusal :=
  .next (s.issueSummary k [rd, rs] rd fun t =>
    if unnamed ≠ 0 then .bad 1 else .smread rd ((t.gpr k rs).toNat % 64))

/-- SMCOMMIT (R205). -/
def execSmcommit (k : CoreId) (rs rt : Fin 32) (unnamed : W32) (s : State) : Host.Outcome State Fault Refusal :=
  .next (s.issueTo k [rs, rt] .vec fun t =>
    .vec (if unnamed ≠ 0 then .bad 1 else .smcommit ((t.gpr k rs).toNat % 64) (t.gpr k rt).toNat) (t.pc k))

/-- VRNGSET (R243). -/
def execVrngset (k : CoreId) (rs : Checked (Fin 32)) (unnamed : W32) (s : State) : Host.Outcome State Fault Refusal :=
  .next (s.issueTo k [rs.val] .vec fun t =>
    .vec (if unnamed ≠ 0 then .bad 1 else .rngset (t.gpr k rs.val).toNat rs.ecc) (t.pc k))

end Sys2Proof.Machine
end

