-- ==== Sys2Proof/Machine/CoreWord.lean ====
section
/-! DEFINITION. The words of a core's program and the scalar instructions (R146, R147, R151, R173, R220, R252). -/
namespace Sys2Proof.Machine

/-- The instruction that a word spells runs as the command of its own row; `decodeCore` gives no other command. -/
def execDecoded (i : Instr) (s : State) : Host.Outcome State Fault Refusal :=
  match i with
  | .lrd k rt ra imm => execLrd k rt ra imm s
  | .lwr k rt ra imm => execLwr k rt ra imm s
  | .halt k => execHalt k s
  | .mbegin k group kind unnamed => execMbegin k group kind unnamed s
  | .macc k group rs imm unnamed ecc => execMacc k group rs imm unnamed ecc s
  | .mend k group rs imm unnamed => execMend k group rs imm unnamed s
  | .mabort k group unnamed => execMabort k group unnamed s
  | .mqcfg k rs unnamed => execMqcfg k rs unnamed s
  | .mqset k rs unnamed => execMqset k rs unnamed s
  | .mtake k rd unnamed => execMtake k rd unnamed s
  | .msteal k rd unnamed => execMsteal k rd unnamed s
  | .vadd k x => execVadd k x s
  | .vsub k x => execVsub k x s
  | .vmul k x => execVmul k x s
  | .vfma k x => execVfma k x s
  | .vmin k x => execVmin k x s
  | .vmax k x => execVmax k x s
  | .vdiv k x => execVdiv k x s
  | .vsqrt k x => execVsqrt k x s
  | .vrcp k x => execVrcp k x s
  | .vexp k x => execVexp k x s
  | .vlog k x => execVlog k x s
  | .vtanh k x => execVtanh k x s
  | .vsigm k x => execVsigm k x s
  | .vabs k x => execVabs k x s
  | .vneg k x => execVneg k x s
  | .vcmpeq k x => execVcmpeq k x s
  | .vcmplt k x => execVcmplt k x s
  | .vcmple k x => execVcmple k x s
  | .vcmpne k x => execVcmpne k x s
  | .vsel k x => execVsel k x s
  | .vand k x => execVand k x s
  | .vor k x => execVor k x s
  | .vxor k x => execVxor k x s
  | .vshl k x => execVshl k x s
  | .vshr k x => execVshr k x s
  | .vmov k x => execVmov k x s
  | .vldexp k x => execVldexp k x s
  | .vresadd k x => execVresadd k x s
  | .vupd k x => execVupd k x s
  | .vcvtw k x => execVcvtw k x s
  | .vcvtn k x => execVcvtn k x s
  | .vcvts k x => execVcvts k x s
  | .vbern k x => execVbern k x s
  | .vperm k x => execVperm k x s
  | .vrsum k x => execVrsum k x s
  | .vrssq k x => execVrssq k x s
  | .vrmax k x => execVrmax k x s
  | .vrmin k x => execVrmin k x s
  | .vrcnt k x => execVrcnt k x s
  | .vmv k x => execVmv k x s
  | .vmvcomb k x => execVmvcomb k x s
  | .vsmstat k x => execVsmstat k x s
  | .vsmmerge k x => execVsmmerge k x s
  | .vsmexp k x => execVsmexp k x s
  | .vsmnorm k x => execVsmnorm k x s
  | .vld k vd rs rt imm ecc => execVld k vd rs rt imm ecc s
  | .vst k vs rs rt imm => execVst k vs rs rt imm s
  | .vcfg k rd rs func unnamed => execVcfg k rd rs func unnamed s
  | .vsum k rd va func unnamed => execVsum k rd va func unnamed s
  | .smcfg k rs unnamed => execSmcfg k rs unnamed s
  | .smread k rd rs unnamed => execSmread k rd rs unnamed s
  | .smcommit k rs rt unnamed => execSmcommit k rs rt unnamed s
  | .vrngset k rs unnamed => execVrngset k rs unnamed s
  | .ssig k q core obj rs reg amount => execSsig k q core obj rs reg amount s
  | .swait k q obj rs reg thresh unnamed => execSwait k q obj rs reg thresh unnamed s
  | .sdec k obj rs unnamed => execSdec k obj rs unnamed s
  | .sread k rd obj unnamed => execSread k rd obj unnamed s
  | .barr k bar unnamed => execBarr k bar unnamed s
  | .bwait k bar unnamed => execBwait k bar unnamed s
  | .bsync k bar unnamed => execBsync k bar unnamed s
  | _ => .next s

/-- A word of a core's program at the core's issue: an instruction runs, an illegal one stops the core (R147), and a reserved
encoding of the vector engine is refused in its queue (R234). A word of a class without a layout does nothing here: its
command comes by its own row (log entry 9). -/
def execWord (k : CoreId) (w : W32) (s : State) : Host.Outcome State Fault Refusal :=
  match decodeCore k w with
  | .command i => execDecoded i s
  | .illegal => .next (s.issue k [] true fun t => t.illegal k)
  | .vecReserved => .next (s.issueVec k (.bad 1))
  | .unlaid _ => .next s

/-- SCALAR_ALU (R146, R147). -/
def execScalarAlu (k : CoreId) (f : ScalarForm) (s : State) : Host.Outcome State Fault Refusal :=
  match f with
  | .word w => execWord k w s
  | .fetched ecc => .next (s.issue k [] true fun t => t.scratchEcc k [(t.pc k, 4)] ecc id)
  | .op o rd ra src =>
    let uses := match src with
      | .reg rb => [rd, ra, rb]
      | .imm _ => [rd, ra]
    .next (s.issue k uses true fun t =>
      (t.setGpr k rd (aluResult o (t.gpr k ra) (AluSrc.value t k src))).retire k)

end Sys2Proof.Machine
end

