-- ==== Sys2Proof/Machine/Dma.lean ====
section
/-! DEFINITION. The DMA engine (R156 to R158, R161). -/
namespace Sys2Proof.Machine

/-- The descriptor at a scratch offset. -/
def State.dmaDesc (s : State) (k : CoreId) (o : Nat) : DmaDesc :=
  let f i n := s.scrRd k (o + i) n
  { srcLocal := bit (f 0 4) 0, dstLocal := bit (f 0 4) 1, fill := bit (f 0 4) 2, ordered := bit (f 0 4) 3,
    doneCore := Fin.ofNat 16 (bits (f 4 4) 0 4), doneSync := bits (f 4 4) 4 6, src := f 8 8, dst := f 0x10 8,
    rowBytes := f 0x18 4, rows := f 0x1C 4, srcStride := f 0x20 4, dstStride := f 0x24 4, offset := o }

def DmaDesc.srcEnd (d : DmaDesc) : Nat := d.srcAt + (d.rows - 1) * d.srcStride + d.rowBytes
def DmaDesc.dstEnd (d : DmaDesc) : Nat := d.dstAt + (d.rows - 1) * d.dstStride + d.rowBytes

/-- The checks of R157. -/
def State.dmaRefused (s : State) (k : CoreId) (d : DmaDesc) : Bool :=
  bits (s.scrRd k d.offset 4) 4 28 != 0 || bits (s.scrRd k (d.offset + 4) 4) 10 22 != 0 || decide (47 < d.doneSync) ||
  !allZero (s.scrBytes k (d.offset + 0x28) 24) ||
  d.rowBytes == 0 || decide (16777216 < d.rowBytes) || d.rows == 0 || decide (65536 < d.rows) ||
  (decide (1 < d.rows) && decide (d.dstStride < d.rowBytes)) ||
  (!d.fill && d.srcLocal && decide (scratchBytes < d.srcEnd)) || (d.dstLocal && decide (scratchBytes < d.dstEnd)) ||
  (d.fill && (d.rowBytes % 8 != 0 || d.dstAt % 8 != 0)) ||
  (!d.fill && d.srcLocal == d.dstLocal && decide (d.srcAt < d.dstEnd) && decide (d.dstAt < d.srcEnd))

/-- DMA_ISSUE (R156): the engine reads the descriptor at issue. -/
def execDmaIssue (k : CoreId) (off : Checked W32) (s : State) : Host.Outcome State Fault Refusal :=
  let o := off.val.toNat
  .next (s.issue k [] (!s.queueFull k .dma) fun t =>
    if o % 64 ≠ 0 then t.coreFault k 6 o
    else if !inCoreScratch o 64 then t.coreFault k 3 o
    else
      t.scratchEcc k [(o, 64)] off.ecc fun t =>
        let d := t.dmaDesc k o
        if t.dmaRefused k d then t.coreFault k 5 o
        else (t.retire k).enqueue k .dma (.dma d))

/-! ## The end of a copy -/

/-- The ranges that a copy reads, and those of the destination's aligned 8-byte words that it writes in part, row by row, each a
scratch offset or a job address with its bytes. -/
def DmaDesc.reads (d : DmaDesc) : List (Nat × Nat) :=
  if d.fill then [] else (upFrom 0 d.rows).map fun i => (d.srcAt + i * d.srcStride, d.rowBytes)

def DmaDesc.mends (d : DmaDesc) : List (Nat × Nat) :=
  (upFrom 0 d.rows).flatMap fun i =>
    let a := d.dstAt + i * d.dstStride
    let b := a + d.rowBytes
    (if a % 8 ≠ 0 ∨ d.rowBytes < 8 then [(a / 8 * 8, 8)] else []) ++ if b % 8 ≠ 0 ∧ a / 8 < b / 8 then [(b / 8 * 8, 8)] else []

/-- The words of 8 bytes that some ranges lie in, counted. -/
def wordCount (l : List (Nat × Nat)) : Nat := sumNat (l.map fun x => (x.1 + x.2 + 7) / 8 - x.1 / 8)

/-- The module data address of a place of a copy's source or destination. -/
def State.placeOf (s : State) (k : CoreId) (loc : Bool) (a : Nat) : Option Nat :=
  if loc then some (scratchBase k + a) else (s.pageOf k.cluster (a % 2 ^ 48)).map fun x => x.base + (a % 2 ^ 48 - x.jobBase)

/-- The scratch word numbered `w` of those that a copy reads, and whether it lies in the core's own scratch as a local place. -/
def State.copyWord (s : State) (k : CoreId) (d : DmaDesc) (w : Nat) : Option (Nat × Bool) :=
  let n := wordCount d.reads
  if w < n then (wordAt d.reads w).bind fun a => (s.placeOf k d.srcLocal a).map fun x => (x, d.srcLocal)
  else (wordAt d.mends (w - n)).bind fun a => (s.placeOf k d.dstLocal a).map fun x => (x, d.dstLocal)

/-- What SECDED found in a scratch word that a copy reads, and what the memory path found in a line of its source (R153, R160): the
place of the error that stops the core, an offset in its own scratch or an address. -/
def State.dmaError (s : State) (k : CoreId) (d : DmaDesc) (f : CopyFound) : State × Option Nat :=
  let word (e : Ecc) (w : Nat) : State × Option Nat := match s.copyWord k d w with
    | some (a, loc) =>
      let r := s.windowEcc [(a, 8)] e
      (r.1, r.2.map fun x => if loc then x - scratchBase k else x)
    | none => (s, none)
  let w := match f.ecc with
    | .single i => word (.single 0) i
    | .double i => word (.double 0) i
    | _ => (s, none)
  match w.2 with
  | some a => (w.1, some a)
  | none =>
    match (if d.srcLocal then none else (lineAt d.reads f.line).bind fun a => s.placeOf k false a) with
    | none => w
    | some a =>
      let r := w.1.lineError k.cluster a f.err
      (r.1, if r.2 then some a else none)

/-- Descriptor `idx` of those in progress is in progress no more. -/
def State.endRun (s : State) (k : CoreId) (idx : Nat) : State :=
  let c := s.core k
  s.setCore k { c with dmaRun := c.dmaRun.eraseIdx idx }

/-- DMA_DONE (R158): every byte of descriptor `idx` of those in progress is performed and it signals. It is not due
while a page of the copy faults. An error in what it reads stops the core with cause 7, and it never signals (R153,
R160); what it had not performed by then is not copied (log entry 14). -/
def execDmaDone (k : CoreId) (idx : Fin 4) (found : CopyFound) (s : State) :
    Host.Outcome State Fault Refusal :=
  .next (if s.coreFaulted k then s
    else match (s.core k).dmaRun[idx.val]? with
      | none => s
      | some r =>
        let e := s.dmaError k r.desc found
        match e.2 with
        | some a => (e.1.endRun k idx.val).coreFault k 7 a
        | none =>
          let x := e.1.dmaFinish k r
          match x.2 with
          | some (c, a) => if c = 7 then (x.1.endRun k idx.val).coreFault k 7 a else s
          | none =>
            (((x.1.endRun k idx.val).bump (.cor k) COR_CNT_DMA_DONE).signal
              [⟨k.cluster.coreAt r.desc.doneCore, r.desc.doneSync, 1⟩]).kick k)

/-- DMA_PAGE_FAULT (R157): what comes before the page that faults is performed, the core stops and the descriptor never
signals. -/
def execDmaPageFault (k : CoreId) (idx : Fin 4) (s : State) : Host.Outcome State Fault Refusal :=
  .next (if s.coreFaulted k then s
    else match (s.core k).dmaRun[idx.val]? with
      | none => s
      | some r =>
        let x := s.dmaFinish k r
        match x.2 with
        | none => s
        | some (cause, a) => if cause = 7 then s else (x.1.endRun k idx.val).coreFault k cause a)

end Sys2Proof.Machine
end

