-- ==== Sys2Proof/Machine/Plan.lean ====
section
/-! DEFINITION. Plan records: the header (R276), the entries (R277, R280, R315), what the time base refuses (R282), and
their installation in a slot (R281, R288). -/
namespace Sys2Proof.Machine

/-! ## Entries -/

/-- The entry in 64 bytes. -/
def planEntry (l : List Byte) : PlanEntry :=
  { frameOfs := fieldAt l 0 2, deadlineOfs := fieldAt l 2 2, beat := bits (fieldAt l 4 4) 0 22, kind := bits (fieldAt l 4 4) 22 4,
    xfer := fieldAt l 8 3, peer := fieldAt l 0xC 4, src := fieldAt l 0x10 8, dst := fieldAt l 0x18 8, length := fieldAt l 0x20 4,
    sync := fieldAt l 0x24 4, param := fieldAt l 0x28 8 }

/-- Reserved bits and ranges that every kind of entry has (R277). -/
def entryMalformed (l : List Byte) (e : PlanEntry) (stepFrames frameBeats : Nat) : Bool :=
  bits (fieldAt l 4 4) 26 6 != 0 || fieldAt l 0xB 1 != 0 || bits e.sync 20 12 != 0 || !allZero (slice l 0x30 16) ||
    decide (stepFrames ≤ e.frameOfs) || decide (frameBeats ≤ e.beat) || decide (79 < bits e.sync 4 7) || decide (47 < bits e.sync 14 6)

/-- Does the work region of a REDUCE entry lie in HBM (R315, R316)? -/
def workRegionOk (e : PlanEntry) : Bool :=
  let p := (e.length + 767) / 768
  e.dst % 64 == 0 && rangeHbm e.dst (up64 (64 + 16 * p) + 6144 * p + (if bits e.param 12 2 = 1 then 64 + 3072 * p else 0))

/-- Does a REDUCE entry break R315, its STREAM's uniqueness apart? `me` is the module's coordinate. -/
def reduceMalformed (e : PlanEntry) (me : Nat) : Bool :=
  let f lo n := bits e.param lo n
  let root := f 12 2 == 1
  let loc := f 14 1 == 1
  !inRange e.length 1 3145728 || decide (8 < f 8 4) || decide (1 < f 12 2) || f 15 1 != 0 || decide (47 < f 16 6) || f 22 10 != 0 ||
    f 48 16 != 0 || (f 8 4 == 0 && !loc) || ((f 32 16 == 0) == root) || !workRegionOk e ||
    (if loc then e.src % 64 != 0 || !rangeBacked e.src 64 else e.src != 0 || bits e.sync 14 6 != 0) || (root && e.peer != me)

/-- Does an entry break R277, R280 or R315? A SEND that names unbacked addresses is refused with its record (R440). -/
def entryBad (l : List Byte) (e : PlanEntry) (stepFrames frameBeats me : Nat) : Bool :=
  entryMalformed l e stepFrames frameBeats ||
    match e.kind with
    | 0 => !inRange e.length 1 16777216 || e.param != 0 || !rangeBacked e.src e.length || !rangeBacked e.dst e.length
    | 1 => !inRange e.length 1 16777216 || e.param != 0 || e.src != 0 || e.dst != 0
    | 2 => decide (3 < bits e.param 0 3) || decide (2 ^ 9 ≤ e.param) || (bits e.param 0 3 != 0 && decide (8 ≤ e.param)) ||
        e.src != 0 || e.dst != 0
    | 3 => reduceMalformed e me
    | _ => true

/-- Do the entries stand in ascending order of (FRAME_OFS, BEAT)? Equal pairs are in order. -/
def inOrder : List PlanEntry → Bool
  | a :: b :: t =>
    (decide (a.frameOfs < b.frameOfs) || (a.frameOfs == b.frameOfs && decide (a.beat ≤ b.beat))) && inOrder (b :: t)
  | _ => true

/-- May two entries of a record, of tiles `t` and `u`, name one transfer ID? Those that name one transfer or one window may: a
SEND of the module to itself and its EXPECT, and the windows of different tiles (DEDUCED, log entry 27). -/
def mayShare (t u : Nat) (a b : PlanEntry) (me : Nat) : Bool :=
  if t = u then a.kind + b.kind == 1 && a.peer == me && b.peer == me else a.kind == 2 && b.kind == 2

/-- Is every transfer ID unique within the record (R277)? -/
def xfersUnique (me : Nat) : List (Nat × PlanEntry) → Bool
  | [] => true
  | e :: l => (l.all fun x => x.2.xfer != e.2.xfer || mayShare e.1 x.1 e.2 x.2 me) && xfersUnique me l

/-- Does no STREAM repeat among the REDUCE entries of a tile (R315)? -/
def streamsUnique : List PlanEntry → Bool
  | [] => true
  | e :: t => !(e.kind == 3 && t.any fun x => x.kind == 3 && bits x.param 0 8 == bits e.param 0 8) && streamsUnique t

/-! ## Records -/

/-- The number of entries of the array: as far as the tiles' entries reach (DEDUCED, log entry 64: the header states no number). -/
def planExtent (h : List Byte) : Nat :=
  ((upFrom 0 8).map fun t => fieldAt h (0x20 + 4 * t) 4 + fieldAt h (0x40 + 4 * t) 4).foldl max 0

/-- The entries of tile `t`, as bytes. -/
def tileEntries (h arr : List Byte) (t : Nat) : List (List Byte) :=
  (upFrom (fieldAt h (0x20 + 4 * t) 4) (fieldAt h (0x40 + 4 * t) 4)).map fun i => slice arr (64 * i) 64

/-- Is the header refused (R282)? -/
def State.planHeaderBad (s : State) (h : List Byte) : Bool :=
  fieldAt h 0 4 != 0x4E414C50 || fieldAt h 4 1 != 1 || decide (2 ^ 12 ≤ fieldAt h 6 2) ||
    fieldAt h 8 4 != s.field .ftb FTB_FRAME_LEN 0 13 || !inRange (fieldAt h 0xC 4) 1 65536 || !allZero (slice h 0x60 28)

/-- Are a tile's entries refused? -/
def tileBad (l : List (List Byte)) (stepFrames frameBeats me : Nat) : Bool :=
  let es := l.map planEntry
  (l.any fun b => entryBad b (planEntry b) stepFrames frameBeats me) || !inOrder es || !streamsUnique es

/-- The plan that the record at `a` holds; none if R282 refuses it. -/
def State.readPlan (s : State) (a : Nat) : Option Plan :=
  let h := s.readBytes a 128
  let n := planExtent h
  let ref := s.arrRef (fieldAt h 0x18 8)
  if a % 64 ≠ 0 ∨ s.planHeaderBad h ∨ ref.invalid (64 * n) then none
  else
    let arr := (upFrom 0 n).flatMap fun i => s.readBytes (ref.at_ (64 * i)) 64
    let tiles := (upFrom 0 8).map (tileEntries h arr)
    let steps := fieldAt h 0xC 4
    if fieldAt h 0x7C 4 ≠ crc32c (h.take 0x7C ++ arr) ∨
        tiles.any (fun l => tileBad l steps (fieldAt h 8 4 * 1024) s.sliceCoord) ∨
        !xfersUnique s.sliceCoord (((upFrom 0 8).zip tiles).flatMap fun p => p.2.map fun b => (p.1, planEntry b)) then none
    else
      some { job := fieldAt h 6 2, frameUnits := fieldAt h 8 4, stepFrames := steps, startFrame := fieldAt h 0x10 4,
             firstStep := fieldAt h 0x14 4, tiles := tiles.map fun l => l.map planEntry, raw := h ++ arr }

/-! ## Installation (R281, R282, R288) -/

/-- An address without its low bits and with VALID, as FTB_PLAN_LO and FTB_NEXT_LO hold it. -/
def planLo (a valid : Nat) : Nat := a / 64 % 2 ^ 26 * 64 + valid

/-- PLAN_LOAD with TARGET 0: the slot's plan; was it accepted? -/
def State.loadPlan (s : State) (j a : Nat) : State × Bool :=
  let s := s.setReg .ftb (FTB_PLAN_HI j) (a / 2 ^ 32 % 2 ^ 16)
  match s.readPlan a with
  | some p =>
    ((s.setReg .ftb (FTB_PLAN_LO j) (planLo a 1)).setJob j { s.job j with plan := some p, oldPlans := [] }, true)
  | none =>
    (((s.setReg .ftb (FTB_PLAN_LO j) (planLo a 0)).setJob j { s.job j with plan := none, oldPlans := [] }).planRefused a j, false)

/-- PLAN_LOAD with TARGET 1: the slot's next plan and the step at which it begins. -/
def State.loadNext (s : State) (j a w : Nat) : State × Bool :=
  let s := (s.setReg .ftb (FTB_NEXT_HI j) (a / 2 ^ 32 % 2 ^ 16)).setReg .ftb (FTB_SWITCH_STEP j) w
  let p := if s.switchReached j w then none else s.readPlan a
  match p with
  | some p => ((s.setReg .ftb (FTB_NEXT_LO j) (planLo a 1)).setJob j { s.job j with nextPlan := some p, nextAt := s.beat }, true)
  | none => (((s.setReg .ftb (FTB_NEXT_LO j) (planLo a 0)).setJob j { s.job j with nextPlan := none }).planRefused a j, false)

end Sys2Proof.Machine
end

