-- ==== Sys2Proof/Machine/Request.lean ====
section
/-! DEFINITION. A mailbox command's request as its rule sees it: the payload's fields, the ranges a host may name (R369,
R370, R380), and how a command ends (R377). -/
namespace Sys2Proof.Machine

/-! ## Payloads (R371, R379) -/

/-- The 4,096 request bytes: those past LENGTH are taken as zero. -/
def reqBytes (h : Handover) : List Byte := padTo 4096 ((h.payload.take 4096).take h.length.toNat)

/-- Are all bytes but those of the named (offset, length) spans zero (R376, R379)? -/
def onlyNamed (l : List Byte) (spans : List (Nat × Nat)) : Bool :=
  allZero (spans.foldl (fun x p => zeroAt x p.1 p.2) l)

/-! ## Ranges -/

/-- Does a range lie in one tile's part of the host window (R370)? -/
def State.hostWindowHas (s : State) (a n : Nat) : Bool :=
  let part := (a - lpBase) % 2 ^ 38
  inLp a && decide ((256 - s.foe.window) * 2 ^ 30 ≤ part) && decide (part + n ≤ 256 * 2 ^ 30)

def grants32 : List Nat := upFrom 0 32
def State.grant (s : State) (g : Nat) : Option Grant := sget (fun _ => none) s.foe.grants g
def State.setGrant (s : State) (g : Nat) (v : Option Grant) : State :=
  { s with foe := { s.foe with grants := sset (fun _ => none) s.foe.grants g v } }

/-- Does a granted range with a right (0 read, 1 write) hold the range? -/
def State.grantHas (s : State) (a n right : Nat) : Bool :=
  grants32.any fun g =>
    match s.grant g with
    | some r => decide (r.base ≤ a) && decide (a + n ≤ r.base + r.bytes) && bit r.rights right
    | none => false

/-- The module data address of host address `h`, from 0 to 8W GiB − 1 (R370). -/
def State.hostAddr (s : State) (h : Nat) : Nat :=
  lpBase + h / 2 ^ 12 % 8 * 2 ^ 38 + (256 - s.foe.window) * 2 ^ 30 + h / 2 ^ 15 * 2 ^ 12 + h % 4096

/-- The host window or a grant holds the range (R369, R380). -/
def State.allowed (s : State) (a n right : Nat) : Bool := s.hostWindowHas a n || s.grantHas a n right

/-- May the host name the plan record at `a` (R380)? Header and entry array lie in the window or in grants; a header that R282
refuses references no array. -/
def State.planAllowed (s : State) (a : Nat) : Bool :=
  let h := s.readBytes a 128
  let n := planExtent h
  let ref := s.arrRef (fieldAt h 0x18 8)
  s.allowed a 128 0 && (s.planHeaderBad h || ref.invalid (64 * n) || (upFrom 0 n).all fun i => s.allowed (ref.at_ (64 * i)) 64 0)

/-! ## Slots (R380, R382) -/

/-- Does a slot's job run? One that has been started runs from its START_FRAME on (log entry 65). -/
def State.slotLive (s : State) (j : Nat) : Bool := (s.job j).running

/-- Does a cluster belong to a running job of another slot? -/
def State.clusterTaken (s : State) (j c : Nat) : Bool :=
  jobSlots.any fun i => i != j && s.slotLive i && (s.job i).clusters.contains c

/-- A cluster belongs to slot `j` from now on. -/
def State.giveCluster (s : State) (j c : Nat) : State :=
  let s := jobSlots.foldl (fun s i => s.setJob i { s.job i with clusters := (s.job i).clusters.filter (· != c) }) s
  s.setJob j { s.job j with clusters := (s.job j).clusters ++ [c] }

/-- The cluster of a block, if it has one. -/
def Blk.clusterNo (b : Blk) : Option Nat :=
  match b with
  | .clu c | .cru c | .skd c | .sil c | .cch c => some (clusterIdx c)
  | .cor k => some (clusterIdx k.cluster)
  | _ => none

/-! ## How a command ends -/

/-- A check failed; it ran and completed; or it waits on the module. -/
inductive Ran where
  | refused (s : State) (st : Status) (detail : Nat)
  | done (s : State) (st : Status) (detail : Nat) (out : List Byte)
  | waits (s : State) (step count : Nat)

def State.bad (s : State) (detail : Nat := 0) : Ran := .refused s .badArg detail
def State.good (s : State) (out : List Byte := []) : Ran := .done s .ok 0 out

/-- The block at an address that REG_READ, REG_WRITE or a write list names (R429). -/
def namedBlk (a : Nat) : Option (Blk × Nat) := if a % 4 ≠ 0 then none else blkOfAddr a

def isDbg (p : Blk × Nat) : Bool := p.1.accessOf p.2 == some .dbg

end Sys2Proof.Machine
end

