-- ==== Sys2Proof/Machine/Slice.lean ====
section
/-! DEFINITION. Slice records (R357 to R359), what the Forester refuses (R360), joining (R361) and leaving a slice. -/
namespace Sys2Proof.Machine

def sliceBytes : Nat := 17088

/-! ## The record -/

def portEntry (l : List Byte) (m : Nat) : Nat := fieldAt l (0x40 + 8 * m) 8
def routeEntry (l : List Byte) (e w : Nat) : Nat := fieldAt l (0x1C0 + 16 * e + 4 * w) 4
def tileField (l : List Byte) (t : Fin 8) (o n : Nat) : Nat := fieldAt l (0x41C0 + 32 * t.val + o) n

/-- Header fields with their offset and writable bits: a bit outside them is reserved. -/
def sliceMasks : List (Nat × Nat) :=
  [(0x0C, 0xFFFFFF), (0x10, 3), (0x14, 0x3F3F3F3F), (0x18, 0x1FFF), (0x1C, 0xFFFF), (0x2C, 0x7F), (0x30, 0xFFFFFF), (0x34, 0xFFFFFF),
   (0x38, 0xF)]

def tileReserved (l : List Byte) (t : Fin 8) : Bool :=
  let f o n := tileField l t o n
  decide (2 ^ 48 ≤ f 0 8) || f 0 8 % 64 != 0 || decide (2 ^ 11 ≤ f 8 4) || decide (2 ^ 11 ≤ f 0xC 4) || decide (2 ^ 48 ≤ f 0x10 8) ||
    f 0x10 8 % 64 != 0 || f 0x18 8 != 0

def shapeOk (shape : Nat) : Bool := inRange (bits shape 0 8) 1 16 && inRange (bits shape 8 8) 1 16 && inRange (bits shape 16 8) 1 4

/-- Does a coordinate lie inside a shape (R354)? -/
def insideShape (shape c : Nat) : Bool :=
  decide (bits c 0 8 < bits shape 0 8) && decide (bits c 8 8 < bits shape 8 8) && decide (bits c 16 8 < bits shape 16 8)

/-- The coordinate whose route entry has index `e`, its group apart. -/
def coordOfIndex (e : Nat) : Nat := e % 16 + e / 16 % 16 * 2 ^ 8 + e / 256 * 2 ^ 16

/-- The two regions of every tile. -/
def sliceRegions (l : List Byte) : List (Nat × Nat) :=
  tiles8.flatMap fun t => [(tileField l t 0 8, tileField l t 8 4 * 2 ^ 20), (tileField l t 0x10 8, tileField l t 0xC 4 * 2 ^ 20)]

def anyOverlap : List (Nat × Nat) → Bool
  | [] => false
  | r :: t => (t.any fun x => rangesOverlap r.1 r.2 x.1 x.2) || anyOverlap t

/-- The parts of R360 that the record alone shows. -/
def sliceMalformed (l : List Byte) : Bool :=
  let f o n := fieldAt l o n
  let shape := f 0x0C 4
  f 0 4 != 0x45434C53 || f 4 1 != 1 || f 0x3C 4 != crc32c (zeroAt l 0x3C 4) ||
    (sliceMasks.any fun p => Nat.land (f p.1 4) p.2 != f p.1 4) ||
    ((upFrom 0 48).any fun m => bits (portEntry l m) 57 7 != 0 || (bit (portEntry l m) 40 && m % 6 != 5)) ||
    ((upFrom 0 1024).any fun e => decide (1 < routeEntry l e 3)) || (tiles8.any fun t => tileReserved l t) ||
    !shapeOk shape || !insideShape shape (f 8 4) ||
    ((upFrom 0 1024).any fun e => bit (routeEntry l e 3) 0 && !insideShape shape (coordOfIndex e)) || anyOverlap (sliceRegions l)

/-! ## Registers -/

/-- Step 2 of R361 for the time base. -/
def State.writeSliceTime (s : State) (l : List Byte) : State :=
  let f o n := fieldAt l o n
  let s := (s.setReg .ftb FTB_CTRL (f 0x10 4)).setReg .ftb FTB_PARENTS (f 0x14 4)
  let s := (s.setReg .ftb FTB_FRAME_LEN (f 0x18 4)).setReg .ftb FTB_HORIZON (f 0x1C 4)
  (s.setPair .ftb FTB_ORIGIN_LO FTB_ORIGIN_HI (f 0x20 8)).setReg .ftb FTB_ORIGIN_FRAME (f 0x28 4)

/-- Step 2 of R361 for one tile. -/
def State.writeSliceTile (s : State) (l : List Byte) (t : Fin 8) : State :=
  let f o n := fieldAt l o n
  let b := Blk.til t
  let s := (s.setReg b TIL_COORD (f 8 4)).setReg b TIL_GEN (f 6 2)
  let s := (s.setReg b TIL_CFG (f 0x2C 4)).setReg b TIL_GAP (f 0x30 4)
  let s := (s.setReg b TIL_ACK_TO (f 0x34 4)).setReg b TIL_RETRY (f 0x38 4)
  let s := (s.setPair b TIL_RSB_LO TIL_RSB_HI (tileField l t 0 8)).setReg b TIL_RSB_CFG (tileField l t 8 4)
  let s := (s.setPair b TIL_RX_LO TIL_RX_HI (tileField l t 0x10 8)).setReg b TIL_RX_CFG (tileField l t 0xC 4)
  (upFrom 0 4096).foldl (fun s i => s.setRouteWord t i (routeEntry l (i / 4) (i % 4))) s

def State.writeSlice (s : State) (l : List Byte) : State := tiles8.foldl (fun s t => s.writeSliceTile l t) (s.writeSliceTime l)

/-- Is a slice record refused (R360)? The enable checks of R288 and R312 are made on the registers it would give. -/
def State.sliceRefused (s : State) (l : List Byte) : Bool :=
  let t := s.writeSlice l
  sliceMalformed l || t.ftbBad.isSome || (tiles8.any fun i => (t.tilBad i).isSome) ||
    (s.foe.stage == .joined && fieldAt l 6 2 == s.sliceGen)

/-- The Forester commits the reference of a block that it has configured and enables it (DEDUCED, log entry 46: R433 lets no block run
otherwise, and a slice record carries no reference). -/
def State.commitBlk (s : State) (b : Blk) : State := (s.setReg b BLK_CFG_CRC_REF (s.crcNow b)).enableBlk b

/-- Does a port's entry differ from its registers (R361)? -/
def State.portDiffers (s : State) (l : List Byte) (m : Nat) : Bool :=
  let b := Blk.opt (portOfIdx m)
  let e := portEntry l m
  s.reg b OPT_PEER_COORD != bits e 0 32 || s.reg b OPT_PEER_PORT != bits e 32 7 || s.flag b OPT_CTRL 16 != bit e 40 ||
    s.reg b OPT_SKEW != bits e 41 16 || s.enabled b != bit e 39

/-- Step 3 of R361 for one port. -/
def State.joinPort (s : State) (l : List Byte) (m : Nat) : State :=
  let b := Blk.opt (portOfIdx m)
  let e := portEntry l m
  if s.portDiffers l m then
    let s := s.disableBlk b
    let s := (s.setReg b OPT_PEER_COORD (bits e 0 32)).setReg b OPT_PEER_PORT (bits e 32 7)
    let s := (s.setField b OPT_CTRL 16 1 (bits e 40 1)).setReg b OPT_SKEW (bits e 41 16)
    if bit e 39 then s.commitBlk b else s
  else s

def sliceBlocks : List Blk := .ftb :: tiles8.map Blk.til

/-- The Forester's actions on accepting a record, in order (R361); the capacity words of an earlier generation are forgotten (R347). -/
def State.joinSlice (s : State) (l : List Byte) : State :=
  let s := sliceBlocks.foldl State.disableBlk s
  let s := s.writeSlice l
  let s := (upFrom 0 48).foldl (fun s m => s.joinPort l m) s
  let s := { s with shape := fieldAt l 0x0C 4, foe := { s.foe with stage := .joined },
                    time := { s.time with capSeen := [], capLogged := [], capNext := [] } }
  sliceBlocks.foldl State.commitBlk s

/-- A block's configuration registers return to their reset values. -/
def State.resetCfg (s : State) (b : Blk) : State := b.cfgOffsets.foldl (fun s o => s.setReg b o (b.resetOf o)) s

/-- Leaving the slice: the time base and the fabric blocks stop, and the registers that R361 wrote in them return to reset;
the ports are left as they are (DESIGN CHOICE, log entry 63: the spec names SLICE_LEAVE and says no more). -/
def State.leaveSlice (s : State) : State :=
  let s := sliceBlocks.foldl State.disableBlk s
  let s := sliceBlocks.foldl State.resetCfg s
  { s with routes := [], shape := 0, foe := { s.foe with stage := .ready } }

end Sys2Proof.Machine
end

