-- ==== Sys2Proof/Machine/Context.lean ====
section
/-! DEFINITION. Context images: layout (R449 to R453), CTX_SAVE (R454) and CTX_RESTORE (R455 to R457). -/
namespace Sys2Proof.Machine

/-! ## The sections of a core record (R451 to R453) -/

def zeros (n : Nat) : List Byte := List.replicate n 0

def genBytes (g : GenState) : List Byte :=
  leBytes 8 g.seed.toNat ++ leBytes 8 g.stream.toNat ++ leBytes 8 g.base.toNat ++ leBytes 8 g.stride.toNat ++ leBytes 4 (b2n g.auto) ++
    zeros 28

def smBytes (e : SmEntry) : List Byte :=
  leBytes 1 e.headroom ++ leBytes 1 (unsgn e.initExp 8) ++ leBytes 1 e.ptr ++ zeros 1 ++ leBytes 4 e.stepMax ++
    (upFrom 0 16).flatMap fun i => leBytes 4 (e.hist.getD i 0)

/-- The 256 bytes of a vector register. -/
def Core.vregBytes (c : Core) (r : Nat) : List Byte := (upFrom 0 64).flatMap fun i => leBytes 4 (c.vword r i)

/-- The bytes of a register that a record of a form holds. -/
def vregSpan (form vl vfmt : Nat) : Nat := if form = 1 then vl * vwidth vfmt else 256

/-- The bytes of a core record (R451). -/
def ctxBytes (form vl vfmt : Nat) : Nat :=
  if form = 1 then 0x1380 + up64 (32 * (vl * vwidth vfmt)) else if form = 2 then 275584 else 13184

/-- One accumulation group: head and cells; in an FP64 pair the odd group's area holds the high halves (R453). -/
def State.groupBytes (s : State) (k : CoreId) (g : Fin 4) : List Byte :=
  let x := s.group k g
  let odd := s.pairedAway k g
  let src := if odd then s.group k (partner g) else x
  let lo := if odd then 32 else 0
  let cell (i : Nat) : List Byte :=
    padTo 64 ((sget (fun _ => []) src.cells i).reverse.flatMap fun p => leBytes 4 (bits p.1 lo 32))
  leBytes 1 (b2n x.isOpen) ++ leBytes 1 (if x.isOpen then x.kind else 0) ++ zeros 2 ++ leBytes 4 (if x.isOpen then x.kcount else 0) ++
    zeros 56 ++ (if x.isOpen || odd then (upFrom 0 1024).flatMap cell else zeros 65536)

/-! ## What a save finds (R448) -/

/-- The slot that a core's cluster belongs to, running or not. -/
def State.ownerSlot (s : State) (k : CoreId) : Option Nat :=
  jobSlots.find? fun j => (s.job j).clusters.contains (clusterIdx k.cluster)

def State.coreHalted (s : State) (k : CoreId) : Bool := s.flag (.cor k) COR_STATE stHalted

/-- Was the core stopped by a job stop, and not enabled since? -/
def State.stoppedByJob (s : State) (k : CoreId) : Bool := (s.core k).jobStopped

/-- A clean core (R448). -/
def State.isClean (s : State) (k : CoreId) (form : Nat) : Bool :=
  let c := s.core k
  (s.coreHalted k || s.stoppedByJob k) && c.mtxQ.isEmpty && c.vecQ.isEmpty && c.dmaQ.isEmpty && c.dmaRun.isEmpty &&
    s.synState k == 0 && (form == 2 || groups4.all fun g => !(s.group k g).isOpen)

/-! ## Saving (R454) -/

def State.coreRecord (s : State) (k : CoreId) (form : Nat) : List Byte :=
  let c := s.core k
  let flags := b2n (s.isClean k form) + b2n (s.coreHalted k) * 2 + b2n (form == 2) * 4
  let head := leBytes 4 (Blk.cor k).base ++ leBytes 4 flags ++ leBytes 4 (s.pc k) ++ leBytes 1 c.vl ++ leBytes 1 c.vfmt ++
    leBytes 1 (s.field (.cor k) VEC_FLAGS 0 3) ++ zeros 1 ++ leBytes 4 (ctxBytes form c.vl c.vfmt) ++ zeros 44
  let regs := (upFrom 0 32).flatMap fun r => leBytes 4 (s.gpr k (Fin.ofNat 32 r)).toNat
  let syn := ((upFrom 0 48).flatMap fun i => leBytes 2 (s.syncCount k i)) ++ zeros 32
  let sm := (upFrom 0 64).flatMap fun e => smBytes (s.smEntry k e)
  let vregs := (upFrom 0 32).flatMap fun r => (c.vregBytes r).take (vregSpan form c.vl c.vfmt)
  let groups := if form = 2 then groups4.flatMap (s.groupBytes k) else []
  padTo (ctxBytes form c.vl c.vfmt) (head ++ regs ++ syn ++ genBytes c.gen ++ sm ++ vregs ++ groups)

def State.clusterRecord (s : State) (c : ClusterId) : List Byte :=
  let b := Blk.cru c
  leBytes 4 (clusterBase c) ++ leBytes 4 (s.reg b CRU_JOB) ++ leBytes 4 (s.reg b CRU_EPOCH) ++ zeros 4 ++
    ((upFrom 0 8).flatMap fun i => leBytes 4 (s.reg b (CRU_KEY i))) ++ zeros 16

def dedupNat : List Nat → List Nat
  | a :: b :: t => if a = b then dedupNat (b :: t) else a :: dedupNat (b :: t)
  | l => l

/-- The cores that a CORES field names, ascending. -/
def namedCores (l : List Byte) : List Nat := (upFrom 0 10240).filter fun n => bit (fieldAt l (n / 8) 1) (n % 8)

/-- The clusters of a list of cores, ascending. -/
def clustersOfCores (l : List Nat) : List Nat := dedupNat (l.map (· / 16))

/-- The bytes of the image of the named cores. -/
def State.imageBytes (s : State) (form : Nat) (cores : List Nat) : Nat :=
  64 + 64 * (clustersOfCores cores).length +
    sumNat (cores.map fun n => ctxBytes form (s.core (coreOfIdx n)).vl (s.core (coreOfIdx n)).vfmt)

/-- The image: header with its CRC, cluster records, core records (R449). -/
def State.contextImage (s : State) (form slot : Nat) (cores : List Nat) : List Byte :=
  let cl := clustersOfCores cores
  let body := (cl.flatMap fun c => s.clusterRecord (clusterOfIdx c)) ++ cores.flatMap fun n => s.coreRecord (coreOfIdx n) form
  let head := leBytes 4 0x49585443 ++ leBytes 1 form ++ leBytes 1 1 ++ leBytes 1 (s.reg (.cor (coreOfIdx 0)) VEC_CAPS) ++
    leBytes 1 (if form = 1 then s.field .glb GLB_ARCH 8 4 else 1) ++ leBytes 4 cores.length ++ leBytes 4 cl.length ++
    leBytes 8 (64 + body.length) ++ leBytes 8 s.beat ++ leBytes 2 ((s.job slot).job % 2 ^ 12) ++ leBytes 1 slot ++ zeros 25
  head ++ leBytes 4 (crc32c (head ++ zeros 4 ++ body)) ++ body

/-- Does every named core belong to one slot? -/
def State.oneSlot (s : State) (cores : List Nat) : Option Nat :=
  match cores with
  | [] => none
  | n :: t =>
    let j := s.ownerSlot (coreOfIdx n)
    if t.all fun m => s.ownerSlot (coreOfIdx m) == j then j else none

/-- CTX_SAVE (R454). -/
def State.runCtxSave (s : State) (h : Handover) : Ran :=
  let p := reqBytes h
  let form := fieldAt p 0 1
  let dest := fieldAt p 8 8
  let cores := namedCores (slice p 0x10 1280)
  if !onlyNamed p [(0, 1), (8, 8), (0x10, 1280)] ∨ 2 < form then s.bad
  else
    match s.oneSlot cores with
    | none => s.bad
    | some j =>
      let n := s.imageBytes form cores
      if !s.allowed dest n 1 then s.bad
      else if form = 2 ∧ !s.foe.debug then .refused s .notPermitted 0
      else (s.outsideWrite dest (s.contextImage form j cores)).good (leBytes 8 n)

/-! ## Reading an image (R455) -/

/-- A core record of an image. -/
structure CtxRecord where
  bytes : List Byte
  deriving DecidableEq, Repr

def CtxRecord.f (r : CtxRecord) (o n : Nat) : Nat := fieldAt r.bytes o n
def CtxRecord.vl (r : CtxRecord) : Nat := r.f 0xC 1
def CtxRecord.vfmt (r : CtxRecord) : Nat := r.f 0xD 1

/-- The core whose block a record names. -/
def CtxRecord.core? (r : CtxRecord) : Option CoreId :=
  match blkOfAddr (r.f 0 4) with
  | some (.cor k, 0) => some k
  | _ => none

/-- Cut `n` records from a byte string. -/
def cutRecords : Nat → List Byte → List (List Byte)
  | 0, _ => []
  | n + 1, l =>
    let len := fieldAt l 0x10 4
    l.take len :: cutRecords n (l.drop len)

/-- The levels of a carry stack's entries from the bottom: the binary digits of the K count (R181). -/
def stackLevels (kcount : Nat) : List Nat := ((upFrom 0 17).filter fun i => bit kcount i).reverse

/-- The area of group `g` in a record of form 2. -/
def groupArea (l : List Byte) (g : Nat) : List Byte := slice l (0x3380 + 65600 * g) 65600

/-- Is the area of group `g` broken (R453)? The odd group of an FP64 pair holds halves of the even group's entries and is not open
itself (DEDUCED, log entry 79). -/
def groupBroken (l : List Byte) (g : Nat) : Bool :=
  let a := groupArea l g
  let even := groupArea l (g / 2 * 2)
  let paired := g % 2 == 1 && fieldAt even 0 1 == 1 && fieldAt even 1 1 == 2
  let src := if paired then even else a
  let used := if fieldAt src 0 1 = 1 then (stackLevels (fieldAt src 4 4)).length else 0
  decide (1 < fieldAt a 0 1) || decide (2 < fieldAt a 1 1) || !allZero (slice a 2 2) || !allZero (slice a 8 56) || decide (65536 < fieldAt a 4 4) ||
    (g % 2 == 1 && fieldAt a 0 1 == 1 && (paired || fieldAt a 1 1 == 2)) ||
    (upFrom 0 1024).any fun i => !allZero (slice a (64 + 64 * i + 4 * used) (64 - 4 * used))

/-- Is a core record's layout broken (R451, R453)? -/
def recordMalformed (form : Nat) (l : List Byte) : Bool :=
  let r : CtxRecord := ⟨l⟩
  r.core?.isNone || decide (8 ≤ r.f 4 4) || (bit (r.f 4 4) 2 != (form == 2)) || r.f 8 4 % 4 != 0 || decide (2 ^ 19 ≤ r.f 8 4) ||
    decide (4 < r.vfmt) || decide (8 ≤ r.f 0xE 1) || r.f 0xF 1 != 0 || !allZero (slice l 0x14 44) || l.length != ctxBytes form r.vl r.vfmt ||
    r.f 0x10 4 != l.length || r.f 0x40 4 != 0 || !allZero (slice l 0x120 32) || decide (2 ≤ r.f 0x160 4) || !allZero (slice l 0x164 28) ||
    (form == 2 && (upFrom 0 4).any (groupBroken l)) ||
    (upFrom 0 64).any fun e => r.f (0x180 + 72 * e + 3) 1 != 0 || decide (3 < r.f (0x180 + 72 * e) 1) || decide (15 < r.f (0x180 + 72 * e + 2) 1)

def clusterMalformed (l : List Byte) : Bool :=
  (match blkOfAddr (fieldAt l 0 4) with | some (.clu _, 0) => false | _ => true) || decide (2 ^ 12 ≤ fieldAt l 4 4) ||
    decide (2 ^ 24 ≤ fieldAt l 8 4) || fieldAt l 0xC 4 != 0 || !allZero (slice l 0x30 16)

/-- The cluster records and core records of an image. -/
def imageClusters (l : List Byte) : List (List Byte) := (upFrom 0 (min 640 (fieldAt l 0xC 4))).map fun i => slice l (64 + 64 * i) 64
def imageCores (l : List Byte) : List (List Byte) := cutRecords (min 10240 (fieldAt l 8 4)) (l.drop (64 + 64 * min 640 (fieldAt l 0xC 4)))

/-- Check 1 of R455 on the image's bytes. -/
def imageBroken (l : List Byte) : Bool :=
  let f o n := fieldAt l o n
  f 0 4 != 0x49585443 || decide (2 < f 4 1) || !inRange (f 8 4) 1 10240 || !inRange (f 0xC 4) 1 640 || f 0x10 8 != l.length ||
    decide (2 ^ 12 ≤ f 0x20 2) || decide (15 < f 0x22 1) || !allZero (slice l 0x23 25) || f 0x3C 4 != crc32c (zeroAt l 0x3C 4) ||
    l.length != 64 + 64 * f 0xC 4 + sumNat ((imageCores l).map (·.length)) || (imageClusters l).any clusterMalformed ||
    (imageCores l).any (recordMalformed (f 4 1))

/-- Check 3 of R455; `named` are the records that restore. -/
def State.versionBad (s : State) (l : List Byte) (named : List CtxRecord) : Bool :=
  if fieldAt l 4 1 = 1 then
    fieldAt l 7 1 != s.field .glb GLB_ARCH 8 4 || named.any fun r => decide (vlmax r.vfmt < r.vl)
  else fieldAt l 6 1 != s.reg (.cor (coreOfIdx 0)) VEC_CAPS || fieldAt l 7 1 != 1

/-! ## Restoring (R456, R457) -/

/-- A group from its area and, for an FP64 pair, the odd group's area. -/
def groupOf (lo hi : List Byte) : Group :=
  if fieldAt lo 0 1 = 0 then Group.closed
  else
    let kind := fieldAt lo 1 1
    let n := fieldAt lo 4 4
    let val (i e : Nat) : Nat :=
      fieldAt lo (64 + 64 * i + 4 * e) 4 + (if kind = 2 then fieldAt hi (64 + 64 * i + 4 * e) 4 * 2 ^ 32 else 0)
    let cell (i : Nat) : List (Nat × Nat) := ((upFrom 0 17).zip (stackLevels n)).map (fun p => (val i p.1, p.2)) |>.reverse
    ⟨true, kind, n, (upFrom 0 1024).foldl (fun m i => sset (fun _ => []) m i (cell i)) []⟩

def recordGroups (l : List Byte) : List Group := (upFrom 0 4).map fun g => groupOf (groupArea l g) (groupArea l (g + 1))

def smOf (l : List Byte) : SmEntry :=
  { headroom := fieldAt l 0 1, initExp := sgn (fieldAt l 1 1) 8, hist := (upFrom 0 16).map (fun i => fieldAt l (8 + 4 * i) 4),
    ptr := fieldAt l 2 1, stepMax := fieldAt l 4 4 }

/-- A vector register's 64 words from its bytes in a record; lanes past them read zero. -/
def Core.restoreVreg (c : Core) (r : Nat) (l : List Byte) : Core := (upFrom 0 64).foldl (fun c i => c.setVword r i (fieldAt l (4 * i) 4)) c

/-- The core's engines and registers as a record gives them, with a resume pending. -/
def Core.restore (c : Core) (form : Nat) (r : CtxRecord) : Core :=
  let l := r.bytes
  let w := vregSpan form r.vl r.vfmt
  let g (o : Nat) : W64 := BitVec.ofNat 64 (fieldAt l o 8)
  let regs := (upFrom 1 31).foldl (fun m i => sset (fun _ => (0 : W32)) m i (BitVec.ofNat 32 (fieldAt l (0x40 + 4 * i) 4))) []
  let sm := (upFrom 0 64).foldl (fun m e => sset (fun _ => SmEntry.reset) m e (smOf (slice l (0x180 + 72 * e) 72))) []
  let c := (upFrom 0 32).foldl (fun c i => c.restoreVreg i (slice l (0x1380 + w * i) w)) c
  { c with gpr := regs, vl := r.vl, vfmt := r.vfmt, sm := sm,
           gen := ⟨g 0x140, g 0x148, g 0x150, g 0x158, bit (fieldAt l 0x160 4) 0⟩,
           groups := if form = 2 then recordGroups l else c.groups, resume := some ⟨r.f 8 4, form == 2⟩ }

/-- A core takes its record; every sync object is set as R254 sets one by hand. -/
def State.restoreCore (s : State) (form : Nat) (k : CoreId) (r : CtxRecord) : State :=
  let s := s.setCore k ((s.core k).restore form r)
  let s := s.setField (.cor k) VEC_FLAGS 0 3 (r.f 0xE 1)
  let s := (upFrom 0 48).foldl (fun s i => s.manualSet k i (r.f (0xC0 + 2 * i) 2)) s
  s.kick k

def State.restoreCluster (s : State) (l : List Byte) : State :=
  match blkOfAddr (fieldAt l 0 4) with
  | some (.clu c, _) =>
    let b := Blk.cru c
    let s := (s.setReg b CRU_JOB (fieldAt l 4 4)).setReg b CRU_EPOCH (fieldAt l 8 4)
    (upFrom 0 8).foldl (fun s i => s.setReg b (CRU_KEY i) (fieldAt l (0x10 + 4 * i) 4)) s
  | _ => s

/-- Does a cluster record name a Cruiser that is enabled? -/
def State.cruiserOn (s : State) (l : List Byte) : Bool :=
  match blkOfAddr (fieldAt l 0 4) with
  | some (.clu c, _) => s.enabled (.cru c)
  | _ => false

/-- The named cores with their records; a core without one has none. -/
def pairRecords (recs : List (List Byte)) (cores : List Nat) : List (CoreId × Option CtxRecord) :=
  cores.map fun n => (coreOfIdx n, (recs.map CtxRecord.mk).find? fun r => r.core? == some (coreOfIdx n))

/-- Check 5 of R455. -/
def State.restoreBad (s : State) (l : List Byte) (ps : List (CoreId × Option CtxRecord)) : Bool :=
  (ps.any fun p => s.enabled (.cor p.1) || match p.2 with | some r => !bit (r.f 4 4) 0 | none => true) ||
    (imageClusters l).any s.cruiserOn

/-- CTX_RESTORE (R455 to R457). -/
def State.runCtxRestore (s : State) (h : Handover) : Ran :=
  let p := reqBytes h
  let src := fieldAt p 8 8
  if !onlyNamed p [(8, 8), (0x10, 1280)] ∨ !s.allowed src 64 0 then s.bad
  else
    let n := s.rd (src + 0x10) 8
    if n < 64 ∨ !s.allowed src n 0 then s.bad
    else
      let l := s.readBytes src n
      let form := fieldAt l 4 1
      let ps := pairRecords (imageCores l) (namedCores (slice p 0x10 1280))
      if imageBroken l then s.bad
      else if fieldAt l 5 1 ≠ 1 ∨ s.versionBad l (ps.filterMap (·.2)) then .refused s .versionMismatch 0
      else if form = 2 ∧ !s.foe.debug then .refused s .notPermitted 0
      else if s.restoreBad l ps then s.bad
      else
        let s := ps.foldl (fun s q => match q.2 with | some r => s.restoreCore form q.1 r | none => s) s
        ((imageClusters l).foldl State.restoreCluster s).good

end Sys2Proof.Machine
end

