-- ==== Sys2Proof/Machine/Commands.lean ====
section
/-! DEFINITION. What each mailbox command does once checks 1 to 6 of R377 have passed: its payload's checks and its
execution (R375, R379, R380). CTX_SAVE and CTX_RESTORE stand in Machine/Context.lean. -/
namespace Sys2Proof.Machine

/-! ## HELLO and IDENTITY (R375) -/

/-- The highest minor of interface 1 that the ROM or the firmware supports. -/
def State.topMinor (s : State) : Nat := if s.foe.stage = .rom then 0 else 2

/-- The version that HELLO chooses, if one lies in both ranges. -/
def State.chooseVersion (s : State) (minMajor minMinor maxMajor maxMinor : Nat) : Option (Nat × Nat) :=
  let top := min (if maxMajor = 1 then maxMinor else 255) s.topMinor
  let low := if minMajor = 1 then minMinor else 0
  if minMajor ≤ 1 ∧ 1 ≤ maxMajor ∧ low ≤ top then some (1, top) else none

def State.fwVersion (s : State) : Nat := s.reg .fo FOR_FW_VERSION

def State.runHello (s : State) (h : Handover) : Ran :=
  let p := reqBytes h
  let f i := fieldAt p i 1
  let range := leBytes 4 (1 + 1 * 2 ^ 16 + s.topMinor * 2 ^ 24) ++ leBytes 2 0 ++ leBytes 4 s.fwVersion
  if !onlyNamed p [(0, 4)] then s.bad
  else
    match s.chooseVersion (f 0) (f 1) (f 2) (f 3) with
    | some (a, b) =>
      let s := { s with foe := { s.foe with agreed := some (a * 256 + b) } }
      (s.log .mbx 0x0205 1 [a, b]).good (leBytes 1 a ++ leBytes 1 b ++ range)
    | none => .done s .versionMismatch 0 (leBytes 2 0 ++ range)

/-- "CTK1-M24-A". -/
def partNumber : List Byte := [0x43, 0x54, 0x4B, 0x31, 0x2D, 0x4D, 0x32, 0x34, 0x2D, 0x41]

def State.identityBytes (s : State) : List Byte :=
  padTo 16 partNumber ++ leBytes 8 (s.provField 0x10 8) ++ [1, 8, 80, 16, 64, 1] ++ leBytes 2 0 ++ leBytes 4 s.fwVersion ++
    leBytes 4 (s.reg .fo FOR_MIN_VERSION) ++ leBytes 1 s.moduleState ++ leBytes 1 (b2n s.foe.fence) ++ leBytes 2 s.runningMask ++
    leBytes 4 s.sliceCoord ++ leBytes 2 s.sliceGen

def State.runIdentity (s : State) (h : Handover) : Ran := if onlyNamed (reqBytes h) [] then s.good s.identityBytes else s.bad

/-! ## Firmware (R380, R394 to R397) -/

def finish (r : State × Status) : Ran :=
  match r.2 with
  | .badArg => r.1.bad
  | st => .done r.1 st 0 []

def State.runFwBegin (s : State) (h : Handover) : Ran :=
  let p := reqBytes h
  let n := fieldAt p 0 4
  if !onlyNamed p [(0, 4)] ∨ !inRange n 1 16777216 then s.bad else finish (s.openImage false n)

def State.runFwChunk (s : State) (h : Handover) : Ran :=
  let p := reqBytes h
  let n := fieldAt p 4 4
  if !inRange n 1 4088 ∨ !onlyNamed p [(0, 8 + n)] then s.bad else finish (s.writeImage false (fieldAt p 0 4) (slice p 8 n))

def State.runFwCommit (s : State) (h : Handover) (flashOk : Bool) : Ran :=
  if !onlyNamed (reqBytes h) [] then s.bad
  else
    let r := s.commitImage false flashOk
    match r.2.1 with
    | .ok => r.1.good (leBytes 4 r.2.2.2)
    | .badArg => r.1.bad
    | st => .done r.1 st r.2.2.1 []

/-! ## INIT and the host window (R370, R380, R443) -/

/-- The controllers in the order of INIT's response, with the result bit of each. -/
def memCtls (r : InitResult) : List (Blk × Bool) :=
  (tiles8.flatMap fun t => (upFrom 0 3).map fun i => (Blk.hbc t (Fin.ofNat 3 i), r.hbm.getLsbD (3 * t.val + i))) ++
    tiles8.flatMap fun t => (upFrom 0 4).map fun i => (Blk.lpc t (Fin.ofNat 4 i), r.lp.getLsbD (4 * t.val + i))

def State.trainOne (s : State) (p : Blk × Bool) : State :=
  if p.2 then s.setField p.1 HBC_STATE 0 2 3 else (s.setField p.1 HBC_STATE 0 1 0).log p.1 0x4003 3

/-- The Tally codes that the spec defines for the Forester (19). -/
def foCodes : List Nat := [0x0101, 0x0102, 0x0103, 0x0104, 0x0105, 0x0106, 0x0107, 0x0108, 0x0113]

/-- A tile that fails its self-test is logged at the level of a command refused (R421), under one of the Forester's codes: the spec
does not say which (log entry 97). -/
def State.failTile (s : State) (t : Nat) : State := s.useFree.log .fo (foCodes.getD (s.free % 9) 0x0105) 2 [t]

def State.failTiles (s : State) (r : InitResult) : State :=
  ((upFrom 0 8).filter fun t => !bit r.test.toNat t).foldl State.failTile s

/-- The row and column repairs of the active provenance copy (R389, log entry 97). -/
def State.repairBytes (s : State) : List Byte :=
  match s.prov with
  | some l => slice l 0xB00 (s.provField 0x24 4)
  | none => []

/-- The memories are trained with the repairs applied, the self-test runs, and the host window takes its size (R370, R380, R389). -/
def State.trainAll (s : State) (r : InitResult) : State :=
  let s := ((memCtls r).foldl State.trainOne s).failTiles r
  { s with foe := { s.foe with window := s.foe.windowNext, repairs := s.repairBytes } }

def State.runInit (s : State) (h : Handover) (r : InitResult) : Ran :=
  let p := reqBytes h
  let out := leBytes 4 r.hbm.toNat ++ leBytes 4 r.lp.toNat ++ leBytes 4 r.test.toNat
  if !onlyNamed p [(0, 4)] ∨ 1 < fieldAt p 0 4 then s.bad
  else
    let s := s.trainAll r
    if (memCtls r).any fun q => !q.2 then .done s .verifyFailed 0x4003 out
    else if r.test.toNat ≠ 255 then .done s .verifyFailed 0 out
    else { s with foe := { s.foe with stage := .ready } }.good out

def State.runHostWindow (s : State) (h : Handover) : Ran :=
  let p := reqBytes h
  let w := fieldAt p 0 1
  if !onlyNamed p [(0, 1)] ∨ !([8, 16, 32, 64].contains w) then s.bad
  else { s with foe := { s.foe with windowNext := w } }.good

/-! ## Slices (R360, R361) -/

def State.runSliceJoin (s : State) (h : Handover) : Ran :=
  let p := reqBytes h
  let a := fieldAt p 0 8
  if !onlyNamed p [(0, 8)] ∨ !s.allowed a sliceBytes 0 then s.bad
  else
    let l := s.readBytes a sliceBytes
    if s.sliceRefused l then (s.log .fo 0x0130 2).bad 0x0130 else (s.joinSlice l).good

def State.runSliceLeave (s : State) (h : Handover) : Ran := if onlyNamed (reqBytes h) [] then s.leaveSlice.good else s.bad

/-! ## Plans and programs -/

def State.runPlanLoad (s : State) (h : Handover) : Ran :=
  let p := reqBytes h
  let j := fieldAt p 0 1
  let a := fieldAt p 8 8
  if !onlyNamed p [(0, 2), (4, 12)] ∨ 15 < j ∨ 1 < fieldAt p 1 1 ∨ !s.planAllowed a then s.bad
  else
    let r := if fieldAt p 1 1 = 0 then s.loadPlan j a else s.loadNext j a (fieldAt p 4 4)
    if r.2 then r.1.good else r.1.bad 0x3085

/-- A manifest entry (R380). -/
structure Program where
  core : CoreId
  off : Nat
  bytes : Nat
  prog : Nat
  entry : Nat
  src : Nat
  deriving DecidableEq, Repr

/-- The manifest entry at `a`; none if it breaks R380 or names bytes that the host may not read. -/
def State.program? (s : State) (a : Nat) : Option Program :=
  let f o n := s.rd (a + o) n
  match blkOfAddr (f 0 4) with
  | some (.cor k, 0) =>
    if f 0x14 4 ≠ 0 ∨ !inCoreScratch (f 4 4) (f 8 4) ∨ !s.allowed (f 0x18 8) (f 8 4) 0 then none
    else some ⟨k, f 4 4, f 8 4, f 0xC 4, f 0x10 4, f 0x18 8⟩
  | _ => none

/-- One entry of a manifest is carried out for slot `j`. -/
def State.loadProgram (j : Nat) (s : State) (e : Program) : State :=
  let s := s.outsideWrite (scratchBase e.core + e.off) (s.readBytes e.src e.bytes)
  let s := (s.writeEffect (.cor e.core) COR_PROG e.prog).writeEffect (.cor e.core) COR_ENTRY e.entry
  s.giveCluster j (clusterIdx e.core.cluster)

def State.runProgramLoad (s : State) (h : Handover) : Ran :=
  let p := reqBytes h
  let j := fieldAt p 0 1
  let a := fieldAt p 8 8
  let n := fieldAt p 0x10 4
  if !onlyNamed p [(0, 1), (8, 12)] ∨ 15 < j ∨ !s.allowed a (32 * n) 0 then s.bad
  else
    let es := (upFrom 0 n).map fun i => s.program? (a + 32 * i)
    let ok := es.filterMap id
    if es.any (·.isNone) then s.bad
    else if ok.any fun e => s.clusterTaken j (clusterIdx e.core.cluster) then .refused s .notPermitted 0
    else (ok.foldl (State.loadProgram j) s).good (leBytes 4 ((ok.map fun e => coreIdx e.core).eraseDups).length)

/-! ## CONFIG_APPLY (R380, R439) -/

/-- One entry of a write list: block, offset, value. -/
structure ListWrite where
  blk : Blk
  off : Nat
  value : Nat
  deriving DecidableEq, Repr

def State.listEntry? (s : State) (a : Nat) : Option ListWrite :=
  (namedBlk (s.rd a 4)).map fun p => ⟨p.1, p.2, s.rd (a + 4) 4⟩

/-- The blocks of a write list in the order of their first entries, each with its entries. -/
def byBlock (l : List ListWrite) : List (Blk × List ListWrite) :=
  ((l.map (·.blk)).eraseDups).map fun b => (b, l.filter (·.blk = b))

/-- A posted block takes its pending write before the Forester's next one. -/
def State.settlePosted (s : State) (b : Blk) : State :=
  match s.pendingWrite b with
  | some (o, v) => (s.setPending b none).writeEffect b o v
  | none => s

/-- One write of a list: BLK_CTRL gives SNAP_ARM only, since the procedure itself writes ENABLE (R439). -/
def State.listWrite (s : State) (w : ListWrite) : State :=
  if w.off = BLK_CTRL then s.writeArm w.blk (bit w.value 1) else s.writeEffect w.blk w.off w.value

def State.ownBlock (s : State) (j : Nat) (b : Blk) : State :=
  match b.clusterNo with
  | some c => s.giveCluster j c
  | none => s

def configOut (applied failed : Nat) : List Byte := leBytes 4 applied ++ leBytes 4 failed

/-- The blocks of a list are configured one after another; a unit that is still busy keeps the command waiting. `i` blocks
and `n` entries are done. -/
def State.applyBlocks (j : Nat) : List (Blk × List ListWrite) → Nat → Nat → State → Ran
  | [], _, n, s => s.good (configOut n 0)
  | g :: t, i, n, s =>
    let s := (s.settlePosted g.1).disableBlk g.1
    if s.unitBusy g.1 then .waits s i n
    else
      let s := ((g.2.foldl State.listWrite s).ownBlock j g.1).enableBlk g.1
      let n := n + g.2.length
      if s.enabled g.1 then State.applyBlocks j t (i + 1) n s else s.good (configOut n g.1.base)

def State.configBlocks (s : State) (h : Handover) : List (Blk × List ListWrite) :=
  let p := reqBytes h
  byBlock ((upFrom 0 (fieldAt p 0x10 4)).filterMap fun i => s.listEntry? (fieldAt p 8 8 + 8 * i))

def State.runConfigApply (s : State) (h : Handover) : Ran :=
  let p := reqBytes h
  let j := fieldAt p 0 1
  let a := fieldAt p 8 8
  let n := fieldAt p 0x10 4
  if !onlyNamed p [(0, 1), (8, 12)] ∨ 15 < j ∨ !inRange n 1 1048576 ∨ !s.allowed a (8 * n) 0 then s.bad
  else if (upFrom 0 n).any fun i => (s.listEntry? (a + 8 * i)).isNone then s.bad
  else
    let gs := s.configBlocks h
    let taken (b : Blk) : Bool := match b.clusterNo with | some c => s.clusterTaken j c | none => false
    if gs.any fun g => taken g.1 then .refused s .notPermitted 0 else State.applyBlocks j gs 0 0 s

/-- CONFIG_APPLY goes on where it waited. -/
def State.resumeConfig (s : State) (h : Handover) (i n : Nat) : Ran :=
  State.applyBlocks (fieldAt (reqBytes h) 0 1) ((s.configBlocks h).drop i) i n s

/-! ## Jobs (R363, R380) -/

/-- The slot takes the job, to begin at the plan's START_FRAME, and every tile's LND_SLOT shows it (R329); a stopped job that the
slot held leaves STOPPED when the new one begins (R381). -/
def State.startSlot (s : State) (j job : Nat) : State :=
  let s := s.setJob j { s.job j with job := job, starting := true, running := false, stops := [] }
  tiles8.foldl (fun s t => s.writeLndSlot t j (job + 2 ^ 12)) s

def State.runJobStart (s : State) (h : Handover) : Ran :=
  let p := reqBytes h
  let j := fieldAt p 0 1
  let job := fieldAt p 2 2
  let elsewhere := jobSlots.any fun i => i != j && s.slotLive i && (s.job i).job == job
  match (s.job j).plan with
  | some q =>
    if !onlyNamed p [(0, 1), (2, 2)] ∨ 15 < j ∨ 2 ^ 12 ≤ job ∨ !s.flag .ftb (FTB_PLAN_LO j) 0 ∨ elsewhere then s.bad
    else (s.startSlot j job).good (leBytes 4 q.startFrame)
  | none => s.bad

/-- The running slots of a mask. -/
def State.runningOf (s : State) (mask : Nat) : List Nat := jobSlots.filter fun j => bit mask j && (s.job j).running

def maskOf (l : List Nat) : Nat := sumNat (l.map fun j => 2 ^ j)

/-- A commanded stop is latched for the next boundary, beside the stops that are latched already. -/
def State.latchStop (k : StopKind) (s : State) (j : Nat) : State :=
  s.setJob j { s.job j with stops := (s.job j).stops ++ [⟨k, 0, 0, false, s.beat⟩] }

/-- The list without its last stop by command. -/
def dropLastCommand (l : List StopReq) : List StopReq :=
  let r := l.reverse
  ((r.takeWhile fun x => x.kind != .command) ++ (r.dropWhile fun x => x.kind != .command).drop 1).reverse

/-- A JOB_STOP that Lookout ends before it has had an effect latches nothing (R378). -/
def State.withdrawStop (s : State) (j : Nat) : State :=
  s.setJob j { s.job j with stops := dropLastCommand (s.job j).stops }

def State.runJobStop (s : State) (h : Handover) : Ran :=
  let p := reqBytes h
  let l := s.runningOf (fieldAt p 0 2)
  if !onlyNamed p [(0, 2)] then s.bad else .waits (l.foldl (State.latchStop .command) s) 0 (maskOf l)

/-- JOB_STOP completes once its jobs have stopped. -/
def State.resumeJobStop (s : State) (mask : Nat) : Ran :=
  if (s.runningOf mask).isEmpty then s.good (leBytes 4 s.frame) else .waits s 0 mask

def State.discardSlot (s : State) (j : Nat) : State :=
  let s := tiles8.foldl (fun s t => s.writeLndSlot t j 0) s
  let s := (s.clearFlag .ftb (FTB_PLAN_LO j) 0).clearFlag .ftb (FTB_NEXT_LO j) 0
  s.setJob j JobSlot.empty

def State.runRecover (s : State) (h : Handover) : Ran :=
  if onlyNamed (reqBytes h) [] then (jobSlots.foldl State.discardSlot s).rearmBlaze.leaveSlice.good else s.bad

/-! ## Memory (R165, R369, R380) -/

def namedClusters (l : List Byte) : List Nat := (upFrom 0 640).filter fun n => bit (fieldAt l (n / 8) 1) (n % 8)

/-- The root of a cluster's tables. -/
def State.setRoot (root : Nat) (s : State) (c : Nat) : State :=
  let b := Blk.clu (clusterOfIdx c)
  (s.setReg b CLU_XLAT_LO (root % 2 ^ 32 / 4096 * 4096 + 1)).setReg b CLU_XLAT_HI (root / 2 ^ 32 % 2 ^ 16)

/-- CLU_XLAT_GEN of the first of a list of clusters. -/
def State.xlatGen (s : State) (l : List Nat) : Nat :=
  match l with
  | c :: _ => s.reg (.clu (clusterOfIdx c)) CLU_XLAT_GEN
  | [] => 0

def State.runMemMap (s : State) (h : Handover) : Ran :=
  let p := reqBytes h
  let j := fieldAt p 0 1
  let root := fieldAt p 8 8
  let l := namedClusters (slice p 0x10 80)
  if !onlyNamed p [(0, 1), (8, 8), (0x10, 80)] ∨ 15 < j ∨ root % 4096 ≠ 0 ∨ !rangeDram root 8 then s.bad
  else if l.any (s.clusterTaken j) then .refused s .notPermitted 0
  else
    let s := l.foldl (fun s c => State.setRoot root (s.giveCluster j c) c) s
    if (s.job j).running then
      .waits { s with foe := { s.foe with invals := s.foe.invals ++ [⟨(s.job j).clusters, s.beat, h.box.val⟩] } } 0 0
    else
      let s := l.foldl State.invalidateXlat s
      s.good (leBytes 4 (s.xlatGen l))

/-- MEM_MAP completes once the boundary's invalidation is made (R165). -/
def State.resumeMemMap (s : State) (h : Handover) : Ran :=
  if s.foe.invals.any fun v => v.box == h.box.val then .waits s 0 0
  else s.good (leBytes 4 (s.xlatGen (namedClusters (slice (reqBytes h) 0x10 80))))

def mib2 : Nat := 2 ^ 21

def State.runMemGrant (s : State) (h : Handover) : Ran :=
  let p := reqBytes h
  let base := fieldAt p 0 8
  let n := fieldAt p 8 8
  let r := fieldAt p 0x10 1
  if !onlyNamed p [(0, 17)] ∨ base % mib2 ≠ 0 ∨ n % mib2 ≠ 0 ∨ n = 0 ∨ 3 < r ∨ !rangeDram base n then s.bad
  else
    match grants32.find? fun g => (s.grant g).isNone with
    | some g => (s.setGrant g (some ⟨base, n, r⟩)).good (leBytes 1 g)
    | none => .refused s .noResource 0

def State.runMemRevoke (s : State) (h : Handover) : Ran :=
  let p := reqBytes h
  let g := fieldAt p 0 1
  if !onlyNamed p [(0, 1)] ∨ 31 < g ∨ (s.grant g).isNone then s.bad else (s.setGrant g none).good

/-! ## Blaze (R416, R417) -/

def State.runSnapTrigger (s : State) (h : Handover) : Ran :=
  let p := reqBytes h
  let w := fieldAt p 0 8
  if !onlyNamed p [(0, 8)] ∨ (w ≠ 0 ∧ w < s.beat + 1024) then s.bad
  else if s.blazeFired then .refused s .noResource 0
  else if w = 0 then (s.fireBlaze 0 (s.beat + 128) 0 0).good
  else ((s.setPair .blz BLZ_MATCH_LO BLZ_MATCH_HI w).setFlag .blz BLZ_STATE 1).good

/-- The record of one block: base, BLK_STATUS as read, the window. -/
def snapAddrs (b : Nat) : List Nat := (b + BLK_STATUS) :: (upFrom 0 56).map fun i => b + 0x20 + 4 * i

/-- The records of a list of blocks, in order. -/
def snapRecords : List Nat → State → List Byte × State
  | [], s => ([], s)
  | b :: t, s =>
    let r := readAll (snapAddrs b) s
    let u := snapRecords t r.2
    (leBytes 4 b ++ r.1.flatMap (leBytes 4) ++ zeros 8 ++ u.1, u.2)

def isBase (a : Nat) : Bool := match blkOfAddr a with | some (_, 0) => true | _ => false

/-- SNAP_READ of at most `top` blocks. -/
def State.snapRead (s : State) (p : List Byte) (top : Nat) : Ran :=
  let n := fieldAt p 0 2
  let bases := (upFrom 0 n).map fun i => fieldAt p (8 + 4 * i) 4
  if !inRange n 1 top ∨ !onlyNamed p [(0, 2), (8, 4 * n)] ∨ !bases.all isBase then s.bad
  else
    let r := snapRecords bases s
    r.2.good r.1

def State.runSnapRead (s : State) (h : Handover) : Ran := s.snapRead (reqBytes h) 16

/-- The snapshots are released: no slot holds one, and Blaze is re-armed (R381, R417). -/
def State.releaseSnaps (s : State) : State :=
  (jobSlots.foldl (fun s j => s.setJob j { s.job j with snapHeld := false }) s).rearmBlaze

def State.runSnapRearm (s : State) (h : Handover) : Ran := if onlyNamed (reqBytes h) [] then s.releaseSnaps.good else s.bad

/-! ## Tally and events (R383, R424) -/

/-- The sequence number from which LOG_READ returns entries, and the entries (R424). -/
def State.logStart (s : State) (frm : Nat) : Nat := if later32 s.tallyOldest frm then s.tallyOldest else frm

def State.logEntries (s : State) (frm top : Nat) : List TallyEntry :=
  if later32 frm (s.reg .tly TLY_HEAD) then []
  else (s.tally.ring.drop ((s.logStart frm + (2 ^ 32 - s.tallyOldest)) % 2 ^ 32)).take top

/-- The Forester reads entries through TLY_SEL, which then holds the last one's sequence number (R427). -/
def State.selectLast (s : State) (frm top : Nat) : State :=
  let n := (s.logEntries frm top).length
  if n = 0 then s else s.setReg .tly TLY_SEL ((s.logStart frm + n - 1) % 2 ^ 32)

/-- The response of LOG_READ (R424). -/
def State.logBytes (s : State) (frm top : Nat) : List Byte :=
  let head := s.reg .tly TLY_HEAD
  let old := s.tallyOldest
  let ovf := if later32 old frm then min 0xFFFF ((old + (2 ^ 32 - frm)) % 2 ^ 32) else 0
  let es := s.logEntries frm top
  let next := if es.isEmpty then head else (s.logStart frm + es.length) % 2 ^ 32
  leBytes 4 next ++ leBytes 2 es.length ++ leBytes 2 ovf ++ zeros 8 ++ es.flatMap (·.bytes)

/-- LOG_READ of at most `top` entries. -/
def State.logRead (s : State) (p : List Byte) (top : Nat) : Ran :=
  if !onlyNamed p [(0, 6)] ∨ !inRange (fieldAt p 4 2) 1 top then s.bad
  else (s.selectLast (fieldAt p 0 4) (fieldAt p 4 2)).good (s.logBytes (fieldAt p 0 4) (fieldAt p 4 2))

def State.runLogRead (s : State) (h : Handover) : Ran := s.logRead (reqBytes h) 127

def StopRecord.bytes (r : StopRecord) : List Byte :=
  leBytes 4 (r.job % 2 ^ 12 + r.kind * 2 ^ 12) ++ leBytes 2 r.cause ++ leBytes 2 0 ++ leBytes 4 r.frame ++ leBytes 4 0

def CapEvent.bytes (e : CapEvent) : List Byte :=
  leBytes 4 e.coord ++ leBytes 4 (e.port + e.oldMode * 2 ^ 6 + e.newMode * 2 ^ 10) ++ leBytes 4 e.frame ++ leBytes 4 0

def State.runEventRead (s : State) (h : Handover) : Ran :=
  let r := s.readReg .mbx MBX_EVENTS
  let out := leBytes 4 r.1 ++ zeros 12 ++ (jobSlots.flatMap fun j => (s.job j).record.bytes) ++ padTo 256 (s.foe.caps.flatMap (·.bytes))
  if onlyNamed (reqBytes h) [] then r.2.good out else s.bad

/-! ## Debug and registers (R398, R429) -/

def State.debugAllowed (s : State) : Bool := match s.foe.firmware with | some w => w.policy | none => false

def State.runDebugMode (s : State) (h : Handover) : Ran :=
  let p := reqBytes h
  let on := fieldAt p 0 1
  if !onlyNamed p [(0, 1)] ∨ 1 < on then s.bad
  else if on = 1 ∧ !s.debugAllowed then .refused s .notPermitted 0
  else { s with foe := { s.foe with debug := on == 1 } }.good

/-- REG_READ of at most `top` addresses. -/
def State.regRead (s : State) (p : List Byte) (top : Nat) : Ran :=
  let n := fieldAt p 0 4
  let as_ := (upFrom 0 (min n 1022)).map fun i => fieldAt p (8 + 4 * i) 4
  if !inRange n 1 top ∨ !onlyNamed p [(0, 4), (8, 4 * n)] ∨ as_.any (fun a => (namedBlk a).isNone) then s.bad
  else if !s.foe.debug ∧ (as_.filterMap namedBlk).any isDbg then .refused s .notPermitted 0
  else
    let r := readAll as_ s
    r.2.good (r.1.flatMap (leBytes 4))

def State.runRegRead (s : State) (h : Handover) : Ran := s.regRead (reqBytes h) 1022

def State.runRegWrite (s : State) (h : Handover) : Ran :=
  let p := reqBytes h
  let n := fieldAt p 0 4
  let ws := (upFrom 0 (min n 511)).map fun i => (namedBlk (fieldAt p (8 + 8 * i) 4), fieldAt p (12 + 8 * i) 4)
  if !inRange n 1 511 ∨ !onlyNamed p [(0, 4), (8, 8 * n)] ∨ ws.any (·.1.isNone) then s.bad
  else if !s.foe.debug then .refused s .notPermitted 0
  else (ws.foldl (fun s w => match w.1 with | some (b, o) => s.writeReg b o w.2 | none => s) s).good (leBytes 4 n)

/-- SYNC_SET (R256): waiters are checked again at once. -/
def State.runSyncSet (s : State) (h : Handover) : Ran :=
  let p := reqBytes h
  let o := fieldAt p 4 1
  let v := fieldAt p 6 2
  match blkOfAddr (fieldAt p 0 4) with
  | some (.cor k, 0) =>
    if !onlyNamed p [(0, 5), (6, 2)] ∨ 47 < o then s.bad
    else if !s.foe.debug then .refused s .notPermitted 0
    else
      let old := s.syncCount k o
      ((s.manualSet k o v).kick k).good (leBytes 2 old)
  | _ => s.bad

/-! ## Ports and the quote -/

/-- The registers of one port that CAL_STATUS returns. -/
def calAddrs (m : Nat) : List Nat :=
  let b := (Blk.opt (portOfIdx m)).base
  [b + OPT_STATE, b + OPT_MARGIN, b + OPT_PARTNER, b + OPT_PARTNER_PORT, b + OPT_ASYM, b + OPT_EVENTS] ++
    (upFrom 0 8).map (fun k => b + OPT_WL k) ++ [b + OPT_CAP_LOG]

def calRecords : List Nat → State → List Byte × State
  | [], s => ([], s)
  | m :: t, s =>
    let r := readAll (calAddrs m) s
    let u := calRecords t r.2
    (r.1.flatMap (leBytes 4) ++ zeros 4 ++ u.1, u.2)

def State.runCalStatus (s : State) (h : Handover) : Ran :=
  let p := reqBytes h
  let mask := fieldAt p 0 8
  if !onlyNamed p [(0, 8)] ∨ 2 ^ 48 ≤ mask then s.bad
  else
    let r := calRecords ((upFrom 0 48).filter fun m => bit mask m) s
    r.2.good r.1

/-- ATTEST (R401), from the host or over Lookout. -/
def State.attest (s : State) (p : List Byte) : Ran :=
  if !onlyNamed p [(0, 0x22)] then s.bad
  else
    match s.quote (slice p 0 32) (fieldAt p 0x20 2) with
    | some l => s.good l
    | none => .done s .verifyFailed 0x0104 []

def State.runAttest (s : State) (h : Handover) : Ran := s.attest (reqBytes h)

end Sys2Proof.Machine
end

