-- ==== Sys2Proof/Machine/Mailbox.lean ====
section
/-! DEFINITION. The mailboxes: handover and replay (R372, R373), acceptance and order (R374), checks 1 to 6 of R377,
completion, waiting commands and their time limit, and the rows of the command catalogue (R379). -/
namespace Sys2Proof.Machine

/-! ## The catalogue -/

def Cmd.opcode : Cmd → Nat
  | .hello => 0x0001 | .identity => 0x0002 | .fwBegin => 0x0010 | .fwChunk => 0x0011 | .fwCommit _ => 0x0012
  | .init _ => 0x0020 | .hostWindow => 0x0021 | .sliceJoin => 0x0030 | .sliceLeave => 0x0031 | .planLoad => 0x0040
  | .programLoad => 0x0041 | .configApply => 0x0042 | .jobStart => 0x0050 | .jobStop => 0x0051 | .recover => 0x0052
  | .memMap => 0x0060 | .memGrant => 0x0061 | .memRevoke => 0x0062 | .snapTrigger => 0x0070 | .snapRead => 0x0071
  | .snapRearm => 0x0072 | .logRead => 0x0073 | .eventRead => 0x0074 | .debugMode => 0x0080 | .regRead => 0x0081
  | .regWrite => 0x0082 | .syncSet => 0x0083 | .ctxSave => 0x0090 | .ctxRestore => 0x0091 | .calStatus => 0x00A0
  | .attest => 0x00B0

def opcodes : List Nat :=
  [0x01, 0x02, 0x10, 0x11, 0x12, 0x20, 0x21, 0x30, 0x31, 0x40, 0x41, 0x42, 0x50, 0x51, 0x52, 0x60, 0x61, 0x62, 0x70, 0x71, 0x72, 0x73,
   0x74, 0x80, 0x81, 0x82, 0x83, 0x90, 0x91, 0xA0, 0xB0]

/-- Commands that only read execute as soon as they are accepted (R374). -/
def Cmd.readOnly : Cmd → Bool
  | .identity | .snapRead | .logRead | .eventRead | .regRead | .calStatus | .attest => true
  | _ => false

/-- Commands that a fence lets through (check 5). -/
def Cmd.unfenced : Cmd → Bool
  | .hello | .identity | .logRead | .eventRead => true
  | _ => false

/-! ## Legality (R382) -/

/-- A mark of R382: never; always; only for slots that do not run; only while a named slot runs; only while no job runs. -/
inductive Leg where
  | no | yes | idle | runs | quiet
  deriving DecidableEq, Repr

/-- The row of a command, from ROM to FAULTED. -/
def Cmd.marks (c : Cmd) (target : Nat) : List Leg :=
  match c with
  | .hello | .identity | .logRead | .eventRead => [.yes, .yes, .yes, .yes, .yes, .yes, .yes]
  | .fwBegin | .fwChunk | .fwCommit _ => [.yes, .no, .no, .no, .no, .no, .no]
  | .init _ | .hostWindow => [.no, .yes, .no, .no, .no, .no, .no]
  | .attest | .debugMode | .regRead | .regWrite | .snapTrigger | .snapRead | .snapRearm =>
    [.no, .yes, .yes, .yes, .yes, .yes, .yes]
  | .memGrant | .memRevoke | .calStatus => [.no, .no, .yes, .yes, .yes, .yes, .yes]
  | .sliceJoin => [.no, .no, .yes, .yes, .no, .no, .no]
  | .sliceLeave => [.no, .no, .no, .yes, .no, .no, .no]
  | .planLoad => if target = 0 then [.no, .no, .no, .yes, .idle, .idle, .no] else [.no, .no, .no, .yes, .yes, .yes, .no]
  | .programLoad | .configApply | .ctxRestore | .jobStart => [.no, .no, .no, .yes, .idle, .idle, .no]
  | .memMap => [.no, .no, .no, .yes, .yes, .yes, .no]
  | .jobStop => [.no, .no, .no, .no, .runs, .no, .runs]
  | .syncSet => [.no, .no, .no, .no, .yes, .yes, .yes]
  | .ctxSave => [.no, .no, .no, .no, .idle, .yes, .yes]
  | .recover => [.no, .no, .no, .no, .no, .yes, .quiet]

/-- Does a command name a live slot? CTX_SAVE and CTX_RESTORE name slots through their cores (DEDUCED, log entry 65). -/
def State.namesLive (s : State) (c : Cmd) (p : List Byte) : Bool :=
  match c with
  | .ctxSave | .ctxRestore =>
    (namedCores (slice p 0x10 1280)).any fun n => match s.ownerSlot (coreOfIdx n) with | some j => s.slotLive j | none => false
  | _ => s.slotLive (fieldAt p 0 1)

def State.markOk (s : State) (c : Cmd) (p : List Byte) : Leg → Bool
  | .no => false
  | .yes => true
  | .idle => !s.namesLive c p
  | .runs => !(s.runningOf (fieldAt p 0 2)).isEmpty
  | .quiet => !s.anyRunning

/-- Check 6: the module state, and for JOB_START the lock (R272). -/
def State.legal (s : State) (c : Cmd) (p : List Byte) : Bool :=
  s.markOk c p ((c.marks (fieldAt p 1 1)).getD (s.moduleState - 1) .no) && (c != .jobStart || s.lock == lockLocked)

/-- The slot that a WRONG_STATE entry names. -/
def Cmd.slotArg (c : Cmd) (p : List Byte) : Nat :=
  match c with
  | .planLoad | .programLoad | .configApply | .jobStart | .memMap => fieldAt p 0 1
  | _ => 0

/-! ## Checks 1 to 6 (R377) -/

def timeoutMax : Nat := 600000

/-- The version rule of R375: before the first agreement HELLO alone passes, and then IF_VERSION is the agreed version. -/
def State.versionWrong (s : State) (c : Cmd) (h : Handover) : Bool :=
  match s.foe.agreed with
  | some v => v != h.version.toNat
  | none => c != .hello

/-- The status of the first of checks 1 to 6 that fails. -/
def State.firstCheck (s : State) (c : Cmd) (h : Handover) : Option Status :=
  if 4096 < h.length.toNat then some .badArg
  else if s.versionWrong c h then some .versionMismatch
  else if !(spareOf h).isEmpty ∨ timeoutMax < h.timeout.toNat then some .badArg
  else if s.foe.fence ∧ !c.unfenced then some .fenced
  else if !s.legal c (reqBytes h) then some .wrongState
  else none

/-! ## Completion (R372, R377) -/

/-- The entries that a status other than OK logs; a command that Lookout ends also logs 0x0204 (R378). -/
def State.logStatus (s : State) (op slot : Nat) (st : Status) (detail : Nat) : State :=
  match st with
  | .ok => s
  | .wrongState => s.log .mbx 0x0202 2 [op, s.moduleState, slot]
  | _ =>
    let s := s.log .mbx 0x0203 2 [op, detail]
    if st = .busy ∧ detail = 0x0204 then s.log .mbx 0x0204 2 [op] else s

/-- The mailbox returns to the host, and its interrupt is signalled. -/
def State.giveBack (s : State) (n : Nat) (m : Mailbox) : State :=
  let s := s.setBox n { m with own := false }
  if m.irq then s.msix m.vector else s

/-- A command completes: response, RESULT_LENGTH, DETAIL, STATUS, then OWN. -/
def State.complete (s : State) (n op slot : Nat) (st : Status) (detail : Nat) (out : List Byte) : State :=
  let s := s.logStatus op slot st detail
  let m := s.box n
  s.giveBack n { m with payload := ssetMany payloadZero m.payload 0 out, resultLength := out.length, detail := detail, status := some st,
                        kept := some ⟨m.seq, op, st⟩ }

/-! ## Execution -/

/-- A command whose first six checks have passed. -/
def State.runCmd (s : State) (c : Cmd) (h : Handover) : Ran :=
  match c with
  | .hello => s.runHello h | .identity => s.runIdentity h | .fwBegin => s.runFwBegin h | .fwChunk => s.runFwChunk h
  | .fwCommit ok => s.runFwCommit h ok | .init r => s.runInit h r | .hostWindow => s.runHostWindow h
  | .sliceJoin => s.runSliceJoin h | .sliceLeave => s.runSliceLeave h | .planLoad => s.runPlanLoad h
  | .programLoad => s.runProgramLoad h | .configApply => s.runConfigApply h | .jobStart => s.runJobStart h
  | .jobStop => s.runJobStop h | .recover => s.runRecover h | .memMap => s.runMemMap h | .memGrant => s.runMemGrant h
  | .memRevoke => s.runMemRevoke h | .snapTrigger => s.runSnapTrigger h | .snapRead => s.runSnapRead h
  | .snapRearm => s.runSnapRearm h | .logRead => s.runLogRead h | .eventRead => s.runEventRead h
  | .debugMode => s.runDebugMode h | .regRead => s.runRegRead h | .regWrite => s.runRegWrite h
  | .syncSet => s.runSyncSet h | .ctxSave => s.runCtxSave h | .ctxRestore => s.runCtxRestore h
  | .calStatus => s.runCalStatus h | .attest => s.runAttest h

/-- A command begins: its checks, then its execution; one that would execute while a FORCE_STOP does ends BUSY (R378). -/
def State.beginCmd (s : State) (c : Cmd) (h : Handover) : Ran :=
  match s.firstCheck c h with
  | some st => .refused s st 0
  | none =>
    match s.runCmd c h with
    | .refused t st d => .refused t st d
    | r => if s.lko.forcing.isSome then .refused s .busy 0x0204 else r

/-- A command that waits is looked at again. -/
def State.resumeCmd (s : State) (w : Waiting) : Ran :=
  match w.cmd with
  | .jobStop => s.resumeJobStop w.count
  | .memMap => s.resumeMemMap w.h
  | .configApply => s.resumeConfig w.h w.step w.count
  | c => s.runCmd c w.h

/-- Put a command's end into its mailbox. -/
def State.closeCmd (s : State) (c : Cmd) (h : Handover) (st : Status) (detail : Nat) (out : List Byte) : State :=
  s.complete h.box.val c.opcode (c.slotArg (reqBytes h)) st detail out

def State.setWaiting (s : State) (l : List Waiting) : State := { s with foe := { s.foe with waiting := l } }

/-- Waiting commands execute one at a time in acceptance order, each as far as it can (R374). -/
def State.pumpBoxes : Nat → State → State
  | 0, s => s
  | n + 1, s =>
    match s.foe.waiting with
    | [] => s
    | w :: rest =>
      match (if w.began then s.resumeCmd w else s.beginCmd w.cmd w.h) with
      | .refused t st d => State.pumpBoxes n ((t.setWaiting rest).closeCmd w.cmd w.h st d [])
      | .done t st d out => State.pumpBoxes n ((t.setWaiting rest).closeCmd w.cmd w.h st d out)
      | .waits t step count =>
        t.setWaiting ({ w with began := true, since := if w.began then w.since else s.clock, step := step, count := count } :: rest)

/-- Let the waiting commands move on. -/
def State.advanceBoxes (s : State) : State := State.pumpBoxes s.foe.waiting.length s

/-- A command is accepted. Those that only read end at once, and so does any that is accepted while a FORCE_STOP executes
(R374, R378). -/
def State.accept (s : State) (c : Cmd) (h : Handover) : State :=
  if c.readOnly || s.lko.forcing.isSome then
    match s.beginCmd c h with
    | .refused t st d => t.closeCmd c h st d []
    | .done t st d out => t.closeCmd c h st d out
    | .waits t _ _ => t
  else (s.setWaiting (s.foe.waiting ++ [⟨c, h, false, 0, 0, 0⟩])).advanceBoxes

/-! ## Handover (R372, R373) -/

/-- The host's writes of payload and header, OWN last. -/
def Mailbox.handed (m : Mailbox) (op : Nat) (h : Handover) : Mailbox :=
  { m with own := true, warned := false, spare := spareOf h, opcode := op, status := none, seq := h.seq.toNat, irq := h.irq, vector := h.vector.val,
           version := h.version.toNat, length := h.length.toNat, timeout := h.timeout.toNat,
           payload := ssetMany payloadZero [] 0 (h.payload.take 4096) }

/-- A host write to a mailbox that the Forester owns is ignored, and logged once per command (R372). -/
def State.ownedWrite (s : State) (n : Nat) : State :=
  let m := s.box n
  if !m.own || m.warned then s else (s.setBox n { m with warned := true }).log .mbx 0x0201 2 [n]

/-- The status kept for a handover that repeats the last command of its mailbox (R373). -/
def Mailbox.replays (m : Mailbox) (op : Nat) (h : Handover) : Option Status :=
  match m.kept with
  | some k => if k.seq = h.seq.toNat ∧ k.opcode = op then some k.status else none
  | none => none

/-- A handover to a mailbox: refused while the Forester owns it, answered from the kept status if it is a replay, and
else given to `act`. In STANDBY there is no mailbox (R381). -/
def State.takeBox (s : State) (op : Nat) (h : Handover) (act : State → State) : State :=
  let n := h.box.val
  let m := s.box n
  if !s.mainOn then s
  else if m.own then s.ownedWrite n
  else
    let x := m.handed op h
    match m.replays op h with
    | some st => s.giveBack n { x with status := some st }
    | none => act (s.setBox n x)

/-- A handover of a listed command. -/
def State.mailbox (s : State) (c : Cmd) (h : Handover) : State := s.takeBox c.opcode h fun t => t.accept c h

/-! ## The rows -/

/-- HELLO (R375). -/
def execHello (h : Handover) (s : State) : Host.Outcome State Fault Refusal := .next (s.mailbox .hello h)
/-- IDENTITY (R379). -/
def execIdentity (h : Handover) (s : State) : Host.Outcome State Fault Refusal := .next (s.mailbox .identity h)
/-- FW_BEGIN (R380). -/
def execFwBegin (h : Handover) (s : State) : Host.Outcome State Fault Refusal := .next (s.mailbox .fwBegin h)
/-- FW_CHUNK (R380). -/
def execFwChunk (h : Handover) (s : State) : Host.Outcome State Fault Refusal := .next (s.mailbox .fwChunk h)
/-- FW_COMMIT (R380, R396): `flashOk` is whether the flash takes the records that the image carries. -/
def execFwCommit (h : Handover) (flashOk : Bool) (s : State) : Host.Outcome State Fault Refusal := .next (s.mailbox (.fwCommit flashOk) h)
/-- INIT (R380): `r` is what training and the self-test find. -/
def execInit (h : Handover) (r : InitResult) (s : State) : Host.Outcome State Fault Refusal := .next (s.mailbox (.init r) h)
/-- HOST_WINDOW (R370). -/
def execHostWindow (h : Handover) (s : State) : Host.Outcome State Fault Refusal := .next (s.mailbox .hostWindow h)
/-- SLICE_JOIN (R360, R361). -/
def execSliceJoin (h : Handover) (s : State) : Host.Outcome State Fault Refusal := .next (s.mailbox .sliceJoin h)
/-- SLICE_LEAVE (R379). -/
def execSliceLeave (h : Handover) (s : State) : Host.Outcome State Fault Refusal := .next (s.mailbox .sliceLeave h)
/-- PLAN_LOAD (R281, R282, R380). -/
def execPlanLoad (h : Handover) (s : State) : Host.Outcome State Fault Refusal := .next (s.mailbox .planLoad h)
/-- PROGRAM_LOAD (R380). -/
def execProgramLoad (h : Handover) (s : State) : Host.Outcome State Fault Refusal := .next (s.mailbox .programLoad h)
/-- CONFIG_APPLY (R380, R439). -/
def execConfigApply (h : Handover) (s : State) : Host.Outcome State Fault Refusal := .next (s.mailbox .configApply h)
/-- JOB_START (R272, R380). -/
def execJobStart (h : Handover) (s : State) : Host.Outcome State Fault Refusal := .next (s.mailbox .jobStart h)
/-- JOB_STOP (R363, R380). -/
def execJobStop (h : Handover) (s : State) : Host.Outcome State Fault Refusal := .next (s.mailbox .jobStop h)
/-- RECOVER (R380, R417). -/
def execRecover (h : Handover) (s : State) : Host.Outcome State Fault Refusal := .next (s.mailbox .recover h)
/-- MEM_MAP (R165). -/
def execMemMap (h : Handover) (s : State) : Host.Outcome State Fault Refusal := .next (s.mailbox .memMap h)
/-- MEM_GRANT (R379). -/
def execMemGrant (h : Handover) (s : State) : Host.Outcome State Fault Refusal := .next (s.mailbox .memGrant h)
/-- MEM_REVOKE (R379). -/
def execMemRevoke (h : Handover) (s : State) : Host.Outcome State Fault Refusal := .next (s.mailbox .memRevoke h)
/-- SNAP_TRIGGER (R416). -/
def execSnapTrigger (h : Handover) (s : State) : Host.Outcome State Fault Refusal := .next (s.mailbox .snapTrigger h)
/-- SNAP_READ (R417). -/
def execSnapRead (h : Handover) (s : State) : Host.Outcome State Fault Refusal := .next (s.mailbox .snapRead h)
/-- SNAP_REARM (R417). -/
def execSnapRearm (h : Handover) (s : State) : Host.Outcome State Fault Refusal := .next (s.mailbox .snapRearm h)
/-- LOG_READ (R424). -/
def execLogRead (h : Handover) (s : State) : Host.Outcome State Fault Refusal := .next (s.mailbox .logRead h)
/-- EVENT_READ (R383). -/
def execEventRead (h : Handover) (s : State) : Host.Outcome State Fault Refusal := .next (s.mailbox .eventRead h)
/-- DEBUG_MODE (R398). -/
def execDebugMode (h : Handover) (s : State) : Host.Outcome State Fault Refusal := .next (s.mailbox .debugMode h)
/-- REG_READ (R429). -/
def execRegRead (h : Handover) (s : State) : Host.Outcome State Fault Refusal := .next (s.mailbox .regRead h)
/-- REG_WRITE (R429). -/
def execRegWrite (h : Handover) (s : State) : Host.Outcome State Fault Refusal := .next (s.mailbox .regWrite h)
/-- SYNC_SET (R256). -/
def execSyncSet (h : Handover) (s : State) : Host.Outcome State Fault Refusal := .next (s.mailbox .syncSet h)
/-- CTX_SAVE (R454). -/
def execCtxSave (h : Handover) (s : State) : Host.Outcome State Fault Refusal := .next (s.mailbox .ctxSave h)
/-- CTX_RESTORE (R455 to R457). -/
def execCtxRestore (h : Handover) (s : State) : Host.Outcome State Fault Refusal := .next (s.mailbox .ctxRestore h)
/-- CAL_STATUS (R379). -/
def execCalStatus (h : Handover) (s : State) : Host.Outcome State Fault Refusal := .next (s.mailbox .calStatus h)
/-- ATTEST (R401). -/
def execAttest (h : Handover) (s : State) : Host.Outcome State Fault Refusal := .next (s.mailbox .attest h)

/-- A handover of an opcode that the catalogue does not list (R376, R377): checks 1 and 2. -/
def State.unlisted (s : State) (op : Nat) (h : Handover) : State :=
  s.takeBox op h fun t => t.complete h.box.val op 0 (if 4096 < h.length.toNat then .badArg else .unknownOpcode) 0 []

/-- MAILBOX_UNLISTED_OPCODE (R376, R377): an opcode of the catalogue is another row's command. -/
def execMailboxUnlistedOpcode (op : W16) (h : Handover) (s : State) : Host.Outcome State Fault Refusal :=
  .next (if opcodes.contains op.toNat then s else s.unlisted op.toNat h)

/-- MAILBOX_OWNED_WRITE (R372). -/
def execMailboxOwnedWrite (box : Fin 16) (s : State) : Host.Outcome State Fault Refusal :=
  .next (if s.mainOn then s.ownedWrite box.val else s)

/-! ## The control path as words (R368, R372) -/

/-- The command that an opcode names, with what its execution will find as free values (log entry 98). -/
def cmdOf (op v : Nat) : Option Cmd :=
  [Cmd.hello, .identity, .fwBegin, .fwChunk, .fwCommit (bit v 0),
   .init ⟨BitVec.ofNat 24 v, BitVec.ofNat 32 (v / 2 ^ 24), BitVec.ofNat 8 (v / 2 ^ 56)⟩,
   .hostWindow, .sliceJoin, .sliceLeave, .planLoad, .programLoad, .configApply, .jobStart, .jobStop, .recover, .memMap, .memGrant, .memRevoke,
   .snapTrigger, .snapRead, .snapRearm, .logRead, .eventRead, .debugMode, .regRead, .regWrite, .syncSet, .ctxSave, .ctxRestore, .calStatus,
   .attest].find? fun c => c.opcode == op

/-- What a mailbox hands over. -/
def Mailbox.handover (n : Fin 16) (m : Mailbox) : Handover :=
  { box := n, seq := BitVec.ofNat 32 m.seq, irq := m.irq, vector := Fin.ofNat 64 m.vector, version := BitVec.ofNat 16 m.version,
    length := BitVec.ofNat 32 m.length, timeout := BitVec.ofNat 32 m.timeout, reserved := m.spare,
    payload := sgetMany payloadZero m.payload 0 4096 }

/-- A handover of what a mailbox holds. -/
def State.handOverBox (s : State) (n : Fin 16) : State :=
  let m := s.box n.val
  match cmdOf m.opcode s.free with
  | some c => s.useFree.mailbox c (m.handover n)
  | none => s.unlisted m.opcode (m.handover n)

/-- A host write of the word at byte offset `o` of mailbox `n`: ignored while the Forester owns it, and a handover where it sets OWN
(R372). -/
def State.boxWrite (s : State) (n : Fin 16) (o v : Nat) : State :=
  if (s.box n.val).own then s.ownedWrite n.val
  else
    let s := s.setBox n.val ((s.box n.val).put o v)
    if o = 8 ∧ bit v 0 then s.handOverBox n else s

/-- REGISTER_WRITE (R432): an address not 4-byte aligned, or in no block, makes no access (R429), and neither does an access of
another size than 4 bytes (R368). A write to a mailbox is the host's. -/
def execRegisterWrite (addr : W32) (data : RegData) (s : State) : Host.Outcome State Fault Refusal :=
  .next (if addr.toNat % 4 ≠ 0 ∨ data.bytes ≠ 4 then s
    else withBlk addr (fun b o =>
      if b = .mbx ∧ 0x10000 ≤ o ∧ o < 0x30000 then
        (if s.mainOn then s.boxWrite (Fin.ofNat 16 ((o - 0x10000) / 0x2000)) ((o - 0x10000) % 0x2000) data.value.toNat else s)
      else s.writeReg b o data.value.toNat) s)

/-! ## The limit of a wait (R371, R377) -/

/-- The wait limit in beats; 0 selects 10,000 ms (R371). -/
def waitLimit (h : Handover) : Nat := (if h.timeout.toNat = 0 then 10000 else h.timeout.toNat) * beatsPerMs

/-- COMMAND_TIMEOUT (R377): the command that waits in a mailbox has waited longer than its limit; what it started goes on. -/
def execCommandTimeout (box : Fin 16) (s : State) : Host.Outcome State Fault Refusal :=
  .next (match s.foe.waiting with
    | w :: rest =>
      if w.began ∧ w.h.box = box ∧ w.since + waitLimit w.h < s.clock then
        ((s.setWaiting rest).closeCmd w.cmd w.h .timeout 0 []).advanceBoxes
      else s
    | [] => s)

/-! ## UCIe (R367, R369) -/

/-- UCIE_TRAIN (R367): how a UCIe module trained; 0x0211 where the rate or the width is reduced. -/
def execUcieTrain (m : Fin 16) (halfRate halfWidth : Bool) (s : State) : Host.Outcome State Fault Refusal :=
  .next (if !s.mainOn then s
    else
      let s := { s with foe := { s.foe with ucie := sset (fun _ => 0) s.foe.ucie m.val (1 + b2n halfRate * 2 + b2n halfWidth * 4) } }
      if halfRate ∨ halfWidth then s.log .mbx 0x0211 2 [m.val] else s)

/-- A message of a size and place that the bulk protocol carries, in a range with the right. -/
def State.bulkOk (s : State) (a n right : Nat) : Bool :=
  inRange n 64 4096 && n % 64 == 0 && a % 64 == 0 && s.allowed a n right

/-- An access outside the ranges: repeats in one frame merge (R369). -/
def State.bulkLog (s : State) (a read : Nat) : State := s.logAs .mbx 0x0210 2 [read, a % 2 ^ 32, a / 2 ^ 32] true

/-- BULK_WRITE (R369). -/
def execBulkWrite (addr : BitVec 48) (data : List Byte) (s : State) : Host.Outcome State Fault Refusal :=
  .next (if !s.mainOn then s
    else if s.bulkOk addr.toNat data.length 1 then s.outsideWrite addr.toNat data
    else s.bulkLog addr.toNat 0)

/-- What a bulk READ completes with: bytes that are lost are delivered as no data, with the error bit (R444). -/
def State.bulkData (s : State) (a n : Nat) (e : Ecc) : State :=
  let r := s.outsideRead [(a, n)] e
  r.1.emit (if r.2 then .bulkData a [] true else .bulkData a (r.1.readBytes a n) false)

/-- BULK_READ (R369). -/
def execBulkRead (addr : BitVec 48) (bytes : Nat) (found : Ecc) (s : State) : Host.Outcome State Fault Refusal :=
  .next (if !s.mainOn then s
    else if s.bulkOk addr.toNat bytes 0 then s.bulkData addr.toNat bytes found
    else (s.bulkLog addr.toNat 1).emit (.bulkData addr.toNat (zeros bytes) true))

end Sys2Proof.Machine
end

