-- ==== Sys2Proof/Machine/Lookout.lean ====
section
/-! DEFINITION. Lookout: its link and address (R403), requests, replays and responses (R404, R407), privileged requests
(R405), its commands (R406, R409) and the fence (R408); and FRAME_BOUNDARY, at which a FORCE_STOP and waiting host commands
end. -/
namespace Sys2Proof.Machine

/-! ## Addresses (R403) -/

def State.lkoUp (s : State) : Bool := s.standbyOn && s.flag .lko LKO_STATE 0

def State.lkoMac (s : State) : Nat := s.reg .lko LKO_MAC_LO + s.field .lko LKO_MAC_HI 0 16 * 2 ^ 32

/-- The port's link-local address: fe80::/64 with the modified EUI-64 identifier of its MAC address (R403). -/
def State.lkoAddress (s : State) : Nat :=
  let mac := s.lkoMac
  0xFE80 * 2 ^ 112 + Nat.xor (bits mac 24 24) 0x020000 * 2 ^ 40 + 0xFFFE * 2 ^ 24 + bits mac 0 24

/-- fe80::/10, the link-local addresses of RFC 4291 (PRESUMED, log entry 98). -/
def linkLocal (a : BitVec 128) : Bool := a.toNat / 2 ^ 118 == 0x3FA

/-- Does Lookout accept the datagram (R403)? -/
def State.lkoHears (s : State) (m : LkoMsg) : Bool :=
  m.dst.toNat == s.lkoAddress && m.dstPort == 47806 && m.hopLimit == 255 && linkLocal m.src && m.sumOk

/-- Is the header one of a request, of any version (R404)? One whose LENGTH is out of range is none (DEDUCED, log entry 80). -/
def isRequest (m : LkoMsg) : Bool := m.magic == 0x4B4F4C4C && m.kind == 1 && m.reserved == 0 && decide (m.payload.length ≤ 1024)

/-! ## Requests and responses (R404, R407) -/

/-- The request bytes, as a mailbox's. -/
def lkoReq (m : LkoMsg) : List Byte := padTo 4096 (m.payload.take 1024)

/-- A response leaves, carrying the nonce now current, and is kept (R405, R407). -/
def State.respond (s : State) (src port seq op : Nat) (st : Status) (detail : Nat) (out : List Byte) : State :=
  let s := if st = .busy then s.bump .lko LKO_CNT_BUSY else s
  { s with lko := { s.lko with kept := some ⟨src, port, seq, op, st, detail, out⟩ } }.emit
    (.lookout src port op seq st detail s.lko.nonce out)

def State.answer (s : State) (op : Nat) (m : LkoMsg) (st : Status) (detail : Nat) (out : List Byte) : State :=
  s.respond m.src.toNat m.port.toNat m.seq.toNat op st detail out

def LkoKept.isFor (k : LkoKept) (op : Nat) (m : LkoMsg) : Bool :=
  k.src == m.src.toNat && k.port == m.port.toNat && k.seq == m.seq.toNat && k.opcode == op

/-- A request that is no replay goes to `act`; a VERSION other than 1 is answered VERSION_MISMATCH; what is no request to
Lookout is dropped and counted. -/
def State.lkoTake (s : State) (op : Nat) (m : LkoMsg) (act : State → State) : State :=
  if !s.lkoUp then s
  else if !(s.lkoHears m && isRequest m) then s.bump .lko LKO_CNT_DROP
  else
    let s := { s with lko := { s.lko with lastSrc := m.src.toNat, lastSeq := m.seq.toNat, lastOp := op } }.bump .lko LKO_CNT_RX
    if m.version ≠ 1 then s.answer op m .versionMismatch 0 []
    else
      match s.lko.kept with
      | some k =>
        if k.isFor op m then
          (s.bump .lko LKO_CNT_REPLAY).emit (.lookout k.src k.port op k.seq k.status k.detail s.lko.nonce k.payload)
        else act s
      | none => act s

/-- The answer to an unprivileged request. -/
def answerRan (op : Nat) (m : LkoMsg) : Ran → State
  | .refused s st d => s.answer op m st d []
  | .done s st d out => s.answer op m st d out
  | .waits s _ _ => s

/-- An unprivileged request, legal where `ok` says so (R406). -/
def State.lkoAsk (s : State) (op : Nat) (m : LkoMsg) (ok : Bool) (run : State → Ran) : State :=
  s.lkoTake op m fun t => if ok then answerRan op m (run t) else t.answer op m .wrongState 0 []

/-! ## Privileged requests (R405) -/

/-- The header and payload that a signature covers. -/
def signedPart (op : Nat) (m : LkoMsg) : List Byte :=
  leBytes 4 m.magic.toNat ++ leBytes 1 m.version.toNat ++ leBytes 1 m.kind.toNat ++ leBytes 2 op ++ leBytes 4 m.seq.toNat ++
    leBytes 2 m.status.toNat ++ leBytes 2 m.payload.length ++ slice m.nonce 0 16 ++ leBytes 4 m.detail.toNat ++ leBytes 28 m.reserved.toNat ++
    m.payload

def State.authentic (s : State) (op : Nat) (m : LkoMsg) : Bool :=
  slice m.nonce 0 16 == s.lko.nonce &&
    (!s.operatorBound || match s.prov, m.signature with
      | some l, some sig => signedBy (slice l 0x40 32) (signedPart op m) sig
      | _, _ => false)

/-- The nonce is drawn afresh (R405); a random source that has failed leaves it as it is (R445). -/
def State.drawNonce (s : State) : State :=
  if s.flag .rng RNG_STATE 1 then s
  else
    let r := State.freeBytes 16 s
    { r.2 with lko := { r.2.lko with nonce := r.1 } }

/-- A privileged request has been executed: a fresh nonce, code 0x0111, and the LOOKOUT event (R405, R406). -/
def State.lkoExecuted (s : State) (op : Nat) : State := (s.drawNonce.log .lko 0x0111 1 [op]).hostEvent evLookout

/-- The answer to a privileged request that did not wait: executed unless a check failed or it found the buffer busy. -/
def answerPriv (op : Nat) (m : LkoMsg) : Ran → State
  | .refused s st d => s.answer op m st d []
  | .done s st d out => (if st = .busy then s else s.lkoExecuted op).answer op m st d out
  | .waits s _ _ => s

/-- A privileged request: the random source works (R445), nothing else executes (R407), it is authentic, and it is legal. -/
def State.lkoPriv (s : State) (op : Nat) (m : LkoMsg) (ok : Bool) (run : State → Ran) : State :=
  s.lkoTake op m fun t =>
    if t.flag .rng RNG_STATE 1 then t.answer op m .notPermitted 0x0150 []
    else if t.lko.forcing.isSome then t.answer op m .busy 0 []
    else if !t.authentic op m then ((t.log .lko 0x0110 2 [op]).bump .lko LKO_CNT_AUTH).answer op m .notPermitted 0x0110 []
    else if !ok then t.answer op m .wrongState 0 []
    else answerPriv op m (run t)

/-! ## Unprivileged commands (R406) -/

def State.statusBytes (s : State) : List Byte :=
  leBytes 1 s.moduleState ++ leBytes 1 (b2n s.foe.fence) ++ leBytes 1 (b2n s.mainOn) ++ leBytes 1 s.foe.prov ++ leBytes 4 s.fwVersion ++
    leBytes 4 (s.reg .fo FOR_MIN_VERSION) ++ leBytes 4 0 ++ leBytes 8 s.beat ++ leBytes 8 (s.provField 0x10 8) ++ leBytes 2 s.runningMask

/-- LOOKOUT_STATUS (R406). -/
def execLookoutStatus (m : LkoMsg) (s : State) : Host.Outcome State Fault Refusal :=
  .next (s.lkoAsk 0x0001 m true fun t => if onlyNamed (lkoReq m) [] then t.good t.statusBytes else t.bad)

/-- LOOKOUT_IDENTITY (R406). -/
def execLookoutIdentity (m : LkoMsg) (s : State) : Host.Outcome State Fault Refusal :=
  .next (s.lkoAsk 0x0002 m true fun t => if onlyNamed (lkoReq m) [] then t.good t.identityBytes else t.bad)

/-- LOOKOUT_LOG_READ (R406, R424). -/
def execLookoutLogRead (m : LkoMsg) (s : State) : Host.Outcome State Fault Refusal :=
  .next (s.lkoAsk 0x0010 m true fun t => t.logRead (lkoReq m) 31)

/-- LOOKOUT_SNAP_READ (R406, R417). -/
def execLookoutSnapRead (m : LkoMsg) (s : State) : Host.Outcome State Fault Refusal :=
  .next (s.lkoAsk 0x0011 m s.mainOn fun t => t.snapRead (lkoReq m) 4)

/-- Does a REG_READ name an address of the main domain? -/
def namesMain (p : List Byte) : Bool :=
  (upFrom 0 (min 254 (fieldAt p 0 4))).any fun i =>
    match namedBlk (fieldAt p (8 + 4 * i) 4) with
    | some (b, _) => !b.standby
    | none => false

/-- LOOKOUT_REG_READ (R406). -/
def execLookoutRegRead (m : LkoMsg) (s : State) : Host.Outcome State Fault Refusal :=
  .next (s.lkoAsk 0x0012 m (s.mainOn || !namesMain (lkoReq m)) fun t => t.regRead (lkoReq m) 254)

/-- LOOKOUT_ATTEST (R401, R406). -/
def execLookoutAttest (m : LkoMsg) (s : State) : Host.Outcome State Fault Refusal :=
  .next (s.lkoAsk 0x0013 m true fun t => t.attest (lkoReq m))

/-! ## The power and stop class (R378, R409) -/

/-- Has a waiting host command written a register or memory outside its mailbox (R378)? A JOB_STOP that waits has only latched its
stops. -/
def Waiting.committed (w : Waiting) : Bool := w.began && w.cmd != .jobStop

/-- An accepted host command that has not committed ends BUSY, with no effect (R378). -/
def State.endCmd (s : State) (w : Waiting) : State :=
  let s := if w.began then (jobSlots.filter fun j => bit w.count j).foldl State.withdrawStop s else s
  s.closeCmd w.cmd w.h .busy 0x0204 []

/-- Every accepted host command that has not committed ends BUSY (R378). -/
def State.endUncommitted (s : State) : State :=
  let l := s.foe.waiting.filter fun w => !w.committed
  l.foldl State.endCmd (s.setWaiting (s.foe.waiting.filter (·.committed)))

/-- FORCE_STOP (R406): the named running jobs stop at the next frame boundary; with none of them running it answers at once,
and STOP_FRAME is then a free value. -/
def State.forceStop (s : State) (m : LkoMsg) : Ran :=
  let p := lkoReq m
  let l := s.runningOf (fieldAt p 0 2)
  if !onlyNamed p [(0, 2)] then s.bad
  else
    let s := s.endUncommitted
    if l.isEmpty then s.useFree.good (leBytes 4 0 ++ leBytes 4 s.free)
    else
      .waits (l.foldl (State.latchStop .lookout)
        { s with lko := { s.lko with forcing := some ⟨m.src.toNat, m.port.toNat, m.seq.toNat, l⟩ } }) 0 0

/-- FORCE_STOP (R409). -/
def execForceStop (m : LkoMsg) (s : State) : Host.Outcome State Fault Refusal :=
  .next (s.lkoPriv 0x0020 m s.mainOn fun t => t.forceStop m)

/-- A FORCE_STOP ends once its jobs have stopped. -/
def State.finishForce (s : State) : State :=
  match s.lko.forcing with
  | some f =>
    if (s.runningOf (maskOf f.slots)).isEmpty then
      let s := { s with lko := { s.lko with forcing := none } }.lkoExecuted 0x0020
      s.respond f.src f.port f.seq 0x0020 .ok 0 (leBytes 4 (maskOf f.slots) ++ leBytes 4 s.frame)
    else s
  | none => s

/-- The main domain goes down on command: R409, the roll-up of R425, R463. -/
def State.commandedDown (s : State) : State := s.endUncommitted.rollRefresh.powerDown

def noPayload (m : LkoMsg) : Bool := onlyNamed (lkoReq m) []

/-- LOOKOUT_POWER_OFF (R406, R463): the main domain stays off. -/
def execLookoutPowerOff (m : LkoMsg) (s : State) : Host.Outcome State Fault Refusal :=
  .next (s.lkoPriv 0x0021 m s.mainOn fun t =>
    if noPayload m then
      let t := t.commandedDown
      { t with foe := { t.foe with heldOff := true } }.good
    else t.bad)

/-- The power-up sequence runs if its inputs hold; otherwise the module stays in STANDBY (R462). -/
def State.tryUp (s : State) (i : SupplyInputs) : State :=
  let s := { s with foe := { s.foe with heldOff := false } }
  if inputsOk i then s.powerSequence i else s

/-- LOOKOUT_POWER_ON (R406, R462). -/
def execLookoutPowerOn (m : LkoMsg) (i : SupplyInputs) (s : State) : Host.Outcome State Fault Refusal :=
  .next (s.lkoPriv 0x0022 m (!s.mainOn) fun t => if noPayload m then (t.tryUp i).good else t.bad)

/-- LOOKOUT_POWER_CYCLE (R406, R462, R463). -/
def execLookoutPowerCycle (m : LkoMsg) (i : SupplyInputs) (s : State) : Host.Outcome State Fault Refusal :=
  .next (s.lkoPriv 0x0023 m s.mainOn fun t => if noPayload m then (t.commandedDown.tryUp i).good else t.bad)

/-! ## The fence and firmware (R406, R408) -/

/-- LOOKOUT_FENCE (R408). -/
def execLookoutFence (m : LkoMsg) (s : State) : Host.Outcome State Fault Refusal :=
  let p := lkoReq m
  .next (s.lkoPriv 0x0024 m true fun t =>
    if !onlyNamed p [(0, 1)] ∨ 1 < fieldAt p 0 1 then t.bad
    else ({ t with foe := { t.foe with fence := fieldAt p 0 1 == 1 } }.log .lko 0x0112 1 [fieldAt p 0 1]).good)

def State.inRom (s : State) : Bool := s.mainOn && s.foe.stage == .rom

/-- LOOKOUT_FW_BEGIN (R394, R406). -/
def execLookoutFwBegin (m : LkoMsg) (s : State) : Host.Outcome State Fault Refusal :=
  let p := lkoReq m
  .next (s.lkoPriv 0x0030 m s.inRom fun t =>
    if !onlyNamed p [(0, 4)] ∨ !inRange (fieldAt p 0 4) 1 16777216 then t.bad else finish (t.openImage true (fieldAt p 0 4)))

/-- LOOKOUT_FW_CHUNK (R394, R406). -/
def execLookoutFwChunk (m : LkoMsg) (s : State) : Host.Outcome State Fault Refusal :=
  let p := lkoReq m
  let n := fieldAt p 4 4
  .next (s.lkoPriv 0x0031 m s.inRom fun t =>
    if !inRange n 1 1016 ∨ !onlyNamed p [(0, 8 + n)] then t.bad else finish (t.writeImage true (fieldAt p 0 4) (slice p 8 n)))

/-- LOOKOUT_FW_COMMIT (R396, R397, R406). -/
def execLookoutFwCommit (m : LkoMsg) (flashOk : Bool) (s : State) : Host.Outcome State Fault Refusal :=
  .next (s.lkoPriv 0x0032 m s.inRom fun t =>
    if noPayload m then
      let r := t.commitImage true flashOk
      match r.2.1 with
      | .ok => r.1.good (leBytes 4 r.2.2.2)
      | .badArg => r.1.bad
      | st => .done r.1 st r.2.2.1 []
    else t.bad)

/-! ## The link and other frames (R403, R404, R411) -/

def lkoOpcodes : List Nat := [1, 2, 0x10, 0x11, 0x12, 0x13, 0x20, 0x21, 0x22, 0x23, 0x24, 0x30, 0x31, 0x32]

/-- LOOKOUT_UNLISTED_OPCODE (R404). -/
def execLookoutUnlistedOpcode (op : W16) (m : LkoMsg) (s : State) : Host.Outcome State Fault Refusal :=
  .next (if lkoOpcodes.contains op.toNat ∧ m.version = 1 ∧ isRequest m then s
    else s.lkoTake op.toNat m fun t => t.answer op.toNat m .unknownOpcode 0 [])

/-- LOOKOUT_FRAME_DROPPED (R403, R404): a frame that carries no message to Lookout; messages that fail the checks are the commands'
own (State.lkoTake). -/
def execLookoutFrameDropped (s : State) : Host.Outcome State Fault Refusal :=
  .next (if s.lkoUp then s.bump .lko LKO_CNT_DROP else s)

/-- LOOKOUT_LINK_CHANGE (R411). -/
def execLookoutLinkChange (up : Bool) (s : State) : Host.Outcome State Fault Refusal :=
  .next (if s.standbyOn then s.setField .lko LKO_STATE 0 1 (b2n up) else s)

/-- NEIGHBOUR_SOLICITATION (R403). -/
def execNeighbourSolicitation (src target : BitVec 128) (s : State) : Host.Outcome State Fault Refusal :=
  .next (if !s.lkoUp then s
    else if target.toNat = s.lkoAddress then s.emit (.neighbour src.toNat target.toNat s.lkoMac)
    else s.bump .lko LKO_CNT_DROP)

/-! ## The frame boundary -/

/-- FRAME_BOUNDARY (R273, R275): what takes effect there, then what has waited for it. -/
def execFrameBoundary (s : State) : Host.Outcome State Fault Refusal :=
  .next s.frameBoundary.finishForce.advanceBoxes

end Sys2Proof.Machine
end

