-- ==== Sys2Proof/Machine/Dispatch.lean ====
section
/-! DEFINITION. Dispatch: one arm per command, each a direct call of its meaning. -/
namespace Sys2Proof.Machine

def exec (i : Instr) (s : State) : Host.Outcome State Fault Refusal :=
  match i with
  | .scalarAlu k f => Sys2Proof.Machine.execScalarAlu k f s
  | .load k rd size place ecc => Sys2Proof.Machine.execLoad k rd size place ecc s
  | .jobLoadReturn k slot err => Sys2Proof.Machine.execJobLoadReturn k slot err s
  | .store k rs size place => Sys2Proof.Machine.execStore k rs size place s
  | .lrd k rt ra imm => Sys2Proof.Machine.execLrd k rt ra imm s
  | .lwr k rt ra imm => Sys2Proof.Machine.execLwr k rt ra imm s
  | .branch k onZero r target => Sys2Proof.Machine.execBranch k onZero r target s
  | .jump k target => Sys2Proof.Machine.execJump k target s
  | .jumpAndLink k rd target => Sys2Proof.Machine.execJumpAndLink k rd target s
  | .fence k => Sys2Proof.Machine.execFence k s
  | .markFrame k => Sys2Proof.Machine.execMarkFrame k s
  | .markStep k => Sys2Proof.Machine.execMarkStep k s
  | .halt k => Sys2Proof.Machine.execHalt k s
  | .dmaIssue k off => Sys2Proof.Machine.execDmaIssue k off s
  | .dmaDone k idx found => Sys2Proof.Machine.execDmaDone k idx found s
  | .mbegin k group kind unnamed => Sys2Proof.Machine.execMbegin k group kind unnamed s
  | .macc k group rs imm unnamed ecc => Sys2Proof.Machine.execMacc k group rs imm unnamed ecc s
  | .mend k group rs imm unnamed => Sys2Proof.Machine.execMend k group rs imm unnamed s
  | .mabort k group unnamed => Sys2Proof.Machine.execMabort k group unnamed s
  | .mqcfg k rs unnamed => Sys2Proof.Machine.execMqcfg k rs unnamed s
  | .mqset k rs unnamed => Sys2Proof.Machine.execMqset k rs unnamed s
  | .mtake k rd unnamed => Sys2Proof.Machine.execMtake k rd unnamed s
  | .msteal k rd unnamed => Sys2Proof.Machine.execMsteal k rd unnamed s
  | .vadd k x => Sys2Proof.Machine.execVadd k x s
  | .vsub k x => Sys2Proof.Machine.execVsub k x s
  | .vmul k x => Sys2Proof.Machine.execVmul k x s
  | .vfma k x => Sys2Proof.Machine.execVfma k x s
  | .vmin k x => Sys2Proof.Machine.execVmin k x s
  | .vmax k x => Sys2Proof.Machine.execVmax k x s
  | .vdiv k x => Sys2Proof.Machine.execVdiv k x s
  | .vsqrt k x => Sys2Proof.Machine.execVsqrt k x s
  | .vrcp k x => Sys2Proof.Machine.execVrcp k x s
  | .vexp k x => Sys2Proof.Machine.execVexp k x s
  | .vlog k x => Sys2Proof.Machine.execVlog k x s
  | .vtanh k x => Sys2Proof.Machine.execVtanh k x s
  | .vsigm k x => Sys2Proof.Machine.execVsigm k x s
  | .vabs k x => Sys2Proof.Machine.execVabs k x s
  | .vneg k x => Sys2Proof.Machine.execVneg k x s
  | .vcmpeq k x => Sys2Proof.Machine.execVcmpeq k x s
  | .vcmplt k x => Sys2Proof.Machine.execVcmplt k x s
  | .vcmple k x => Sys2Proof.Machine.execVcmple k x s
  | .vcmpne k x => Sys2Proof.Machine.execVcmpne k x s
  | .vsel k x => Sys2Proof.Machine.execVsel k x s
  | .vand k x => Sys2Proof.Machine.execVand k x s
  | .vor k x => Sys2Proof.Machine.execVor k x s
  | .vxor k x => Sys2Proof.Machine.execVxor k x s
  | .vshl k x => Sys2Proof.Machine.execVshl k x s
  | .vshr k x => Sys2Proof.Machine.execVshr k x s
  | .vmov k x => Sys2Proof.Machine.execVmov k x s
  | .vldexp k x => Sys2Proof.Machine.execVldexp k x s
  | .vresadd k x => Sys2Proof.Machine.execVresadd k x s
  | .vupd k x => Sys2Proof.Machine.execVupd k x s
  | .vcvtw k x => Sys2Proof.Machine.execVcvtw k x s
  | .vcvtn k x => Sys2Proof.Machine.execVcvtn k x s
  | .vcvts k x => Sys2Proof.Machine.execVcvts k x s
  | .vbern k x => Sys2Proof.Machine.execVbern k x s
  | .vperm k x => Sys2Proof.Machine.execVperm k x s
  | .vrsum k x => Sys2Proof.Machine.execVrsum k x s
  | .vrssq k x => Sys2Proof.Machine.execVrssq k x s
  | .vrmax k x => Sys2Proof.Machine.execVrmax k x s
  | .vrmin k x => Sys2Proof.Machine.execVrmin k x s
  | .vrcnt k x => Sys2Proof.Machine.execVrcnt k x s
  | .vmv k x => Sys2Proof.Machine.execVmv k x s
  | .vmvcomb k x => Sys2Proof.Machine.execVmvcomb k x s
  | .vsmstat k x => Sys2Proof.Machine.execVsmstat k x s
  | .vsmmerge k x => Sys2Proof.Machine.execVsmmerge k x s
  | .vsmexp k x => Sys2Proof.Machine.execVsmexp k x s
  | .vsmnorm k x => Sys2Proof.Machine.execVsmnorm k x s
  | .vld k vd rs rt imm ecc => Sys2Proof.Machine.execVld k vd rs rt imm ecc s
  | .vst k vs rs rt imm => Sys2Proof.Machine.execVst k vs rs rt imm s
  | .vcfg k rd rs func unnamed => Sys2Proof.Machine.execVcfg k rd rs func unnamed s
  | .vsum k rd va func unnamed => Sys2Proof.Machine.execVsum k rd va func unnamed s
  | .smcfg k rs unnamed => Sys2Proof.Machine.execSmcfg k rs unnamed s
  | .smread k rd rs unnamed => Sys2Proof.Machine.execSmread k rd rs unnamed s
  | .smcommit k rs rt unnamed => Sys2Proof.Machine.execSmcommit k rs rt unnamed s
  | .vrngset k rs unnamed => Sys2Proof.Machine.execVrngset k rs unnamed s
  | .ssig k q core obj rs reg amount => Sys2Proof.Machine.execSsig k q core obj rs reg amount s
  | .swait k q obj rs reg thresh unnamed => Sys2Proof.Machine.execSwait k q obj rs reg thresh unnamed s
  | .sdec k obj rs unnamed => Sys2Proof.Machine.execSdec k obj rs unnamed s
  | .sread k rd obj unnamed => Sys2Proof.Machine.execSread k rd obj unnamed s
  | .syncWatchdog k waiter => Sys2Proof.Machine.execSyncWatchdog k waiter s
  | .barr k bar unnamed => Sys2Proof.Machine.execBarr k bar unnamed s
  | .bwait k bar unnamed => Sys2Proof.Machine.execBwait k bar unnamed s
  | .bsync k bar unnamed => Sys2Proof.Machine.execBsync k bar unnamed s
  | .barrierTimeout k => Sys2Proof.Machine.execBarrierTimeout k s
  | .cruQueueHiWrite c v => Sys2Proof.Machine.execCruQueueHiWrite c v s
  | .cruiseDescriptorStart c => Sys2Proof.Machine.execCruiseDescriptorStart c s
  | .adjacencyFetchDone c slot found => Sys2Proof.Machine.execAdjacencyFetchDone c slot found s
  | .cruiseBatchReceive c => Sys2Proof.Machine.execCruiseBatchReceive c s
  | .cruiseReplyReceive c => Sys2Proof.Machine.execCruiseReplyReceive c s
  | .cruEnable c => Sys2Proof.Machine.execCruEnable c s
  | .cruDisable c => Sys2Proof.Machine.execCruDisable c s
  | .skdQueueHiWrite c v => Sys2Proof.Machine.execSkdQueueHiWrite c v s
  | .haulDescriptorStart c => Sys2Proof.Machine.execHaulDescriptorStart c s
  | .trailSpaceAllocate c => Sys2Proof.Machine.execTrailSpaceAllocate c s
  | .trailSpaceTimeout c => Sys2Proof.Machine.execTrailSpaceTimeout c s
  | .pageAccessDone c idx found pooled => Sys2Proof.Machine.execPageAccessDone c idx found pooled s
  | .rowReadRestart c idx => Sys2Proof.Machine.execRowReadRestart c idx s
  | .haulReceive c => Sys2Proof.Machine.execHaulReceive c s
  | .haulReplyReceive c => Sys2Proof.Machine.execHaulReplyReceive c s
  | .skdEnable c => Sys2Proof.Machine.execSkdEnable c s
  | .skdDisable c => Sys2Proof.Machine.execSkdDisable c s
  | .silQueueHiWrite c v => Sys2Proof.Machine.execSilQueueHiWrite c v s
  | .retraceStart c ecc => Sys2Proof.Machine.execRetraceStart c ecc s
  | .returnBatchReceive c => Sys2Proof.Machine.execReturnBatchReceive c s
  | .stepClose job step => Sys2Proof.Machine.execStepClose job step s
  | .silApplyDoneWrite c slot v => Sys2Proof.Machine.execSilApplyDoneWrite c slot v s
  | .silParkHiWrite c v => Sys2Proof.Machine.execSilParkHiWrite c v s
  | .silAdoptHiWrite c v => Sys2Proof.Machine.execSilAdoptHiWrite c v s
  | .silEnable c => Sys2Proof.Machine.execSilEnable c s
  | .silDisable c => Sys2Proof.Machine.execSilDisable c s
  | .corEnable k => Sys2Proof.Machine.execCorEnable k s
  | .corDisable k => Sys2Proof.Machine.execCorDisable k s
  | .cchDisable c => Sys2Proof.Machine.execCchDisable c s
  | .timeWordSend q frac => Sys2Proof.Machine.execTimeWordSend q frac s
  | .timeWordReceive q w => Sys2Proof.Machine.execTimeWordReceive q w s
  | .holdoverEntry => Sys2Proof.Machine.execHoldoverEntry s
  | .holdoverLimit => Sys2Proof.Machine.execHoldoverLimit s
  | .ftbBeatPreset lo hi => Sys2Proof.Machine.execFtbBeatPreset lo hi s
  | .frameBoundary => Sys2Proof.Machine.execFrameBoundary s
  | .checkBeat => Sys2Proof.Machine.execCheckBeat s
  | .slipTokenReceive q w => Sys2Proof.Machine.execSlipTokenReceive q w s
  | .planSend j t idx found => Sys2Proof.Machine.execPlanSend j t idx found s
  | .windowOpen j t idx => Sys2Proof.Machine.execWindowOpen j t idx s
  | .packetInject t => Sys2Proof.Machine.execPacketInject t s
  | .packetReceive a => Sys2Proof.Machine.execPacketReceive a s
  | .ackReceive t => Sys2Proof.Machine.execAckReceive t s
  | .nackReceive t => Sys2Proof.Machine.execNackReceive t s
  | .gapTimerExpiry t idx => Sys2Proof.Machine.execGapTimerExpiry t idx s
  | .ackTimerExpiry t idx => Sys2Proof.Machine.execAckTimerExpiry t idx s
  | .tilEnable t => Sys2Proof.Machine.execTilEnable t s
  | .tilDisable t => Sys2Proof.Machine.execTilDisable t s
  | .reduceLocalRead j t idx found => Sys2Proof.Machine.execReduceLocalRead j t idx found s
  | .reducePacketReceive t => Sys2Proof.Machine.execReducePacketReceive t s
  | .lndSlotWrite t j v => Sys2Proof.Machine.execLndSlotWrite t j v s
  | .lndEnable t => Sys2Proof.Machine.execLndEnable t s
  | .lndDisable t => Sys2Proof.Machine.execLndDisable t s
  | .optEnable q fed => Sys2Proof.Machine.execOptEnable q fed s
  | .optDisable q => Sys2Proof.Machine.execOptDisable q s
  | .hailFrameSend q => Sys2Proof.Machine.execHailFrameSend q s
  | .hailDwell q => Sys2Proof.Machine.execHailDwell q s
  | .hailSilent q => Sys2Proof.Machine.execHailSilent q s
  | .hailFrameReceive q raw lockable => Sys2Proof.Machine.execHailFrameReceive q raw lockable s
  | .trialEnd q uncorrectable counts codewords => Sys2Proof.Machine.execTrialEnd q uncorrectable counts codewords s
  | .modeSwitch q => Sys2Proof.Machine.execModeSwitch q s
  | .hailRetry q => Sys2Proof.Machine.execHailRetry q s
  | .calibrationDither q readings => Sys2Proof.Machine.execCalibrationDither q readings s
  | .lightLoss q wls => Sys2Proof.Machine.execLightLoss q wls s
  | .lightReturn q wls => Sys2Proof.Machine.execLightReturn q wls s
  | .darkTimeout q => Sys2Proof.Machine.execDarkTimeout q s
  | .feedLow q k => Sys2Proof.Machine.execFeedLow q k s
  | .wavelengthLost q k => Sys2Proof.Machine.execWavelengthLost q k s
  | .marginLoss q => Sys2Proof.Machine.execMarginLoss q s
  | .lockReportReceive q kind report damaged => Sys2Proof.Machine.execLockReportReceive q kind report damaged s
  | .downgradeTimeout q => Sys2Proof.Machine.execDowngradeTimeout q s
  | .downgradeSwitch q => Sys2Proof.Machine.execDowngradeSwitch q s
  | .capacityWordReceive q w => Sys2Proof.Machine.execCapacityWordReceive q w s
  | .upgradeRequest q => Sys2Proof.Machine.execUpgradeRequest q s
  | .svcTxTailWrite q v => Sys2Proof.Machine.execSvcTxTailWrite q v s
  | .svcRxTailWrite q v => Sys2Proof.Machine.execSvcRxTailWrite q v s
  | .svcFrameSent q => Sys2Proof.Machine.execSvcFrameSent q s
  | .svcFrameReceive q bytes fcsOk => Sys2Proof.Machine.execSvcFrameReceive q bytes fcsOk s
  | .ucieTrain m halfRate halfWidth => Sys2Proof.Machine.execUcieTrain m halfRate halfWidth s
  | .bulkWrite addr data => Sys2Proof.Machine.execBulkWrite addr data s
  | .bulkRead addr bytes found => Sys2Proof.Machine.execBulkRead addr bytes found s
  | .mailboxOwnedWrite box => Sys2Proof.Machine.execMailboxOwnedWrite box s
  | .commandTimeout box => Sys2Proof.Machine.execCommandTimeout box s
  | .hello h => Sys2Proof.Machine.execHello h s
  | .identity h => Sys2Proof.Machine.execIdentity h s
  | .fwBegin h => Sys2Proof.Machine.execFwBegin h s
  | .fwChunk h => Sys2Proof.Machine.execFwChunk h s
  | .fwCommit h flashOk => Sys2Proof.Machine.execFwCommit h flashOk s
  | .init h r => Sys2Proof.Machine.execInit h r s
  | .hostWindow h => Sys2Proof.Machine.execHostWindow h s
  | .sliceJoin h => Sys2Proof.Machine.execSliceJoin h s
  | .sliceLeave h => Sys2Proof.Machine.execSliceLeave h s
  | .planLoad h => Sys2Proof.Machine.execPlanLoad h s
  | .programLoad h => Sys2Proof.Machine.execProgramLoad h s
  | .configApply h => Sys2Proof.Machine.execConfigApply h s
  | .jobStart h => Sys2Proof.Machine.execJobStart h s
  | .jobStop h => Sys2Proof.Machine.execJobStop h s
  | .recover h => Sys2Proof.Machine.execRecover h s
  | .memMap h => Sys2Proof.Machine.execMemMap h s
  | .memGrant h => Sys2Proof.Machine.execMemGrant h s
  | .memRevoke h => Sys2Proof.Machine.execMemRevoke h s
  | .snapTrigger h => Sys2Proof.Machine.execSnapTrigger h s
  | .snapRead h => Sys2Proof.Machine.execSnapRead h s
  | .snapRearm h => Sys2Proof.Machine.execSnapRearm h s
  | .logRead h => Sys2Proof.Machine.execLogRead h s
  | .eventRead h => Sys2Proof.Machine.execEventRead h s
  | .debugMode h => Sys2Proof.Machine.execDebugMode h s
  | .regRead h => Sys2Proof.Machine.execRegRead h s
  | .regWrite h => Sys2Proof.Machine.execRegWrite h s
  | .syncSet h => Sys2Proof.Machine.execSyncSet h s
  | .ctxSave h => Sys2Proof.Machine.execCtxSave h s
  | .ctxRestore h => Sys2Proof.Machine.execCtxRestore h s
  | .calStatus h => Sys2Proof.Machine.execCalStatus h s
  | .attest h => Sys2Proof.Machine.execAttest h s
  | .standbyPowerUp => Sys2Proof.Machine.execStandbyPowerUp s
  | .standbyPowerLoss => Sys2Proof.Machine.execStandbyPowerLoss s
  | .mainPowerUp inputs => Sys2Proof.Machine.execMainPowerUp inputs s
  | .mainDomainReset => Sys2Proof.Machine.execMainDomainReset s
  | .supplyTrip w => Sys2Proof.Machine.execSupplyTrip w s
  | .sensorEvaluation r => Sys2Proof.Machine.execSensorEvaluation r s
  | .thermalTrip => Sys2Proof.Machine.execThermalTrip s
  | .imageBufferIdle => Sys2Proof.Machine.execImageBufferIdle s
  | .neighbourSolicitation src target => Sys2Proof.Machine.execNeighbourSolicitation src target s
  | .lookoutStatus m => Sys2Proof.Machine.execLookoutStatus m s
  | .lookoutIdentity m => Sys2Proof.Machine.execLookoutIdentity m s
  | .lookoutLogRead m => Sys2Proof.Machine.execLookoutLogRead m s
  | .lookoutSnapRead m => Sys2Proof.Machine.execLookoutSnapRead m s
  | .lookoutRegRead m => Sys2Proof.Machine.execLookoutRegRead m s
  | .lookoutAttest m => Sys2Proof.Machine.execLookoutAttest m s
  | .forceStop m => Sys2Proof.Machine.execForceStop m s
  | .lookoutPowerOff m => Sys2Proof.Machine.execLookoutPowerOff m s
  | .lookoutPowerOn m inputs => Sys2Proof.Machine.execLookoutPowerOn m inputs s
  | .lookoutPowerCycle m inputs => Sys2Proof.Machine.execLookoutPowerCycle m inputs s
  | .lookoutFence m => Sys2Proof.Machine.execLookoutFence m s
  | .lookoutFwBegin m => Sys2Proof.Machine.execLookoutFwBegin m s
  | .lookoutFwChunk m => Sys2Proof.Machine.execLookoutFwChunk m s
  | .lookoutFwCommit m flashOk => Sys2Proof.Machine.execLookoutFwCommit m flashOk s
  | .blazeMatch => Sys2Proof.Machine.execBlazeMatch s
  | .tallyEntryAccept => Sys2Proof.Machine.execTallyEntryAccept s
  | .tallyDiscardReport => Sys2Proof.Machine.execTallyDiscardReport s
  | .rollupRefresh => Sys2Proof.Machine.execRollupRefresh s
  | .cfgCrcCompare addr damage => Sys2Proof.Machine.execCfgCrcCompare addr damage s
  | .postedWriteEffect addr => Sys2Proof.Machine.execPostedWriteEffect addr s
  | .blkEnable addr => Sys2Proof.Machine.execBlkEnable addr s
  | .blkDisable addr => Sys2Proof.Machine.execBlkDisable addr s
  | .snapArmWrite addr on => Sys2Proof.Machine.execSnapArmWrite addr on s
  | .registerWrite addr data => Sys2Proof.Machine.execRegisterWrite addr data s
  | .patrolScrub m addr r => Sys2Proof.Machine.execPatrolScrub m addr r s
  | .rngHealthFail => Sys2Proof.Machine.execRngHealthFail s
  | .planExpect j t idx => Sys2Proof.Machine.execPlanExpect j t idx s
  | .jobStorePerformed k slot => Sys2Proof.Machine.execJobStorePerformed k slot s
  | .prefetchFill k slot => Sys2Proof.Machine.execPrefetchFill k slot s
  | .dmaPageFault k idx => Sys2Proof.Machine.execDmaPageFault k idx s
  | .creditReturn m lane => Sys2Proof.Machine.execCreditReturn m lane s
  | .calibrationLost q k => Sys2Proof.Machine.execCalibrationLost q k s
  | .lockReportRepeat q => Sys2Proof.Machine.execLockReportRepeat q s
  | .alignedIntervalBoundary => Sys2Proof.Machine.execAlignedIntervalBoundary s
  | .mailboxUnlistedOpcode op h => Sys2Proof.Machine.execMailboxUnlistedOpcode op h s
  | .lookoutUnlistedOpcode op m => Sys2Proof.Machine.execLookoutUnlistedOpcode op m s
  | .lookoutFrameDropped => Sys2Proof.Machine.execLookoutFrameDropped s
  | .lookoutLinkChange up => Sys2Proof.Machine.execLookoutLinkChange up s

end Sys2Proof.Machine
end

