-- ==== Sys2Proof/Machine/Tick.lean ====
section
/-! DEFINITION. What passes when no command waits: one beat (log entry 3). -/
namespace Sys2Proof.Machine

/-- One beat: the model's clock always, and with standby power the beat count (R268), a Blaze latch that is due (R414), the end of
a FORCE_STOP whose jobs are gone (R409) and the host commands that wait (R374). -/
def State.tick (s : State) : State :=
  let s := { s with clock := s.clock + 1 }
  if s.standbyOn then s.tickBeat.settleBlaze.finishForce.advanceBoxes else s

end Sys2Proof.Machine
end

