-- ==== Sys2Proof/Safety.lean ====
section
/-! DEFINITION. What claims speak of: a command that answers, what a command leaves alone, and the states that runs keep
to. -/
namespace Sys2Proof.Machine

/-! ## Answers -/

/-- Command `i` completes in `s`: it answers a next state, of which `P` holds. -/
def Answers (i : Instr) (s : State) (P : State → Prop) : Prop := ∃ t, exec i s = .next t ∧ P t

/-- Command `i` completes in `s`: it answers the state in which the signals `l` have been delivered from a state of which
`P` holds. -/
def AnswersSignalling (i : Instr) (s : State) (l : List Sig) (P : State → Prop) : Prop := ∃ u, exec i s = .next (u.signal l) ∧ P u

/-- The state after a logged event: an entry of this beat with this source, code, level and arguments arrives at Tally's queue,
among the entries of its beat in ascending SOURCE order; of more than 64 the last is discarded and counted as lost (R423). -/
def Logged (b : Blk) (code level : Nat) (args : List Nat) (s t : State) : Prop :=
  ∃ e : TallyEntry, e.beat = s.beat ∧ e.source = b.base ∧ e.code = code ∧ e.level = level ∧
    e.args = (args.map (· % 2 ^ 32) ++ [0, 0, 0]).take 3 ∧ t.tally.queue = (tallyArrive e s.tally.queue).take 64 ∧
    t.tally.lostSince = s.tally.lostSince + (if s.tally.queue.length < 64 then 0 else 1)

/-! ## What stays as it was -/

/-- Every register but those at the control addresses `l` is unchanged. -/
def RegsOnly (l : List Nat) (s t : State) : Prop := ∀ a, a ∉ l → sget resetAt t.regs a = sget resetAt s.regs a

/-- Every core's own state but core `k`'s is unchanged. -/
def CoreOnly (k : CoreId) (s t : State) : Prop := ∀ j, j ≠ k → t.core j = s.core j

/-- Every byte of memory outside the `n` bytes at `a` is unchanged. -/
def MemOnly (a n : Nat) (s t : State) : Prop := ∀ x, x < a ∨ a + n ≤ x → t.readByte x = s.readByte x

/-- Registers at `l` and core `k`'s own state may differ, nothing else. -/
def CoreFrame (k : CoreId) (l : List Nat) (s t : State) : Prop :=
  RegsOnly l s t ∧ CoreOnly k s t ∧ t = { s with regs := t.regs, cores := t.cores }

/-- As `CoreFrame`, and `n` bytes of core `k`'s scratch from offset `o` on may differ. -/
def ScratchFrame (k : CoreId) (o n : Nat) (l : List Nat) (s t : State) : Prop :=
  RegsOnly l s t ∧ CoreOnly k s t ∧ MemOnly (scratchBase k + o) n s t ∧
    t = { s with regs := t.regs, cores := t.cores, mem := t.mem }

/-- The control addresses of core `k`'s registers at offsets `l`. -/
def corRegs (k : CoreId) (l : List Nat) : List Nat := l.map fun o => (Blk.cor k).base + o

/-! ## The block map (R430) -/

/-- The span of a block. -/
def Blk.span : Blk → Nat
  | .mbx => 0x40000
  | .til _ => 0x100000
  | .clu _ | .cru _ | .skd _ | .sil _ => 0x1000
  | .cch _ => 0x4000
  | .cor _ => 0x400
  | _ => 0x10000

/-! ## The states that every step keeps to -/

/-- Every sparse map is in its one canonical form, so equal contents are equal data. -/
structure State.Canonical (s : State) : Prop where
  mem : Memory.wf s.mem = true
  regs : swf resetAt s.regs = true
  cores : swf (fun _ => Core.reset) s.cores = true
  clusters : swf (fun _ => Cluster.reset) s.clusters = true
  jobs : swf (fun _ => JobSlot.empty) s.jobs = true
  fabrics : swf (fun _ => Fabric.reset) s.fabrics = true
  routes : swf (fun _ => (0 : W32)) s.routes = true
  ports : swf (fun _ => PortQ.reset) s.ports = true
  mailrooms : swf (fun _ => Mailroom.reset) s.mailrooms = true
  cruisers : swf (fun _ => Cruiser.reset) s.cruisers = true
  skidders : swf (fun _ => Skidder.reset) s.skidders = true
  sillages : swf (fun _ => Sillage.reset) s.sillages = true
  landings : swf (fun _ => Landing.reset) s.landings = true
  opts : swf (fun _ => OptPort.reset) s.opts = true
  snaps : swf (fun _ => ([] : List Nat)) s.snaps = true
  posted : swf (fun _ => (none : Option (Nat × Nat))) s.posted = true
  flash : swf flashDefault s.flash = true

/-- Tally's bounds: at most 64 entries wait for it (R423), and its ring holds at most its 8,192 (R418). -/
def Tally.bounded (v : Tally) : Prop := v.queue.length ≤ 64 ∧ v.ring.length ≤ tallySlots

/-- What every step keeps: the canonical form, Tally's bounds, and a main domain that is on only with standby power
(R386). -/
structure State.Inv (s : State) : Prop where
  canonical : s.Canonical
  tally : s.tally.bounded
  power : s.mainOn = true → s.standbyOn = true

/-! ## Safe runs -/

/-- The state after `n` steps; none where a step faults or refuses. -/
def State.after : Nat → State → Option State
  | 0, s => some s
  | n + 1, s =>
    match step s with
    | .next t => State.after n t
    | .fault _ => none
    | .refused _ => none

/-- A run is safe if none of its steps faults or refuses. -/
def State.Safe (s : State) : Prop := ∀ n, (s.after n).isSome = true

/-! ## When a command of a core's program issues -/

/-- The core runs and fetches from its program area, and nothing of its own is under way: no access, no copy and no
entry in an engine queue. -/
structure State.CoreIdle (s : State) (k : CoreId) : Prop where
  issues : s.issuable k = true
  fetches : s.fetchOk k = true
  whole : s.coreFaulted k = false
  slots : (s.core k).slots = []
  mtxQ : (s.core k).mtxQ = []
  vecQ : (s.core k).vecQ = []
  dmaQ : (s.core k).dmaQ = []
  dmaRun : (s.core k).dmaRun = []

/-- The program counter after an instruction that does not branch: it wraps in the 19 bits of COR_PC. -/
def State.nextPc (s : State) (k : CoreId) : Nat := (s.pc k + 4) / 4 * 4 % 2 ^ 19

/-- What an instruction without further effect on registers writes: COR_PC and COR_CNT_INSTR. -/
def retireRegs (k : CoreId) : List Nat := corRegs k [COR_PC, COR_CNT_INSTR]

/-- The program counter moved on and one instruction was counted. -/
def Retired (k : CoreId) (s t : State) : Prop :=
  t.pc k = s.nextPc k ∧ t.reg (.cor k) COR_CNT_INSTR = (s.reg (.cor k) COR_CNT_INSTR + 1) % 2 ^ 32

/-- No wait holds an enabled core's control core or engines, and no entry waits in its queues: a signal finds nothing to
release. -/
structure State.Quiet (s : State) (k : CoreId) : Prop where
  on : s.enabled (.cor k) = true
  stall : (s.core k).stall = .none
  mtxQ : (s.core k).mtxQ = []
  vecQ : (s.core k).vecQ = []
  dmaQ : (s.core k).dmaQ = []

/-- A Skidder with nothing in progress: no haul, no read waiting or issued, nothing served. -/
structure State.SkdIdle (s : State) (c : ClusterId) : Prop where
  hauls : (s.skidder c).hauls = []
  waits : (s.skidder c).waits = []
  ownQ : (s.skidder c).ownQ = []
  servedQ : (s.skidder c).servedQ = []
  serves : (s.skidder c).serves = []

/-! ## Mailbox commands -/

/-- The command of a row of the mailbox catalogue. -/
def Cmd.instr (h : Handover) : Cmd → Instr
  | .hello => .hello h
  | .identity => .identity h
  | .fwBegin => .fwBegin h
  | .fwChunk => .fwChunk h
  | .fwCommit ok => .fwCommit h ok
  | .init r => .init h r
  | .hostWindow => .hostWindow h
  | .sliceJoin => .sliceJoin h
  | .sliceLeave => .sliceLeave h
  | .planLoad => .planLoad h
  | .programLoad => .programLoad h
  | .configApply => .configApply h
  | .jobStart => .jobStart h
  | .jobStop => .jobStop h
  | .recover => .recover h
  | .memMap => .memMap h
  | .memGrant => .memGrant h
  | .memRevoke => .memRevoke h
  | .snapTrigger => .snapTrigger h
  | .snapRead => .snapRead h
  | .snapRearm => .snapRearm h
  | .logRead => .logRead h
  | .eventRead => .eventRead h
  | .debugMode => .debugMode h
  | .regRead => .regRead h
  | .regWrite => .regWrite h
  | .syncSet => .syncSet h
  | .ctxSave => .ctxSave h
  | .ctxRestore => .ctxRestore h
  | .calStatus => .calStatus h
  | .attest => .attest h

/-- The state in which a command handed over executes when no other command waits before it. -/
def State.atWork (s : State) (c : Cmd) (h : Handover) : State :=
  let t := s.setBox h.box.val ((s.box h.box.val).handed c.opcode h)
  if c.readOnly then t else t.setWaiting [⟨c, h, false, 0, 0, 0⟩]

/-- The mailbox is the host's, the command is no replay, nothing waits before it, and it passes checks 1 to 6 (R372 to
R378). -/
structure State.BoxReady (s : State) (c : Cmd) (h : Handover) : Prop where
  on : s.mainOn = true
  free : (s.box h.box.val).own = false
  new : (s.box h.box.val).replays c.opcode h = none
  alone : s.foe.waiting = []
  calm : s.lko.forcing = none
  checks : s.firstCheck c h = none

/-- What is left of a command's end once its execution in `r` has come to something. -/
def State.boxEnd (r : State) (c : Cmd) (h : Handover) : Ran → State
  | .refused u st d => (if c.readOnly then u else u.setWaiting []).closeCmd c h st d []
  | .done u st d out => (if c.readOnly then u else u.setWaiting []).closeCmd c h st d out
  | .waits u i n => if c.readOnly then u else u.setWaiting [⟨c, h, true, r.clock, i, n⟩]

/-- The mailbox is the host's again, with this status, detail and response (R372, R377). -/
def Replied (h : Handover) (st : Status) (detail : Nat) (out : List Byte) (t : State) : Prop :=
  let m := t.box h.box.val
  m.own = false ∧ m.status = some st ∧ m.detail = detail ∧ m.resultLength = out.length ∧
    sgetMany payloadZero m.payload 0 out.length = out

/-! ## Lookout requests -/

/-- The link is up, the message is a request to Lookout, VERSION is 1 and the request is no replay (R403, R404, R407). -/
structure State.LkoReady (s : State) (op : Nat) (m : LkoMsg) : Prop where
  up : s.lkoUp = true
  heard : (s.lkoHears m && isRequest m) = true
  version : m.version = 1
  new : ∀ k, s.lko.kept = some k → k.isFor op m = false

/-- A privileged request that may execute: the random source works, nothing executes, and it is authentic (R405, R445). -/
structure State.LkoTrusted (s : State) (op : Nat) (m : LkoMsg) : Prop where
  rng : s.flag .rng RNG_STATE 1 = false
  calm : s.lko.forcing = none
  authentic : s.authentic op m = true

/-- A register of one field, `bits` wide, for which the spec says what a write outside `lo` to `hi` stores. -/
inductive RangedReg : (b : Blk) → (o bits lo hi dflt : Nat) → Prop
  | bankCap (c : ClusterId) : RangedReg (.skd c) SKD_BANK_CAP 9 16 256 256
  | silWait (c : ClusterId) : RangedReg (.sil c) SIL_WAIT 20 1 1000000 1000
  | synWdog (k : CoreId) : RangedReg (.cor k) SYN_WDOG 20 1 1000000 1000
  | barWdog (c : ClusterId) : RangedReg (.clu c) BAR_WDOG 20 1 1000000 1000
  | streamLimit (t : Fin 8) : RangedReg (.lnd t) LND_CFG 9 1 256 256
  | powerCap : RangedReg .pwr GLB_PWR_CAP 16 4000 18000 18000

/-- A write of `v` at `a` reaches register `o` of block `b`, which is powered and takes writes at once (R429, R432, R435). -/
structure State.WriteReaches (s : State) (a : W32) (v : RegData) (b : Blk) (o : Nat) : Prop where
  aligned : a.toNat % 4 = 0
  word : v.bytes = 4
  names : blkOfAddr a.toNat = some (b, o)
  powered : s.powered b = true
  prompt : b.posted = false

/-- Command `i` is the request of opcode `op` that carries `m`, a privileged one where `priv` is true (R404, R405, R406). -/
inductive LkoRequest : (op : Nat) → (m : LkoMsg) → (priv : Bool) → (i : Instr) → Prop
  | status (m : LkoMsg) : LkoRequest 0x0001 m false (.lookoutStatus m)
  | identity (m : LkoMsg) : LkoRequest 0x0002 m false (.lookoutIdentity m)
  | logRead (m : LkoMsg) : LkoRequest 0x0010 m false (.lookoutLogRead m)
  | snapRead (m : LkoMsg) : LkoRequest 0x0011 m false (.lookoutSnapRead m)
  | regRead (m : LkoMsg) : LkoRequest 0x0012 m false (.lookoutRegRead m)
  | attest (m : LkoMsg) : LkoRequest 0x0013 m false (.lookoutAttest m)
  | forceStop (m : LkoMsg) : LkoRequest 0x0020 m true (.forceStop m)
  | powerOff (m : LkoMsg) : LkoRequest 0x0021 m true (.lookoutPowerOff m)
  | powerOn (m : LkoMsg) (inputs : SupplyInputs) : LkoRequest 0x0022 m true (.lookoutPowerOn m inputs)
  | powerCycle (m : LkoMsg) (inputs : SupplyInputs) : LkoRequest 0x0023 m true (.lookoutPowerCycle m inputs)
  | fence (m : LkoMsg) : LkoRequest 0x0024 m true (.lookoutFence m)
  | fwBegin (m : LkoMsg) : LkoRequest 0x0030 m true (.lookoutFwBegin m)
  | fwChunk (m : LkoMsg) : LkoRequest 0x0031 m true (.lookoutFwChunk m)
  | fwCommit (m : LkoMsg) (flashOk : Bool) : LkoRequest 0x0032 m true (.lookoutFwCommit m flashOk)

/-- The states in which a request may execute (R406). -/
def State.lkoLegal (s : State) (op : Nat) (m : LkoMsg) : Bool :=
  match op with
  | 0x0011 | 0x0020 | 0x0021 | 0x0023 => s.mainOn
  | 0x0012 => s.mainOn || !namesMain (lkoReq m)
  | 0x0022 => !s.mainOn
  | 0x0030 | 0x0031 | 0x0032 => s.inRom
  | _ => true

/-- Nothing but Lookout’s own state, its registers, the log and what leaves differs. -/
def LkoOnly (s t : State) : Prop :=
  t = { s with regs := t.regs, lko := t.lko, tally := t.tally, out := t.out, freeCount := t.freeCount }

/-- The state in which a request that was taken executes. -/
def State.lkoTaken (s : State) (op : Nat) (m : LkoMsg) : State :=
  { s with lko := { s.lko with lastSrc := m.src.toNat, lastSeq := m.seq.toNat, lastOp := op } }.bump .lko LKO_CNT_RX

/-- The response has left, with the nonce now current, and is kept (R405, R407). -/
def Responded (op : Nat) (m : LkoMsg) (st : Status) (detail : Nat) (out : List Byte) (t : State) : Prop :=
  t.out.getLast? = some (.lookout m.src.toNat m.port.toNat op m.seq.toNat st detail t.lko.nonce out) ∧
    t.lko.kept = some ⟨m.src.toNat, m.port.toNat, m.seq.toNat, op, st, detail, out⟩

/-! ## The vector forms by their operation -/

/-- The command of an element-wise form. -/
def ewInstr (k : CoreId) (x : VForm) : EwOp → Instr
  | .vadd => .vadd k x
  | .vsub => .vsub k x
  | .vmul => .vmul k x
  | .vfma => .vfma k x
  | .vmin => .vmin k x
  | .vmax => .vmax k x
  | .vdiv => .vdiv k x
  | .vsqrt => .vsqrt k x
  | .vrcp => .vrcp k x
  | .vexp => .vexp k x
  | .vlog => .vlog k x
  | .vtanh => .vtanh k x
  | .vsigm => .vsigm k x
  | .vabs => .vabs k x
  | .vneg => .vneg k x
  | .vcmpeq => .vcmpeq k x
  | .vcmplt => .vcmplt k x
  | .vcmple => .vcmple k x
  | .vcmpne => .vcmpne k x
  | .vsel => .vsel k x
  | .vand => .vand k x
  | .vor => .vor k x
  | .vxor => .vxor k x
  | .vshl => .vshl k x
  | .vshr => .vshr k x
  | .vmov => .vmov k x
  | .vldexp => .vldexp k x
  | .vresadd => .vresadd k x
  | .vupd => .vupd k x
  | .vcvtw => .vcvtw k x
  | .vcvtn => .vcvtn k x
  | .vcvts => .vcvts k x
  | .vbern => .vbern k x

/-- The element-wise forms that write one element to each active lane and draw nothing. -/
def plainEw : List EwOp :=
  [.vadd, .vsub, .vmul, .vfma, .vmin, .vmax, .vdiv, .vsqrt, .vrcp, .vexp, .vlog, .vtanh, .vsigm, .vcmpeq, .vcmplt, .vcmple,
   .vcmpne, .vsel, .vand, .vor, .vxor, .vshl, .vshr, .vmov, .vldexp, .vresadd]

/-- The command of a cross-lane form. -/
def clInstr (k : CoreId) (x : VForm) : ClOp → Instr
  | .vperm => .vperm k x
  | .vrsum => .vrsum k x
  | .vrssq => .vrssq k x
  | .vrmax => .vrmax k x
  | .vrmin => .vrmin k x
  | .vrcnt => .vrcnt k x
  | .vmv => .vmv k x
  | .vmvcomb => .vmvcomb k x
  | .vsmstat => .vsmstat k x
  | .vsmmerge => .vsmmerge k x
  | .vsmexp => .vsmexp k x
  | .vsmnorm => .vsmnorm k x

/-- The registers that a vector instruction writes besides its own: program counter and counters. -/
def vecRegs (k : CoreId) (l : List Nat) : List Nat := corRegs k ([COR_PC, COR_CNT_INSTR, VEC_CNT_INSTR, VEC_CNT_BUSY] ++ l)

/-- A vector instruction has issued and executed. -/
def VecDone (k : CoreId) (s t : State) : Prop :=
  Retired k s t ∧ t.reg (.cor k) VEC_CNT_INSTR = (s.reg (.cor k) VEC_CNT_INSTR + 1) % 2 ^ 32

end Sys2Proof.Machine
end

