-- ==== Sys2Proof/Certificates/Slice0/Obligations.lean ====
section
/-! DEFINITION. The statements for the provers, each over the model as it stands. -/
open Sys2Proof Sys2Proof.Machine

/-- For every state and every command at the front of its queue, the step is that command executed on the state with the rest
of the queue. The queue is the model's own (log entry 3). (R145, log entry 3) -/
def Obligations.StepRunsFrontCommand : Prop :=
  ∀ (c : Instr) (rest : List Instr) (s : State), s.pending = c :: rest → step s = exec c { s with pending := rest }

/-- With no command waiting a step answers the state in which the model's clock is one beat on. With standby power, no Blaze
latch due, no FORCE_STOP in progress, no host command waiting and no slew, the beat count is one on as well, and the rest of
the state is as it was. That a beat passes on an empty queue is the model's choice (log entry 3). (R268, log entry 3) -/
def Obligations.EmptyQueuePassesOneBeat : Prop :=
  ∀ s : State, s.pending = [] →
      (∃ t, step s = .next t ∧ t.clock = s.clock + 1 ∧ t.pending = []) ∧
      (s.standbyOn = false → step s = .next { s with clock := s.clock + 1 }) ∧
      (s.standbyOn = true → s.time.slew = 0 → s.blaze.latchAt = none → s.lko.forcing = none → s.foe.waiting = [] →
        step s = .next { s with clock := s.clock + 1, beat := s.beat + 1 })

/-- Every command, on every state, answers a next state: none faults and none is refused. The waiting queue and the model's
clock are as they were, the messages already sent stay as they are with any new ones after them, and free values are only
ever used up (log entries 2 and 3). (R145, log entry 2, log entry 3) -/
def Obligations.EveryCommandAnswersAndKeepsQueue : Prop :=
  ∀ (c : Instr) (s : State), Answers c s fun t =>
      t.pending = s.pending ∧ t.clock = s.clock ∧ s.out <+: t.out ∧ s.freeCount ≤ t.freeCount

/-- The state right after reset has every sparse map in canonical form, Tally within its bounds, and the main domain off.
(R386, R418, R423) -/
def Obligations.InvHoldsAtReset : Prop :=
  State.reset.Inv

/-- From every state in which memory, the registers and every other sparse map are in their one canonical form, at most 64
entries wait for Tally and its ring holds at most 8,192, and the main domain is on only with standby power, every step
answers a state in which all of this holds again. (R386, R418, R423) -/
def Obligations.EveryStepKeepsInv : Prop :=
  ∀ s t : State, s.Inv → step s = .next t → t.Inv

/-- From every state, whatever commands wait, every number of steps can be taken: no step faults or refuses. From a state
that meets the invariant every state of the run meets it. (R145, R386) -/
def Obligations.EveryRunIsSafe : Prop :=
  ∀ s : State, s.Safe ∧ (s.Inv → ∀ (n : Nat) (t : State), s.after n = some t → t.Inv)

/-- Right after reset neither domain is powered, no command waits and nothing has been sent, no frame has begun, no job slot
holds a job, the beat count is 0, and every register address holds the reset value of its table row, among them GLB_TRIP
0x00376973, GLB_THROTTLE 0x555F5A64, HBC_CFG 0x00001801 and SYN_WDOG 0x000003E8; no core runs. (R9, R386, R388) -/
def Obligations.ResetStateIsStandbyOff : Prop :=
  State.reset.standbyOn = false ∧ State.reset.mainOn = false ∧ State.reset.pending = [] ∧ State.reset.out = [] ∧
      State.reset.beat = 0 ∧ State.reset.time.begun = false ∧ (∀ j, State.reset.job j = JobSlot.empty) ∧
      (∀ a, sget resetAt State.reset.regs a = resetAt a) ∧
      (∀ b, State.reset.powered b = false ∧ State.reset.enabled b = false) ∧
      State.reset.reg .pwr GLB_TRIP = 0x376973 ∧ State.reset.reg .pwr GLB_THROTTLE = 0x555F5A64 ∧
      (∀ t s, State.reset.reg (.hbc t s) HBC_CFG = 0x1801) ∧ (∀ k, State.reset.reg (.cor k) SYN_WDOG = 0x3E8) ∧ (∀ k, State.reset.flag (.cor k) COR_STATE stRunning = false)

/-- For every block of the map and every offset within its span, the control address base + offset is decoded to that block
and that offset; and an address decoded to a block lies at the offset from that block's base, within its span. (R430,
spec/21_register_conventions_and_map.md) -/
def Obligations.ControlAddressNamesItsBlock : Prop :=
  (∀ (b : Blk) (o : Nat), o < b.span → blkOfAddr (b.base + o) = some (b, o)) ∧
      (∀ (a : Nat) (b : Blk) (o : Nat), blkOfAddr a = some (b, o) → o < b.span ∧ a = b.base + o)

/-- On an idle core that fetches, a scalar arithmetic, logic, shift, multiply or compare instruction completes: its
destination register holds the result of the operation on the two operands, g0 stays zero, every other general register of
the core is as it was, the program counter and the instruction count advance, and no other register, core, memory byte or
unit changes. R146 names the class of these instructions alone: the list of the fifteen and what each computes are the
model's (PRESUMED, log entry 9). (spec/07_core_scratch_and_cache.md, log entry 9) -/
def Obligations.ScalarInstructionWritesItsResult : Prop :=
  ∀ (s : State) (k : CoreId) (o : AluOp) (rd ra : Fin 32) (src : AluSrc), s.CoreIdle k →
      Answers (.scalarAlu k (.op o rd ra src)) s fun t =>
        t.gpr k rd = (if rd = 0 then 0 else aluResult o (s.gpr k ra) (AluSrc.value s k src)) ∧
        (∀ r, r ≠ rd → t.gpr k r = s.gpr k r) ∧ t.core k = { s.core k with gpr := (t.core k).gpr } ∧
        Retired k s t ∧ CoreFrame k (retireRegs k) s t

/-- On an idle core that fetches: a BRANCH goes to its target when its register is zero, or non-zero, as the instruction
says, and to the next instruction otherwise; a JUMP goes to its target; a JUMP_AND_LINK also writes the address of the next
instruction to its link register (nothing, if that is g0). The program counter holds a 19-bit offset whose low two bits are
zero. Nothing else changes but the instruction count. (R146, R10) -/
def Obligations.BranchesMoveTheProgramCounter : Prop :=
  (∀ (s : State) (k : CoreId) (z : Bool) (r : Fin 32) (a : W32), s.CoreIdle k →
        Answers (.branch k z r a) s fun t =>
          t.pc k = (if decide (s.gpr k r = 0) = z then a.toNat / 4 * 4 % 2 ^ 19 else s.nextPc k) ∧
          t.core k = s.core k ∧ CoreFrame k (retireRegs k) s t) ∧
      (∀ (s : State) (k : CoreId) (d : JumpTo), s.CoreIdle k →
        Answers (.jump k d) s fun t =>
          t.pc k = s.jumpTarget k d / 4 * 4 % 2 ^ 19 ∧ t.core k = s.core k ∧ CoreFrame k (retireRegs k) s t) ∧
      (∀ (s : State) (k : CoreId) (rd : Fin 32) (d : JumpTo), s.CoreIdle k →
        Answers (.jumpAndLink k rd d) s fun t =>
          t.gpr k rd = (if rd = 0 then 0 else BitVec.ofNat 32 (s.pc k + 4)) ∧ (∀ r, r ≠ rd → t.gpr k r = s.gpr k r) ∧
          t.pc k = s.jumpTarget k d / 4 * 4 % 2 ^ 19 ∧ t.core k = { s.core k with gpr := (t.core k).gpr } ∧
          CoreFrame k (retireRegs k) s t)

/-- When an idle core that fetches meets a word of a reserved major opcode or a reserved SUB of the segment-queue, sync or
barrier class, or a reserved encoding of the matrix, segment-queue, sync or barrier classes (a word with a bit set that its
format does not name), the core stops with cause 4: FAULTED is set, RUNNING is clear, COR_FAULT holds 4, the fault address is
the instruction's, and the program counter does not move. No memory byte, general register or other core changes. A word of
the core's program that spells a command by a layout of R151, R173, R220, R233 or R252 does what that command's own row does;
one of a reserved encoding of the vector engine is refused with reason 1, the encoding; one of a class without a layout does
nothing by itself (log entry 9). (R147, R161) -/
def Obligations.IllegalInstructionStopsTheCore : Prop :=
  (∀ (k : CoreId) (w : W32), 0x28 ≤ (w.extractLsb' 26 6).toNat → decodeCore k w = .illegal) ∧
     (∀ (s : State) (k : CoreId) (i : Instr), s.CoreIdle k →
      ((∃ w, decodeCore k w = .illegal ∧ i = .scalarAlu k (.word w)) ∨ (∃ w g m, w ≠ 0 ∧ i = .mbegin k g m w) ∨ (∃ w g r m e, w ≠ 0 ∧ i = .macc k g r m w e) ∨
        (∃ w g r m, w ≠ 0 ∧ i = .mend k g r m w) ∨ (∃ w g, w ≠ 0 ∧ i = .mabort k g w) ∨ (∃ w r, w ≠ 0 ∧ i = .mqcfg k r w) ∨
        (∃ w r, w ≠ 0 ∧ i = .mqset k r w) ∨ (∃ w r, w ≠ 0 ∧ i = .mtake k r w) ∨ (∃ w r, w ≠ 0 ∧ i = .msteal k r w) ∨
        (∃ w b, w ≠ 0 ∧ i = .barr k b w) ∨ (∃ w b, w ≠ 0 ∧ i = .bwait k b w) ∨ (∃ w b, w ≠ 0 ∧ i = .bsync k b w) ∨
        (∃ w o r, w ≠ 0 ∧ i = .sdec k o r w) ∨ (∃ w o r b h, w ≠ 0 ∧ i = .swait k .core o r b h w) ∨ (∃ w r o, w ≠ 0 ∧ i = .sread k r o w)) →
      Answers i s fun t =>
        t.coreFaulted k = true ∧ t.coreRunning k = false ∧ t.reg (.cor k) COR_FAULT = 4 ∧
        t.reg (.cor k) COR_FAULT_ADDR_LO = s.pc k ∧ t.reg (.cor k) COR_FAULT_ADDR_HI = 0 ∧ t.pc k = s.pc k ∧
        t.mem = s.mem ∧ (∀ r, t.gpr k r = s.gpr k r) ∧ CoreOnly k s t) ∧
     (∀ (s : State) (k : CoreId) (w : W32) (i : Instr), decodeCore k w = .command i → exec (.scalarAlu k (.word w)) s = exec i s) ∧
     (∀ (s : State) (k : CoreId) (w : W32), s.CoreIdle k → decodeCore k w = .vecReserved →
      Answers (.scalarAlu k (.word w)) s fun t => t.coreFaulted k = true ∧ t.reg (.cor k) COR_FAULT = 4 ∧
        t.reg (.cor k) VEC_FAULT = 1 ∧ t.mem = s.mem ∧ (∀ r, t.gpr k r = s.gpr k r)) ∧
     (∀ (s : State) (k : CoreId) (w : W32) (c : PlainClass), decodeCore k w = .unlaid c → exec (.scalarAlu k (.word w)) s = .next s)

/-- On an idle core that fetches: MARK FRAME writes the beat offset within the current frame to COR_FRAME_USED; MARK STEP
writes the beats since the last STEP mark to COR_STEP_BEATS and counts it in COR_STEP_COUNT; FENCE, with nothing outstanding,
goes straight on; HALT, with every engine queue empty, clears RUNNING and sets HALTED. Nothing else changes but the program
counter and the instruction count. With a load or store outstanding a FENCE holds the control core, and the last one to be
performed lets it go; with an entry in an engine queue a HALT holds it, with RUNNING still set. That COR_PC then shows the
address after a HALT is the model's choice (log entry 25). (R150, R168, R170) -/
def Obligations.MarksAndFenceAndHaltComplete : Prop :=
  (∀ (s : State) (k : CoreId), s.CoreIdle k → Answers (.markFrame k) s fun t =>
        t.reg (.cor k) COR_FRAME_USED = (s.beat - s.time.frameStart) % 2 ^ 32 ∧ t.core k = { s.core k with framesMarked := true } ∧
        Retired k s t ∧ CoreFrame k (corRegs k [COR_PC, COR_CNT_INSTR, COR_FRAME_USED]) s t) ∧
      (∀ (s : State) (k : CoreId), s.CoreIdle k → Answers (.markStep k) s fun t =>
        t.reg (.cor k) COR_STEP_BEATS = (s.beat - (s.core k).stepMarkAt) % 2 ^ 32 ∧
        t.reg (.cor k) COR_STEP_COUNT = (s.reg (.cor k) COR_STEP_COUNT + 1) % 2 ^ 32 ∧
        t.core k = { s.core k with stepMarkAt := s.beat } ∧ Retired k s t ∧
        CoreFrame k (corRegs k [COR_PC, COR_CNT_INSTR, COR_STEP_BEATS, COR_STEP_COUNT]) s t) ∧
      (∀ (s : State) (k : CoreId), s.CoreIdle k → Answers (.fence k) s fun t =>
        t.core k = s.core k ∧ Retired k s t ∧ CoreFrame k (retireRegs k) s t) ∧
      (∀ (s : State) (k : CoreId), s.CoreIdle k → Answers (.halt k) s fun t =>
        t.coreRunning k = false ∧ t.flag (.cor k) COR_STATE stHalted = true ∧ t.coreFaulted k = false ∧ t.core k = s.core k ∧
        Retired k s t ∧ CoreFrame k (corRegs k [COR_PC, COR_CNT_INSTR, COR_STATE]) s t) ∧
      (∀ (s : State) (k : CoreId) (i : Instr) (w : Stall), s.issuable k = true → s.fetchOk k = true → (s.core k).dmaRun = [] →
        (i = .fence k ∧ w = .fence ∧ (s.slotsOf k).any slotIsCore = true ∨
          i = .halt k ∧ w = .halt ∧ (s.core k).vecQ ++ (s.core k).mtxQ ++ (s.core k).dmaQ ≠ []) →
        Answers i s fun t => t.core k = { s.core k with stall := w } ∧ t.issuable k = false ∧ t.coreRunning k = true ∧
          Retired k s t ∧ CoreFrame k (retireRegs k) s t) ∧
      (∀ (s : State) (k : CoreId) (i : Fin 48) (n va a v : Nat), (s.core k).stall = .fence → (s.core k).dmaRun = [] → (s.core k).dmaQ = [] →
        (s.core k).slots = [⟨i.val, .store n va a v⟩] →
        Answers (.jobStorePerformed k ⟨i, .ok⟩) s fun t => (t.core k).stall = .none ∧ (t.slotsOf k).any slotIsCore = false ∧ t.rd a n = v % 2 ^ (8 * n))

/-- On an idle core that fetches, an aligned load inside the core's scratch completes: the low bits of its register are the
little-endian value of the bytes read, a pair load also writes the next register, no other register of the core changes, a
corrected single-bit error is counted, and memory is untouched. The upper bits of a narrow load are a free value of the model
(DESIGN CHOICE, log entry 2). (R148, R153, R155) -/
def Obligations.ScratchLoadReadsItsBytes : Prop :=
  ∀ (s : State) (k : CoreId) (rd : Fin 32) (size : MemSize) (o : W32) (e : Ecc),
      let n := memBytes size
      s.CoreIdle k → pairOdd size rd = false → o.toNat % n = 0 → inCoreScratch o.toNat n = true → eccLost e [(o.toNat, n)] = none →
      Answers (.load k rd size (.scratch o) e) s fun t =>
        (rd ≠ 0 → (t.gpr k rd).toNat % 2 ^ (8 * n) = s.scrRd k o.toNat n % 2 ^ 32 % 2 ^ (8 * n)) ∧
        (size = .pair → (t.gpr k (rd + 1)).toNat = s.scrRd k o.toNat n / 2 ^ 32) ∧
        (∀ r, r ∉ pairRegs size rd → t.gpr k r = s.gpr k r) ∧ Retired k s t ∧
        t.reg (.cor k) COR_CNT_SCRATCH_CE = (s.reg (.cor k) COR_CNT_SCRATCH_CE + (if (eccMended e [(o.toNat, n)]).isSome then 1 else 0)) % 2 ^ 32 ∧
        t.core k = { s.core k with gpr := (t.core k).gpr } ∧
        RegsOnly (corRegs k [COR_PC, COR_CNT_INSTR, COR_CNT_SCRATCH_CE]) s t ∧ CoreOnly k s t ∧
        t = { s with regs := t.regs, cores := t.cores, freeCount := t.freeCount }

/-- On an idle core that fetches, an aligned store inside the core's scratch completes: the bytes at its offset read back as
the low bytes of its register (of the register pair, for the pair form), every byte of memory outside them is as it was, and
no general register, other core or unit changes. A store of fewer than 8 bytes reads the word it changes, and counts a
corrected error there. (R148, R152, R153, R155) -/
def Obligations.ScratchStoreWritesItsBytes : Prop :=
  ∀ (s : State) (k : CoreId) (rs : Fin 32) (size : MemSize) (o : W32) (e : Ecc),
      let n := memBytes size
      let reads := if n < 8 then [(o.toNat, n)] else []
      s.CoreIdle k → pairOdd size rs = false → o.toNat % n = 0 → inCoreScratch o.toNat n = true → eccLost e reads = none →
      Answers (.store k rs size ⟨.scratch o, e⟩) s fun t =>
        t.scrRd k o.toNat n = (if size = .pair then (s.gpr k rs).toNat + (s.gpr k (rs + 1)).toNat * 2 ^ 32
          else (s.gpr k rs).toNat % 2 ^ (8 * n)) ∧
        t.reg (.cor k) COR_CNT_SCRATCH_CE = (s.reg (.cor k) COR_CNT_SCRATCH_CE + (if (eccMended e reads).isSome then 1 else 0)) % 2 ^ 32 ∧
        t.core k = s.core k ∧ Retired k s t ∧
        ScratchFrame k o.toNat n (corRegs k [COR_PC, COR_CNT_INSTR, COR_CNT_SCRATCH_CE]) s t

/-- On an idle core that fetches, a scratch load or store: names an odd register for a pair, and the core stops with cause 4;
else is misaligned, and it stops with cause 6; else leaves the 384 KiB, and it stops with cause 3; else meets a double-bit
error in a word it reads (a load, or a store of fewer than 8 bytes), and it stops with cause 7. The instruction does not
complete: the program counter, memory and the general registers are as they were. That an odd pair register is an illegal
encoding is DEDUCED (log entry 56). (R148, R155, R161) -/
def Obligations.ScratchAccessChecksStopTheCore : Prop :=
  ∀ (s : State) (k : CoreId) (r : Fin 32) (size : MemSize) (o : W32) (e : Ecc) (i : Instr) (cause : Nat),
      let n := memBytes size
      s.CoreIdle k → (i = .load k r size (.scratch o) e ∨ (i = .store k r size ⟨.scratch o, e⟩ ∧ (cause = 7 → n < 8))) →
      cause = (if pairOdd size r then 4 else if o.toNat % n ≠ 0 then 6 else if inCoreScratch o.toNat n = false then 3 else 7) →
      (cause = 7 → eccLost e [(o.toNat, n)] ≠ none) →
      Answers i s fun t =>
        t.coreFaulted k = true ∧ t.coreRunning k = false ∧ t.reg (.cor k) COR_FAULT = cause ∧ t.pc k = s.pc k ∧
        t.mem = s.mem ∧ (∀ r, t.gpr k r = s.gpr k r) ∧ CoreOnly k s t

/-- On an idle core that fetches, an aligned load or store to a job address whose translation succeeds and for which a
request slot is free issues: the access waits in a slot of the core with its register, size, job address and module address
(a store with its value), COR_CNT_LOADS or COR_CNT_STORES counts it, the program counter advances, and no byte of memory and
no general register changes yet. A misaligned job address stops the core with cause 6; a table entry that its walk cannot
read, with cause 7 at that entry; an address that no table maps, with cause 1; a store to a page without WRITE, with cause 2;
an access to module addresses that nothing backs, with cause 3 at the module address. The access then does not issue, and no
general register changes. (R148, R160, R161, R162, R163, R164) -/
def Obligations.JobAccessTakesARequestSlot : Prop :=
  (∀ (s : State) (k : CoreId) (rd : Fin 32) (size : MemSize) (va : BitVec 48) (e : Ecc) (r : State) (a : Nat) (x : Xlat),
        s.CoreIdle k → pairOdd size rd = false → va.toNat % memBytes size = 0 → (s.walkError k va.toNat e).2 = none →
        (s.walkError k va.toNat e).1.reach k va.toNat (memBytes size) false = (r, .ok a x) → r.slotReady k a = true →
        Answers (.load k rd size (.job va) e) s fun t =>
          (∃ y ∈ (t.core k).slots, y.use = .load rd (memBytes size) va.toNat a) ∧ t.pc k = s.nextPc k ∧
          t.reg (.cor k) COR_CNT_LOADS = (s.reg (.cor k) COR_CNT_LOADS + 1) % 2 ^ 32 ∧ t.mem = s.mem ∧
          (∀ g, t.gpr k g = s.gpr k g)) ∧
      (∀ (s : State) (k : CoreId) (rs : Fin 32) (size : MemSize) (va : BitVec 48) (e : Ecc) (r : State) (a : Nat) (x : Xlat),
        s.CoreIdle k → pairOdd size rs = false → va.toNat % memBytes size = 0 → (s.walkError k va.toNat e).2 = none →
        (s.walkError k va.toNat e).1.reach k va.toNat (memBytes size) true = (r, .ok a x) → r.slotReady k a = true →
        Answers (.store k rs size ⟨.job va, e⟩) s fun t =>
          (∃ y ∈ (t.core k).slots, y.use = .store (memBytes size) va.toNat a (s.storeValue k size rs)) ∧ t.pc k = s.nextPc k ∧
          t.reg (.cor k) COR_CNT_STORES = (s.reg (.cor k) COR_CNT_STORES + 1) % 2 ^ 32 ∧ t.mem = s.mem ∧
          (∀ g, t.gpr k g = s.gpr k g)) ∧
      (∀ (s : State) (k : CoreId) (r : Fin 32) (size : MemSize) (va : BitVec 48) (e : Ecc) (i : Instr) (write : Bool) (cause adr : Nat),
        i = .load k r size (.job va) e ∧ write = false ∨ i = .store k r size ⟨.job va, e⟩ ∧ write = true →
        s.CoreIdle k → pairOdd size r = false →
        let n := memBytes size
        let w := s.walkError k va.toNat e
        let x := (w.1.translate k va.toNat).2
        (cause = 6 ∧ adr = va.toNat ∧ va.toNat % n ≠ 0 ∨
          va.toNat % n = 0 ∧ (cause = 7 ∧ w.2 = some adr ∨
            w.2 = none ∧ (cause = 1 ∧ adr = va.toNat ∧ x = none ∨
              ∃ p, x = some p ∧ (cause = 2 ∧ adr = va.toNat ∧ write = true ∧ p.writable = false ∨
                cause = 3 ∧ adr = p.base + (va.toNat - p.jobBase) ∧ (write = true → p.writable = true) ∧ rangeBacked adr n = false)))) →
        Answers i s fun t =>
          t.coreFaulted k = true ∧ t.coreRunning k = false ∧ t.reg (.cor k) COR_FAULT = cause ∧
          t.reg (.cor k) COR_FAULT_ADDR_LO = adr % 2 ^ 32 ∧ (cause ≠ 7 → t.mem = s.mem) ∧ (t.core k).slots = [] ∧
          (∀ g, t.gpr k g = s.gpr k g) ∧ t.pc k = s.pc k)

/-- For a core with the access in the named slot, and no earlier access to the same line outstanding: a load of any size that
returns without error, on a core that has not faulted, writes the bytes at its module address to its register or pair (the
upper bits of a narrow one are a free value, log entry 2); a store of any size that is performed writes its bytes and changes
no other byte of memory; a prefetch that fills without error leaves memory as it was, and its line is in the cluster cache if
the cache holds that memory. Each gives back its slot alone, after which copies, a waiting FENCE and prefetch streams may go
on; a core that has none of these is left at that. A load whose line is lost or in error, or whose scratch words hold a
double-bit error, writes no register and stops the core with cause 7 at the place of the error; a prefetch that meets an
error puts no line into the cache (log entry 103). (R148, R150, R153, R159, R160, R162, R166, R444) -/
def Obligations.OutstandingAccessesComplete : Prop :=
  (∀ (s : State) (k : CoreId) (i : Fin 48) (e : Ecc) (rd : Fin 32) (n va a : Nat), n ∈ [1, 2, 4, 8] →
        s.slotById k i.val = some ⟨i.val, .load rd n va a⟩ → s.lineBlocked k i.val a = false → s.coreFaulted k = false →
        s.lineLost a = false → s.windowEcc [(a, n)] e = (s, none) →
        let t := (s.dropSlot k i.val).loadResult k n rd (s.rd a n)
        Machine.exec (.jobLoadReturn k ⟨i, e⟩ .none) s = .next (t.slotFreed k) ∧
        (rd ≠ 0 → (t.gpr k rd).toNat % 2 ^ (8 * n) = s.rd a n % 2 ^ 32) ∧
        (n = 8 → rd ≠ 31 → (t.gpr k (rd + 1)).toNat = s.rd a 8 / 2 ^ 32) ∧
        (∀ r, r ∉ (if n = 8 then [rd, rd + 1] else [rd]) → t.gpr k r = s.gpr k r) ∧
        (t.core k).slots = (s.core k).slots.filter (fun x => x.id != i.val) ∧ CoreOnly k s t ∧
        t = { s with cores := t.cores, freeCount := t.freeCount } ∧
        ((s.core k).stall = .none → (s.core k).dmaRun = [] → (s.cluster k.cluster).streams = [] → t.slotFreed k = t)) ∧
      (∀ (s : State) (k : CoreId) (i : Fin 48) (e : Ecc) (err : LineErr) (rd : Fin 32) (n va a adr : Nat),
        s.slotById k i.val = some ⟨i.val, .load rd n va a⟩ → s.lineBlocked k i.val a = false → s.coreFaulted k = false →
        ((s.lineError k.cluster a err).2 = true ∧ adr = a ∨
          (s.lineError k.cluster a err).2 = false ∧ ((s.lineError k.cluster a err).1.windowEcc [(a, n)] e).2 = some adr) →
        ∃ u : State, Machine.exec (.jobLoadReturn k ⟨i, e⟩ err) s = .next (u.slotFreed k) ∧
          u.coreFaulted k = true ∧ u.coreRunning k = false ∧ u.reg (.cor k) COR_FAULT = 7 ∧
          u.reg (.cor k) COR_FAULT_ADDR_LO = adr % 2 ^ 32 ∧ (∀ r, u.gpr k r = s.gpr k r) ∧ (∀ x ∈ (u.core k).slots, x.id ≠ i.val)) ∧
      (∀ (s : State) (k : CoreId) (i : Fin 48) (e : Ecc) (n va a v : Nat),
        s.slotById k i.val = some ⟨i.val, .store n va a v⟩ → s.lineBlocked k i.val a = false →
        s.windowEcc (if n < 8 then [(a, n)] else []) e = (s, none) →
        let t := ((s.writeBytes a (leBytes n v)).dropSlot k i.val).invalidateLine (some k.cluster) a
        Machine.exec (.jobStorePerformed k ⟨i, e⟩) s = .next (t.slotFreed k) ∧
        t.rd a n = v % 2 ^ (8 * n) ∧ MemOnly a n s t ∧ (∀ r, t.gpr k r = s.gpr k r) ∧
        (t.core k).slots = (s.core k).slots.filter (fun x => x.id != i.val) ∧ CoreOnly k s t ∧
        ((s.core k).stall = .none → (s.core k).dmaRun = [] → (s.cluster k.cluster).streams = [] → t.slotFreed k = t)) ∧
      (∀ (s : State) (k : CoreId) (i : Fin 48) (e : Ecc) (va a : Nat), s.slotById k i.val = some ⟨i.val, .prefetch va a⟩ →
        ∃ t : State, Machine.exec (.prefetchFill k ⟨i, e⟩) s = .next (t.slotFreed k) ∧
          (t.core k).slots = (s.core k).slots.filter (fun x => x.id != i.val) ∧ CoreOnly k s t ∧
          (e = .ok → s.lineLost a = false → t.mem = s.mem ∧
            (s.cacheable k.cluster a = true → (t.cluster k.cluster).hasLine a = true)) ∧
          (e = .line 0 .dramUncorrectable ∨ s.lineLost a = true → (s.cluster k.cluster).hasLine a = false → (memCtl a).isSome = true →
            (t.cluster k.cluster).hasLine a = false ∧ t.coreFaulted k = s.coreFaulted k) ∧
          ((s.core k).stall = .none → (s.core k).dmaRun = [] → (s.cluster k.cluster).streams = [] → t.slotFreed k = t))

/-- On an idle core that fetches, an LRD of a listed register writes what that register reads to its destination; an LWR of a
listed register has the effect of a write of the general register's value to it, with the core's earlier accesses done. Both
form the offset from the cluster base as g[RA] plus the immediate, in 16 bits. An offset not aligned to 4 stops the core with
cause 6, one not listed with cause 3. (R151) -/
def Obligations.LocalRegisterPathReadsAndWrites : Prop :=
  (∀ (s : State) (k : CoreId) (rt ra : Fin 32) (imm : BitVec 15), s.CoreIdle k →
        s.localOff k ra imm % 4 = 0 → lrdOk (s.localOff k ra imm) = true →
        Answers (.lrd k rt ra imm) s fun t =>
          t.gpr k rt = (if rt = 0 then 0 else
            BitVec.ofNat 32 (s.view (clusterBlk k.cluster (s.localOff k ra imm)).1 (clusterBlk k.cluster (s.localOff k ra imm)).2)) ∧
          (∀ r, r ≠ rt → t.gpr k r = s.gpr k r) ∧ Retired k s t ∧ CoreFrame k (retireRegs k) s t) ∧
      (∀ (s : State) (k : CoreId) (rt ra : Fin 32) (imm : BitVec 15), s.CoreIdle k →
        s.localOff k ra imm % 4 = 0 → lwrOk (s.localOff k ra imm) = true →
        Machine.exec (.lwr k rt ra imm) s = .next ((s.retire k).writeEffect (clusterBlk k.cluster (s.localOff k ra imm)).1
          (clusterBlk k.cluster (s.localOff k ra imm)).2 (s.gpr k rt).toNat)) ∧
      (∀ (s : State) (k : CoreId) (rt ra : Fin 32) (imm : BitVec 15) (i : Instr) (cause : Nat), s.CoreIdle k →
        (i = .lrd k rt ra imm ∧ (s.localOff k ra imm % 4 ≠ 0 ∨ lrdOk (s.localOff k ra imm) = false) ∨
          i = .lwr k rt ra imm ∧ (s.localOff k ra imm % 4 ≠ 0 ∨ lwrOk (s.localOff k ra imm) = false)) →
        cause = (if s.localOff k ra imm % 4 ≠ 0 then 6 else 3) →
        Answers i s fun t => t.coreFaulted k = true ∧ t.reg (.cor k) COR_FAULT = cause ∧ t.pc k = s.pc k ∧
          (∀ r, t.gpr k r = s.gpr k r) ∧ t.mem = s.mem)

/-- On an idle core that fetches, with no double-bit error in its descriptor, DMA_ISSUE of an aligned descriptor that passes
the checks takes it up at once and moves no byte yet; a copy within the core's scratch also takes no slot and changes nothing
else. One that fails the checks stops the core with cause 5. When the rest of a descriptor in progress is performed without a
fault, and its source holds no error, DMA_DONE performs it, counts it, removes the descriptor and signals its sync object;
when a page of it faults, DMA_PAGE_FAULT performs what comes before, removes it and stops the core with that fault, and it
never signals. That an access of a copy moves its bytes when it is performed, and the rest of them at DMA_DONE, is the
model's choice (log entry 14). (R153, R156, R157, R158, R160, R162) -/
def Obligations.DmaDescriptorsRunAndSignal : Prop :=
  (∀ (s : State) (k : CoreId) (o : W32) (e : Ecc), s.CoreIdle k → o.toNat % 64 = 0 → inCoreScratch o.toNat 64 = true →
        s.dmaRefused k (s.dmaDesc k o.toNat) = false → eccLost e [(o.toNat, 64)] = none →
        Answers (.dmaIssue k ⟨o, e⟩) s fun t =>
          (t.core k).dmaRun.map (·.desc) = [s.dmaDesc k o.toNat] ∧ Retired k s t ∧ t.mem = s.mem ∧ (∀ r, t.gpr k r = s.gpr k r) ∧
          ((s.dmaDesc k o.toNat).readsJob = false → (s.dmaDesc k o.toNat).writesJob = false →
            t.core k = { s.core k with dmaRun := [⟨0, s.dmaDesc k o.toNat, 0, 0, [], []⟩] } ∧
            CoreFrame k (corRegs k [COR_PC, COR_CNT_INSTR, COR_CNT_SCRATCH_CE]) s t)) ∧
      (∀ (s : State) (k : CoreId) (o : W32) (e : Ecc), s.CoreIdle k → o.toNat % 64 = 0 → inCoreScratch o.toNat 64 = true →
        s.dmaRefused k (s.dmaDesc k o.toNat) = true → eccLost e [(o.toNat, 64)] = none →
        Answers (.dmaIssue k ⟨o, e⟩) s fun t => t.coreFaulted k = true ∧ t.reg (.cor k) COR_FAULT = 5 ∧ t.pc k = s.pc k ∧ t.mem = s.mem) ∧
      (∀ (s : State) (k : CoreId) (i : Fin 4) (r : DmaRun) (f : CopyFound), s.coreFaulted k = false →
        (s.core k).dmaRun[i.val]? = some r → (s.dmaError k r.desc f).2 = none →
        let x := (s.dmaError k r.desc f).1.dmaFinish k r
        x.2 = none →
        ∃ u : State, Machine.exec (.dmaDone k i f) s =
            .next ((u.signal [⟨k.cluster.coreAt r.desc.doneCore, r.desc.doneSync, 1⟩]).kick k) ∧
          u.mem = x.1.mem ∧ (u.core k).dmaRun = (x.1.core k).dmaRun.eraseIdx i.val ∧ (∀ g, u.gpr k g = s.gpr k g) ∧
          u.reg (.cor k) COR_CNT_DMA_DONE = (s.reg (.cor k) COR_CNT_DMA_DONE + 1) % 2 ^ 32) ∧
      (∀ (s : State) (k : CoreId) (i : Fin 4) (r : DmaRun) (cause a : Nat), s.coreFaulted k = false →
        (s.core k).dmaRun[i.val]? = some r → (s.dmaFinish k r).2 = some (cause, a) → cause < 4 →
        Answers (.dmaPageFault k i) s fun t =>
          t.coreFaulted k = true ∧ t.coreRunning k = false ∧ t.reg (.cor k) COR_FAULT = cause ∧
          t.reg (.cor k) COR_FAULT_ADDR_LO = a % 2 ^ 32 ∧ t.mem = (s.dmaFinish k r).1.mem)

/-- On an idle core that fetches: MBEGIN of a legal kind on a closed group, with the pairing of FP64 groups kept, leaves the
group open, empty and of that kind; a MACC that is not refused, and meets no double-bit error, appends its K-steps to the
group's sums, selects the array it ran on, and signals if its descriptor asks for it; MABORT closes a group without writing.
No byte of memory and no general register changes. (R174, R175, R176) -/
def Obligations.MatrixGroupsOpenAndAccumulate : Prop :=
  (∀ (s : State) (k : CoreId) (g kind : Fin 4), s.CoreIdle k → kind ≠ 3 → (s.group k g).isOpen = false → s.pairedAway k g = false →
        (kind = 2 → g.val % 2 = 0 ∧ (s.group k (partner g)).isOpen = false) →
        Answers (.mbegin k g kind 0) s fun t =>
          t.core k = { s.core k with groups := (s.core k).groups.set g.val ⟨true, kind.val, 0, []⟩ } ∧
          Retired k s t ∧ CoreFrame k (retireRegs k) s t) ∧
      (∀ (s : State) (k : CoreId) (g : Fin 4) (rs : Fin 32) (imm : BitVec 13) (e : Ecc),
        let o := s.mtxOff k rs imm
        let d := s.maccDesc k o
        s.CoreIdle k → s.maccReason k g o = 0 → eccLost e (d.reads o) = none →
        AnswersSignalling (.macc k g rs imm 0 e) s (if d.signal then [doneSig k d.done] else []) fun u =>
          u.core k = { s.core k with groups := (s.core k).groups.set g.val (s.accumulate k d (s.group k g)),
                                     activeArray := if d.thin then 2 else 1 } ∧
          Retired k s u ∧ CoreFrame k (corRegs k [COR_PC, COR_CNT_INSTR, COR_CNT_SCRATCH_CE, MTX_CNT_SWITCH, MTX_CNT_THIN_CYC,
            MTX_CNT_DENSE_CYC, MTX_STALL_STAGE, MTX_STALL_WAKE]) s u) ∧
      (∀ (s : State) (k : CoreId) (g : Fin 4), s.CoreIdle k → s.pairedAway k g = false →
        Answers (.mabort k g 0) s fun t =>
          t.core k = { s.core k with groups := (s.core k).groups.set g.val Group.closed } ∧
          Retired k s t ∧ CoreFrame k (retireRegs k) s t)

/-- On an idle core that fetches, a MEND that is not refused, and meets no double-bit error in its descriptor or C, closes
its group, counts it, and signals its DONE object. Where the output format is an unscaled one, every element of the tile
reads back as the drained, scaled and added value in that format. Memory outside the rows of the tile, and outside the
64-byte sidecar of a scaled output, is as it was, and no general register changes. (R184, R185, R201) -/
def Obligations.MendWritesItsTileAndCloses : Prop :=
  ∀ (s : State) (k : CoreId) (g : Fin 4) (rs : Fin 32) (imm : BitVec 13) (e : Ecc),
      let o := s.mtxOff k rs imm
      let d := s.mendDesc k o
      s.CoreIdle k → s.mendReason k g o = 0 → eccLost e (d.reads o (s.group k g).kind) = none →
      AnswersSignalling (.mend k g rs ⟨imm, e⟩ 0) s [doneSig k d.done] fun u =>
        u.group k g = Group.closed ∧ u.reg (.cor k) MTX_CNT_GROUPS = (s.reg (.cor k) MTX_CNT_GROUPS + 1) % 2 ^ 32 ∧
        (d.scaled = false → ∀ m n, m < d.rows → n < d.cols →
          u.scrRd k (d.out + m * d.outStride + n * (outBits d.fmt / 8)) (outBits d.fmt / 8) =
            mendPlain d.fmt (s.mendElem k d (s.group k g) m n) % 2 ^ outBits d.fmt) ∧
        (∀ x, (∀ m, m < d.rows → x < scratchBase k + (d.out + m * d.outStride) ∨
              scratchBase k + (d.out + m * d.outStride) + bytesOf d.cols (outBits d.fmt) ≤ x) →
            (d.scaled = true → x < scratchBase k + d.sidecar ∨ scratchBase k + d.sidecar + 64 ≤ x) →
            u.readByte x = s.readByte x) ∧
        (∀ r, u.gpr k r = s.gpr k r) ∧ Retired k s u ∧ CoreOnly k s u

/-- On an idle core that fetches: with its queue empty, MQCFG of a base and capacity within scratch writes the configuration,
and MQSET of a length within the capacity sets HEAD to 0 and TAIL to the length; MTAKE gives the entry at HEAD and advances
HEAD, or gives 0xFFFFFFFF from an empty queue; MSTEAL gives the entry before the TAIL of the first stealable neighbour with
work and lowers that TAIL, or 0xFFFFFFFF when there is none. With the queue not empty MQCFG and MQSET are refused with reason
9 and the core stops. (R191, R192, R193) -/
def Obligations.SegmentQueueCommands : Prop :=
  (∀ (s : State) (k : CoreId) (rs : Fin 32), let v := (s.gpr k rs).toNat
        s.CoreIdle k → s.wqEmpty k = true → bits v 13 4 ≤ 12 → bits v 0 13 * 64 + 2 ^ bits v 13 4 * 4 ≤ scratchBytes →
        Answers (.mqcfg k rs 0) s fun t => t.reg (.cor k) MTX_WQ_CFG = bits v 0 20 ∧ t.core k = s.core k ∧ Retired k s t ∧
          CoreFrame k (corRegs k [COR_PC, COR_CNT_INSTR, MTX_WQ_CFG]) s t) ∧
      (∀ (s : State) (k : CoreId) (rs : Fin 32), let v := (s.gpr k rs).toNat
        s.CoreIdle k → s.wqEmpty k = true → v ≤ 2 ^ s.field (.cor k) MTX_WQ_CFG 13 4 →
        Answers (.mqset k rs 0) s fun t => t.wqHead k = 0 ∧ t.wqTail k = v ∧ t.core k = s.core k ∧
          Retired k s t ∧ CoreFrame k (corRegs k [COR_PC, COR_CNT_INSTR, MTX_WQ_HEAD, MTX_WQ_TAIL]) s t) ∧
      (∀ (s : State) (k : CoreId) (rs : Fin 32) (i : Instr), s.CoreIdle k → s.wqEmpty k = false →
        (i = .mqcfg k rs 0 ∨ i = .mqset k rs 0) →
        Answers i s fun t => t.coreFaulted k = true ∧ t.reg (.cor k) MTX_FAULT = 9 ∧ t.reg (.cor k) COR_FAULT = 4 ∧ t.pc k = s.pc k) ∧
      (∀ (s : State) (k : CoreId) (rd : Fin 32) (e : Ecc), s.CoreIdle k →
        (s.wqHead k < s.wqTail k → eccLost e [(s.wqOff k (s.wqHead k), 4)] = none) →
        Answers (.mtake k ⟨rd, e⟩ 0) s fun t =>
          t.gpr k rd = (if rd = 0 then 0 else if s.wqHead k < s.wqTail k then s.wqEntry k (s.wqHead k) else 0xFFFFFFFF) ∧
          t.wqHead k = (if s.wqHead k < s.wqTail k then s.wqHead k + 1 else s.wqHead k) ∧ t.wqTail k = s.wqTail k ∧
          (∀ r, r ≠ rd → t.gpr k r = s.gpr k r) ∧ Retired k s t ∧
          CoreFrame k (corRegs k [COR_PC, COR_CNT_INSTR, COR_CNT_SCRATCH_CE, MTX_WQ_HEAD, MTX_CNT_TAKEN]) s t) ∧
      (∀ (s : State) (k : CoreId) (rd : Fin 32) (e : Ecc), s.CoreIdle k →
        (∀ n, s.windowEcc [(scratchBase n + s.wqOff n (s.wqTail n - 1), 4)] e = (s, none)) →
        Answers (.msteal k ⟨rd, e⟩ 0) s fun t =>
          match (s.victims k).find? fun n => s.flag (.cor n) MTX_WQ_CFG 19 && decide (s.wqHead n < s.wqTail n) with
          | some n => t.gpr k rd = (if rd = 0 then 0 else s.wqEntry n (s.wqTail n - 1)) ∧ t.wqTail n = s.wqTail n - 1 ∧
              (∀ r, r ≠ rd → t.gpr k r = s.gpr k r) ∧ Retired k s t ∧
              CoreFrame k (corRegs k [COR_PC, COR_CNT_INSTR, MTX_CNT_STOLE] ++ corRegs n [MTX_WQ_TAIL, MTX_CNT_STOLEN]) s t
          | none => t.gpr k rd = (if rd = 0 then 0 else 0xFFFFFFFF) ∧ (∀ r, r ≠ rd → t.gpr k r = s.gpr k r) ∧ Retired k s t ∧
              CoreFrame k (retireRegs k) s t)

/-- On an idle core that fetches, VADD, VSUB, VMUL, VFMA, VMIN, VMAX, VDIV, VSQRT, VRCP, VEXP, VLOG, VTANH, VSIGM, VCMPEQ,
VCMPLT, VCMPLE, VCMPNE, VSEL, VAND, VOR, VXOR, VSHL, VSHR, VMOV, VLDEXP and VRESADD, where the form is not refused, write to
VD each active lane's result on the elements of VA, VB (element 0 of VB under BZERO) and VD as they were, leave the inactive
lanes and every other vector register alone, and change nothing else but the program counter and the instruction counters.
(R218, R221, R223, R234) -/
def Obligations.ElementwiseFormsWriteTheirLanes : Prop :=
  ∀ (s : State) (k : CoreId) (f : EwOp) (x : VForm), s.CoreIdle k → f ∈ plainEw → ewReason (s.core k) f x = 0 →
      Answers (ewInstr k x f) s fun t =>
        let c := s.core k
        let w := vwidth c.vfmt
        t.core k = c.setLanes w x.vd.val ((c.activeLanes w x.masked).map fun i =>
          (i, ewLane f c.vfmt (c.lane w x.va.val i) (c.laneB w x i) (c.lane w x.vd.val i) (c.lane w 0 i != 0) 0)) ∧
        VecDone k s t ∧ CoreFrame k (vecRegs k []) s t

/-- On an idle core that fetches, where the form is not refused: VABS and VNEG write each active lane, the result for the
most negative integer being a free value of the model (DESIGN CHOICE, log entry 2); VCVTW writes the widened elements; VCVTN
packs 16-bit results; VUPD writes its update lanes and VBERN its draws, and the generator moves on by VL elements where bits
are drawn; VCVTS packs the converted tile, writes its 64-byte sidecar, records the tile's largest magnitude in the
scale-manager entry and counts its retries, and a tile that stays saturated sets the sticky flag, counts and is logged.
Nothing else changes. (R207, R212, R224, R225, R243, R246) -/
def Obligations.ConversionsAndRandomFormsWriteTheirLanes : Prop :=
  (∀ (s : State) (k : CoreId) (f : EwOp) (x : VForm), s.CoreIdle k → f = .vabs ∨ f = .vneg → ewReason (s.core k) f x = 0 →
        Answers (ewInstr k x f) s fun t =>
          t.core k = (s.core k).setLanes (vwidth (s.core k).vfmt) x.vd.val
            (ewWrites (s.core k) f x fun i => (Config.freeValue (s.freeCount + i)).toNat) ∧ VecDone k s t ∧
          RegsOnly (vecRegs k []) s t ∧ CoreOnly k s t ∧
          t = { s with regs := t.regs, cores := t.cores, freeCount := s.freeCount + (s.core k).vl }) ∧
      (∀ (s : State) (k : CoreId) (x : VForm), s.CoreIdle k → ewReason (s.core k) .vcvtw x = 0 →
        Answers (.vcvtw k x) s fun t =>
          t.core k = (s.core k).setLanes (vwidth (s.core k).vfmt) x.vd.val (cvtwWrites (s.core k) x) ∧ VecDone k s t ∧
          CoreFrame k (vecRegs k []) s t) ∧
      (∀ (s : State) (k : CoreId) (x : VForm), s.CoreIdle k → ewReason (s.core k) .vcvtn x = 0 →
        Answers (.vcvtn k x) s fun t =>
          t.core k = (s.core k).setPacked x.vd.val 16 (cvtnWrites (s.core k) x) ∧ VecDone k s t ∧ CoreFrame k (vecRegs k []) s t) ∧
      (∀ (s : State) (k : CoreId) (x : VForm), s.CoreIdle k → ewReason (s.core k) .vupd x = 0 → x.mod.val = 0 →
        Answers (.vupd k x) s fun t =>
          let c := s.core k
          let w := vwidth c.vfmt
          t.core k = c.setLanes w x.vd.val ((c.activeLanes w x.masked).map fun i => (i, (vffmt c.vfmt).encode (vupdX c x i))) ∧
          VecDone k s t ∧ CoreFrame k (vecRegs k []) s t) ∧
      (∀ (s : State) (k : CoreId) (x : VForm), s.CoreIdle k → ewReason (s.core k) .vupd x = 0 → x.mod.val = 1 →
        Answers (.vupd k x) s fun t =>
          let c := s.core k
          let w := vwidth c.vfmt
          t.core k = { c.setLanes w x.vd.val ((c.activeLanes w x.masked).map fun i =>
            (i, (vffmt c.vfmt).sround (vupdX c x i) (c.gen.draw i))) with gen := c.gen.advance c.vl } ∧
          VecDone k s t ∧ CoreFrame k (vecRegs k []) s t) ∧
      (∀ (s : State) (k : CoreId) (x : VForm), s.CoreIdle k → ewReason (s.core k) .vupd x = 0 → x.mod.val = 2 →
        Answers (.vupd k x) s fun t =>
          let c := s.core k
          let r := (c.activeLanes (vwidth c.vfmt) x.masked).map fun i => (i, xm40Bits (vupdX c x i))
          t.core k = (c.setLanes 4 x.vd.val (r.map fun p => (p.1, p.2 / 256))).setLanes 1 (x.vd.val + 1)
            (r.map fun p => (p.1, p.2 % 256)) ∧ VecDone k s t ∧ CoreFrame k (vecRegs k []) s t) ∧
      (∀ (s : State) (k : CoreId) (x : VForm), s.CoreIdle k → ewReason (s.core k) .vbern x = 0 →
        Answers (.vbern k x) s fun t =>
          let c := s.core k
          let w := vwidth c.vfmt
          t.core k = { c.setLanes w x.vd.val ((c.activeLanes w x.masked).map fun i =>
            (i, b2n (decide (c.gen.draw i < c.lane w x.va.val i % 65536)))) with gen := c.gen.advance c.vl } ∧ VecDone k s t ∧ CoreFrame k (vecRegs k []) s t) ∧
      (∀ (s : State) (k : CoreId) (x : VForm), s.CoreIdle k → ewReason (s.core k) .vcvts x = 0 →
        Answers (.vcvts k x) s fun t =>
          let c := s.core k
          let p := cvtsParams c x
          let r := cvtsConvert c x (s.smEntry k p.1)
          (t.core k).vreg = (c.setPacked x.vd.val (modBits x.mod.val)
            ((c.activeLanes (vwidth c.vfmt) x.masked).zip r.bits)).vreg ∧
          t.scrBytes k p.2 64 = sidecarBytes r (sidecarFmt x.mod.val s.free)
            (if x.mod.val = 0 then (r.scales ++ List.replicate 32 0x7F).take 32 else List.replicate 32 0) ∧
          t.smEntry k p.1 = { s.smEntry k p.1 with
            stepMax := fp32.encode (XVal.max (fp32.decode (s.smEntry k p.1).stepMax) (fp32.decode (fp32.encode r.amax))) } ∧
          (∀ e, e ≠ p.1 → t.smEntry k e = s.smEntry k e) ∧ t.core k = { c with vreg := (t.core k).vreg, sm := (t.core k).sm } ∧
          (if r.saturated then Logged (.cor k) 0x1210 2 [] s t ∧ t.flag (.cor k) VEC_FLAGS flagSaturated = true
            else t.tally = s.tally ∧ t.reg (.cor k) VEC_FLAGS = s.reg (.cor k) VEC_FLAGS) ∧
          RegsOnly ((Blk.tly.base + TLY_CNT_LOST) :: vecRegs k [VEC_CNT_RETRIES, VEC_CNT_LINES, VEC_CNT_SATURATED, VEC_FLAGS]) s t ∧
          t = { s with regs := t.regs, cores := t.cores, mem := t.mem, tally := t.tally, freeCount := t.freeCount } ∧
          t.reg (.cor k) VEC_CNT_RETRIES = (s.reg (.cor k) VEC_CNT_RETRIES + r.attempt) % 2 ^ 32 ∧
          MemOnly (scratchBase k + p.2) 64 s t ∧ VecDone k s t ∧ CoreOnly k s t)

/-- On an idle core that fetches, a VPERM that is not refused writes to each written lane i the element of VA whose index VB
holds in lane i (element 0 of VB under BZERO), read as an unsigned integer of the lane width; where that index is VL or
greater the lane receives zero, and exactly then the sticky flag PERM_RANGE becomes set; it stays set if it was. Nothing else
changes. (R226) -/
def Obligations.PermuteTakesIndexedLanes : Prop :=
  ∀ (s : State) (k : CoreId) (x : VForm), s.CoreIdle k → clReason (s.core k) .vperm x = 0 →
      Answers (.vperm k x) s fun t =>
        let c := s.core k
        let w := vwidth c.vfmt
        t.core k = c.setLanes w x.vd.val ((c.activeLanes w x.masked).map fun i =>
          (i, if c.laneB w x i < c.vl then c.lane w x.va.val (c.laneB w x i) else 0)) ∧
        (t.flag (.cor k) VEC_FLAGS flagPermRange = true ↔
          s.flag (.cor k) VEC_FLAGS flagPermRange = true ∨ ∃ i ∈ c.activeLanes w x.masked, c.vl ≤ c.laneB w x i) ∧
        VecDone k s t ∧ CoreFrame k (vecRegs k [VEC_FLAGS]) s t

/-- On an idle core that fetches, where the form is not refused: VRSUM, VRSSQ, VRMAX, VRMIN and VRCNT write to lane g the
reduction of the active lanes of group g; VMV and VMVCOMB write mean, second moment and count; VSMSTAT and VSMMERGE write a
softmax record; VSMEXP and VSMNORM write the exponentials and the normalised values, a record with nothing in it giving zeros
and the flag SMX_EMPTY. Only VD and the registers that follow it, the flags and the counters change. (R227, R228, R229, R230,
R231) -/
def Obligations.CrossLaneFormsReduceTheirGroups : Prop :=
  (∀ (s : State) (k : CoreId) (f : ClOp) (x : VForm), s.CoreIdle k → f ∈ [ClOp.vrsum, .vrssq, .vrmax, .vrmin, .vrcnt] →
        clReason (s.core k) f x = 0 →
        Answers (clInstr k x f) s fun t =>
          let c := s.core k
          let n := 2 ^ x.mod.val
          t.core k = c.setLanes 4 x.vd.val ((upFrom 0 (groupCount c.vl n)).map fun g =>
            (g, c.reduceLanes f x.va.val (c.groupLanes x.masked n g))) ∧ VecDone k s t ∧ CoreFrame k (vecRegs k []) s t) ∧
      (∀ (s : State) (k : CoreId) (x : VForm), s.CoreIdle k → clReason (s.core k) .vmv x = 0 →
        Answers (.vmv k x) s fun t =>
          let c := s.core k
          let n := 2 ^ x.mod.val
          t.core k = c.setMvs x.vd.val ((upFrom 0 (groupCount c.vl n)).map fun g =>
            (g, c.mvLanes x.va.val (c.groupLanes x.masked n g))) ∧ VecDone k s t ∧ CoreFrame k (vecRegs k []) s t) ∧
      (∀ (s : State) (k : CoreId) (x : VForm), s.CoreIdle k → clReason (s.core k) .vmvcomb x = 0 →
        Answers (.vmvcomb k x) s fun t =>
          let c := s.core k
          t.core k = c.setMvs x.vd.val ((c.activeLanes 4 x.masked).map fun i =>
            (i, (c.mvAt x.va.val i).combine (c.mvAt x.vb.val (if x.bzero then 0 else i)))) ∧
          VecDone k s t ∧ CoreFrame k (vecRegs k []) s t) ∧
      (∀ (s : State) (k : CoreId) (x : VForm), s.CoreIdle k → clReason (s.core k) .vsmstat x = 0 →
        Answers (.vsmstat k x) s fun t =>
          let c := s.core k
          let ch := Smx.chunk ((c.activeLanes 4 x.masked).map fun i => c.lane 4 x.va.val i)
          t.core k = c.setSmx x.vd.val (if x.mod.val = 1 then ch else (c.smx x.vd.val).merge ch) ∧
          VecDone k s t ∧ CoreFrame k (vecRegs k []) s t) ∧
      (∀ (s : State) (k : CoreId) (x : VForm), s.CoreIdle k → clReason (s.core k) .vsmmerge x = 0 →
        Answers (.vsmmerge k x) s fun t =>
          t.core k = (s.core k).setSmx x.vd.val (((s.core k).smx x.va.val).merge ((s.core k).smx x.vb.val)) ∧
          VecDone k s t ∧ CoreFrame k (vecRegs k []) s t) ∧
      (∀ (s : State) (k : CoreId) (x : VForm), s.CoreIdle k → clReason (s.core k) .vsmexp x = 0 →
        Answers (.vsmexp k x) s fun t =>
          let c := s.core k
          t.core k = c.setLanes 4 x.vd.val ((upFrom 0 c.vl).map fun i =>
            (i, if c.active 4 x.masked i then smE (c.lane 4 x.va.val i) (c.smx x.vb.val).m else 0)) ∧
          VecDone k s t ∧ CoreFrame k (vecRegs k []) s t) ∧
      (∀ (s : State) (k : CoreId) (x : VForm), s.CoreIdle k → clReason (s.core k) .vsmnorm x = 0 →
        Answers (.vsmnorm k x) s fun t =>
          let c := s.core k
          let st := c.smx x.vb.val
          t.core k = c.setLanes 4 x.vd.val ((upFrom 0 c.vl).map fun i =>
            (i, if st.nan = 1 then fp32.nanBits else if isNegInf st.m then 0
              else if c.active 4 x.masked i then f32div (smE (c.lane 4 x.va.val i) st.m) st.l else 0)) ∧
          (st.nan ≠ 1 → isNegInf st.m = true → t.flag (.cor k) VEC_FLAGS flagSmxEmpty = true) ∧
          VecDone k s t ∧ CoreFrame k (vecRegs k [VEC_FLAGS]) s t)

/-- On an idle core that fetches, with a stride that is a multiple of the element width (and not zero, for VST) every element
aligned and within scratch, and no double-bit error in the words they lie in: VLD writes to each lane below VL the element at
base + 64 IMM + lane times stride; VST writes each lane's element to its offset, so that every lane reads back from its
offset, and no byte outside the elements changes. A stride that is no multiple of the element width, and a zero stride of
VST, is refused with reason 4 and the core stops. Else the first element, in lane order, that is misaligned stops the core
with cause 6, and one outside scratch with cause 3, at its offset: nothing is loaded or stored. (R222, R153, R155) -/
def Obligations.VectorLoadsAndStoresMoveTheirElements : Prop :=
  (∀ (s : State) (k : CoreId) (vd rs rt : Fin 32) (imm : BitVec 9) (e : Ecc),
        let c := s.core k
        let w := vwidth c.vfmt
        let off := fun i => vmemOff (s.gpr k rs).toNat (s.gpr k rt).toNat imm.toNat i
        s.CoreIdle k → sgn (s.gpr k rt).toNat 32 % w = 0 →
        vmemFault w (s.gpr k rs).toNat (s.gpr k rt).toNat imm.toNat (upFrom 0 c.vl) = none → eccLost e ((upFrom 0 c.vl).map fun i => ((off i).toNat, w)) = none →
        Answers (.vld k vd rs rt imm e) s fun t =>
          t.core k = c.setLanes w vd.val ((upFrom 0 c.vl).map fun i => (i, s.scrRd k (off i).toNat w)) ∧ t.mem = s.mem ∧
          VecDone k s t ∧ CoreFrame k (vecRegs k [VEC_CNT_LINES, COR_CNT_SCRATCH_CE]) s t) ∧
      (∀ (s : State) (k : CoreId) (vs rs rt : Fin 32) (imm : BitVec 9) (e : Ecc),
        let c := s.core k
        let w := vwidth c.vfmt
        let off := fun i => (vmemOff (s.gpr k rs).toNat (s.gpr k rt).toNat imm.toNat i).toNat
        s.CoreIdle k → sgn (s.gpr k rt).toNat 32 ≠ 0 → sgn (s.gpr k rt).toNat 32 % w = 0 →
        vmemFault w (s.gpr k rs).toNat (s.gpr k rt).toNat imm.toNat (upFrom 0 c.vl) = none →
        eccLost e ((upFrom 0 c.vl).map fun i => (off i, w)) = none →
        Answers (.vst k vs rs rt ⟨imm, e⟩) s fun t =>
          (∀ i, i < c.vl → t.scrRd k (off i) w = c.lane w vs.val i) ∧
          (∀ a, (∀ i, i < c.vl → a < scratchBase k + off i ∨ scratchBase k + off i + w ≤ a) → t.readByte a = s.readByte a) ∧
          t.core k = s.core k ∧ VecDone k s t ∧ RegsOnly (vecRegs k [VEC_CNT_LINES, COR_CNT_SCRATCH_CE]) s t ∧ CoreOnly k s t ∧
          t = { s with regs := t.regs, cores := t.cores, mem := t.mem }) ∧
      (∀ (s : State) (k : CoreId) (v rs rt : Fin 32) (imm : BitVec 9) (e : Ecc) (i : Instr), s.CoreIdle k →
        (sgn (s.gpr k rt).toNat 32 % vwidth (s.core k).vfmt ≠ 0 ∧ (i = .vld k v rs rt imm e ∨ i = .vst k v rs rt ⟨imm, e⟩) ∨
          sgn (s.gpr k rt).toNat 32 = 0 ∧ i = .vst k v rs rt ⟨imm, e⟩) →
        Answers i s fun t => t.coreFaulted k = true ∧ t.reg (.cor k) VEC_FAULT = 4 ∧ t.reg (.cor k) COR_FAULT = 4 ∧ t.mem = s.mem ∧
          (t.core k).vreg = (s.core k).vreg) ∧
      (∀ (s : State) (k : CoreId) (v rs rt : Fin 32) (imm : BitVec 9) (e : Ecc) (i : Instr) (n cause : Nat),
        let w := vwidth (s.core k).vfmt
        let off := vmemOff (s.gpr k rs).toNat (s.gpr k rt).toNat imm.toNat
        let within := fun j => 0 ≤ off j ∧ off j + w ≤ (scratchBytes : Int)
        s.CoreIdle k → sgn (s.gpr k rt).toNat 32 % w = 0 →
        (i = .vld k v rs rt imm e ∨ i = .vst k v rs rt ⟨imm, e⟩ ∧ sgn (s.gpr k rt).toNat 32 ≠ 0) →
        n < (s.core k).vl → (∀ j, j < n → off j % w = 0 ∧ within j) →
        (cause = 6 ∧ off n % w ≠ 0 ∨ cause = 3 ∧ off n % w = 0 ∧ ¬within n) →
        Answers i s fun t => t.coreFaulted k = true ∧ t.coreRunning k = false ∧ t.reg (.cor k) COR_FAULT = cause ∧
          t.reg (.cor k) COR_FAULT_ADDR_LO = unsgn (off n) 32 ∧ t.mem = s.mem ∧ (t.core k).vreg = (s.core k).vreg)

/-- On an idle core that fetches, with a word that sets no unnamed bit: VCFG gives VL, the smaller of g[RS] and VLMAX, to
g[RD] and sets VL and VFMT; VSUM gives the summary of FUNC to g[RD] (FUNC 7 the sticky flags, which it clears); SMCFG resets
an entry with its headroom and initial exponent; SMREAD gives STEP_MAX; SMCOMMIT stores the magnitude of g[RT] in HIST[PTR]
(NaN as +0.0, an infinity as the largest finite value), clears STEP_MAX and advances PTR; VRNGSET loads the generator from a
valid record. A reserved word, a VCFG of FUNC above 4 and an SMCFG of an operand out of rule are refused with reason 1, a
VRNGSET of a record out of rule with reason 3, and the core stops. (R205, R219, R232, R233, R243, R244) -/
def Obligations.VectorControlCommands : Prop :=
  (∀ (s : State) (k : CoreId) (rd rs : Fin 32) (func : Fin 16), s.CoreIdle k → func.val ≤ 4 →
        Answers (.vcfg k rd rs func 0) s fun t =>
          let vl := min (s.gpr k rs).toNat (vlmax func.val)
          t.gpr k rd = (if rd = 0 then 0 else BitVec.ofNat 32 vl) ∧ (∀ r, r ≠ rd → t.gpr k r = s.gpr k r) ∧
          (t.core k).vl = vl ∧ (t.core k).vfmt = func.val ∧ (t.core k).vreg = (s.core k).vreg ∧
          VecDone k s t ∧ CoreFrame k (vecRegs k []) s t) ∧
      (∀ (s : State) (k : CoreId) (rd va : Fin 32) (func : Fin 16), s.CoreIdle k →
        Answers (.vsum k rd va func 0) s fun t =>
          t.gpr k rd = (if rd = 0 then 0 else BitVec.ofNat 32
            (if func.val % 8 = 7 then s.reg (.cor k) VEC_FLAGS % 16 else (s.core k).summary va.val func.val)) ∧
          (func.val % 8 = 7 → t.reg (.cor k) VEC_FLAGS = 0) ∧ (∀ r, r ≠ rd → t.gpr k r = s.gpr k r) ∧
          (t.core k).vreg = (s.core k).vreg ∧ (t.core k).stall = .none ∧ VecDone k s t ∧
          CoreFrame k (vecRegs k [VEC_FLAGS, VEC_CNT_SUMMARIES]) s t) ∧
      (∀ (s : State) (k : CoreId) (rs : Fin 32), let v := (s.gpr k rs).toNat
        s.CoreIdle k → bits v 6 2 = 0 → bits v 10 6 = 0 → bits v 24 8 = 0 → -124 ≤ sgn (bits v 16 8) 8 → sgn (bits v 16 8) 8 ≤ 124 →
        Answers (.smcfg k rs 0) s fun t =>
          t.smEntry k (bits v 0 6) = { SmEntry.reset with headroom := bits v 8 2, initExp := sgn (bits v 16 8) 8 } ∧
          (∀ e, e ≠ bits v 0 6 → t.smEntry k e = s.smEntry k e) ∧ VecDone k s t ∧ CoreFrame k (vecRegs k []) s t) ∧
      (∀ (s : State) (k : CoreId) (rd rs : Fin 32), s.CoreIdle k →
        Answers (.smread k rd rs 0) s fun t =>
          t.gpr k rd = (if rd = 0 then 0 else BitVec.ofNat 32 (s.smEntry k ((s.gpr k rs).toNat % 64)).stepMax) ∧
          (∀ r, r ≠ rd → t.gpr k r = s.gpr k r) ∧ (t.core k).stall = .none ∧ VecDone k s t ∧
          CoreFrame k (vecRegs k [VEC_CNT_SUMMARIES]) s t) ∧
      (∀ (s : State) (k : CoreId) (rs rt : Fin 32), s.CoreIdle k →
        Answers (.smcommit k rs rt 0) s fun t =>
          let e := (s.gpr k rs).toNat % 64
          let x := s.smEntry k e
          t.smEntry k e = { x with
            hist := x.hist.set x.ptr (match fp32.decode (s.gpr k rt).toNat with
              | .nan => 0
              | .inf _ => 0x7F7FFFFF
              | v => fp32.encode v.abs)
            ptr := (x.ptr + 1) % 16, stepMax := 0 } ∧
          (∀ i, i ≠ e → t.smEntry k i = s.smEntry k i) ∧ VecDone k s t ∧ CoreFrame k (vecRegs k []) s t) ∧
      (∀ (s : State) (k : CoreId) (rs : Fin 32) (e : Ecc), let o := (s.gpr k rs).toNat
        s.CoreIdle k → eccLost e [(o, 64)] = none → o % 64 = 0 → inCoreScratch o 64 = true → bits (s.scrRd k (o + 0x20) 4) 1 31 = 0 →
        allZero (s.scrBytes k (o + 0x24) 28) = true →
        Answers (.vrngset k ⟨rs, e⟩ 0) s fun t =>
          (t.core k).gen = ⟨BitVec.ofNat 64 (s.scrRd k o 8), BitVec.ofNat 64 (s.scrRd k (o + 8) 8),
            BitVec.ofNat 64 (s.scrRd k (o + 0x10) 8), BitVec.ofNat 64 (s.scrRd k (o + 0x18) 8), bit (s.scrRd k (o + 0x20) 4) 0⟩ ∧
          (t.core k).vreg = (s.core k).vreg ∧ VecDone k s t ∧ CoreFrame k (vecRegs k [VEC_CNT_LINES, COR_CNT_SCRATCH_CE]) s t) ∧
      (∀ (s : State) (k : CoreId) (rs : Fin 32), let o := (s.gpr k rs).toNat
        s.CoreIdle k → o % 64 ≠ 0 ∨ inCoreScratch o 64 = false ∨ bits (s.scrRd k (o + 0x20) 4) 1 31 ≠ 0 ∨
          allZero (s.scrBytes k (o + 0x24) 28) = false →
        Answers (.vrngset k ⟨rs, .ok⟩ 0) s fun t => t.coreFaulted k = true ∧ t.reg (.cor k) VEC_FAULT = 3 ∧ t.reg (.cor k) COR_FAULT = 4 ∧
          (t.core k).gen = (s.core k).gen) ∧
      (∀ (s : State) (k : CoreId) (i : Instr) (w : W32), s.CoreIdle k →
        (w ≠ 0 ∧ ((∃ a b f, i = .vcfg k a b f w) ∨ (∃ a b f, i = .vsum k a b f w) ∨ (∃ a, i = .smcfg k a w) ∨ (∃ a b, i = .smread k a b w) ∨
          (∃ a b, i = .smcommit k a b w) ∨ (∃ a, i = .vrngset k a w)) ∨
          (∃ a b f, 4 < f.val ∧ i = .vcfg k a b f w) ∨
          (∃ rs, i = .smcfg k rs w ∧ let v := (s.gpr k rs).toNat
            bits v 6 2 ≠ 0 ∨ bits v 10 6 ≠ 0 ∨ bits v 24 8 ≠ 0 ∨ sgn (bits v 16 8) 8 < -124 ∨ 124 < sgn (bits v 16 8) 8)) →
        Answers i s fun t => t.coreFaulted k = true ∧ t.reg (.cor k) VEC_FAULT = 1 ∧ t.reg (.cor k) COR_FAULT = 4 ∧ t.mem = s.mem)

/-- On an idle core that fetches, for an object below 48 and a non-zero amount: SSIG through the core or any engine adds the
amount to the named object of the named core of the cluster, where the sum fits 16 bits and nothing there waits; SWAIT whose
threshold the count reaches subtracts it and counts the wait, and one that does not blocks (the core with WAITING set, an
engine with the wait at the head of its queue); SDEC subtracts its amount, and below zero stops the core with
SYN_ERROR.REASON 2; SREAD gives the count. A signal whose sum reaches the threshold of the wait that holds a core, or the
queue of an engine, lets it go, and the wait takes its threshold; one whose sum passes 0xFFFF changes no count and stops the
object's core with SYN_ERROR.REASON 1. An object of 48 or more, and an amount of zero in SSIG or SWAIT, is an illegal
instruction. (R251, R252, R253, R254, R255) -/
def Obligations.SyncInstructionsCountAndTake : Prop :=
  (∀ (s : State) (k : CoreId) (q : QSel) (c : Fin 16) (o : Fin 64) (rs : Fin 32) (r : Bool) (a : BitVec 8),
        let j := k.cluster.coreAt c
        let n := s.syncAmount k rs r a
        s.CoreIdle k → s.Quiet j → o.val < 48 → n ≠ 0 → s.syncCount j o.val + n ≤ 0xFFFF →
        Answers (.ssig k q c o rs r a) s fun t =>
          t.syncCount j o.val = s.syncCount j o.val + n ∧
          t.reg (.cor j) SYN_CNT_SIGNALS = (s.reg (.cor j) SYN_CNT_SIGNALS + 1) % 2 ^ 32 ∧ Retired k s t ∧ (∀ i, t.core i = s.core i) ∧
          RegsOnly (retireRegs k ++ corRegs j [SYN_OBJ o.val, SYN_CNT_SIGNALS]) s t ∧
          t = { s with regs := t.regs, cores := t.cores }) ∧
      (∀ (s : State) (k : CoreId) (q : QSel) (o : Fin 64) (rs : Fin 32) (r : Bool) (a : BitVec 8),
        let n := s.syncAmount k rs r a
        s.CoreIdle k → o.val < 48 → n ≠ 0 → n ≤ s.syncCount k o.val →
        Answers (.swait k q o rs r a 0) s fun t =>
          t.syncCount k o.val = s.syncCount k o.val - n ∧
          t.reg (.cor k) SYN_CNT_WAITS = (s.reg (.cor k) SYN_CNT_WAITS + 1) % 2 ^ 32 ∧ Retired k s t ∧ t.core k = s.core k ∧
          CoreFrame k (corRegs k [COR_PC, COR_CNT_INSTR, SYN_OBJ o.val, SYN_CNT_WAITS]) s t) ∧
      (∀ (s : State) (k : CoreId) (q : QSel) (o : Fin 64) (rs : Fin 32) (r : Bool) (a : BitVec 8),
        let n := s.syncAmount k rs r a
        s.CoreIdle k → o.val < 48 → s.syncCount k o.val < n →
        Answers (.swait k q o rs r a 0) s fun t =>
          (∃ due, t.waitOf k q = some (o.val, n, due, false)) ∧ t.syncCount k o.val = s.syncCount k o.val ∧
          (q = .core → t.flag (.cor k) COR_STATE stWaiting = true) ∧ Retired k s t ∧ CoreOnly k s t ∧ t.mem = s.mem) ∧
      (∀ (s : State) (k : CoreId) (o : Fin 64) (rs : Fin 32), let n := (s.gpr k rs).toNat % 2 ^ 16
        s.CoreIdle k → o.val < 48 →
        (n ≤ s.syncCount k o.val → Answers (.sdec k o rs 0) s fun t =>
          t.syncCount k o.val = s.syncCount k o.val - n ∧ Retired k s t ∧ t.core k = s.core k ∧
          CoreFrame k (corRegs k [COR_PC, COR_CNT_INSTR, SYN_OBJ o.val]) s t) ∧
        (s.syncCount k o.val < n → Answers (.sdec k o rs 0) s fun t =>
          t.coreFaulted k = true ∧ t.coreRunning k = false ∧ t.reg (.cor k) SYN_ERROR = 2 + o.val * 8 + n * 2 ^ 16 ∧
          t.syncCount k o.val = s.syncCount k o.val ∧ t.pc k = s.pc k)) ∧
      (∀ (s : State) (k : CoreId) (rd : Fin 32) (o : Fin 64), s.CoreIdle k → o.val < 48 →
        Answers (.sread k rd o 0) s fun t =>
          t.gpr k rd = (if rd = 0 then 0 else BitVec.ofNat 32 (s.syncCount k o.val)) ∧ (∀ r, r ≠ rd → t.gpr k r = s.gpr k r) ∧
          Retired k s t ∧ CoreFrame k (retireRegs k) s t) ∧
      (∀ (s : State) (k : CoreId) (q : QSel) (c : Fin 16) (o : Fin 64) (rs : Fin 32) (r : Bool) (a : BitVec 8) (h due : Nat) (w : Bool),
        let j := k.cluster.coreAt c
        let n := s.syncAmount k rs r a
        s.CoreIdle k → s.enabled (.cor j) = true → s.coreFaulted j = false → (s.core j).dmaRun = [] → o.val < 48 → n ≠ 0 →
        h ≤ s.syncCount j o.val + n → s.syncCount j o.val + n ≤ 0xFFFF →
        ((s.core j).stall = .swait o.val h due w → (s.core j).mtxQ = [] → (s.core j).vecQ = [] → (s.core j).dmaQ = [] →
          Answers (.ssig k q c o rs r a) s fun t =>
            t.syncCount j o.val = s.syncCount j o.val + n - h ∧ t.core j = { s.core j with stall := .none } ∧
            t.flag (.cor j) COR_STATE stWaiting = false ∧
            t.reg (.cor j) SYN_CNT_WAITS = (s.reg (.cor j) SYN_CNT_WAITS + 1) % 2 ^ 32) ∧
        (∀ e : EngineId, (s.core j).stall = .none → (s.core j).queue e = [.wait o.val h due w] →
          (∀ f, f ≠ e → (s.core j).queue f = []) →
          Answers (.ssig k q c o rs r a) s fun t =>
            t.syncCount j o.val = s.syncCount j o.val + n - h ∧ t.core j = (s.core j).setQueue e [] ∧
            t.reg (.cor j) SYN_CNT_WAITS = (s.reg (.cor j) SYN_CNT_WAITS + 1) % 2 ^ 32)) ∧
      (∀ (s : State) (k : CoreId) (q : QSel) (c : Fin 16) (o : Fin 64) (rs : Fin 32) (r : Bool) (a : BitVec 8),
        let j := k.cluster.coreAt c
        let n := s.syncAmount k rs r a
        s.CoreIdle k → s.Quiet j → s.coreFaulted j = false → o.val < 48 → 0xFFFF < s.syncCount j o.val + n →
        Answers (.ssig k q c o rs r a) s fun t =>
          t.syncCount j o.val = s.syncCount j o.val ∧ t.coreFaulted j = true ∧ t.coreRunning j = false ∧
          t.reg (.cor j) SYN_ERROR = 1 + o.val * 8 + n * 2 ^ 16 ∧ t.mem = s.mem) ∧
      (∀ (s : State) (k : CoreId) (q : QSel) (c : Fin 16) (o : Fin 64) (rs : Fin 32) (r : Bool) (a : BitVec 8) (i : Instr),
        let n := s.syncAmount k rs r a
        s.CoreIdle k →
        ((47 < o.val ∨ n = 0) ∧ (i = .ssig k q c o rs r a ∨ i = .swait k q o rs r a 0) ∨
          47 < o.val ∧ (i = .sdec k o rs 0 ∨ i = .sread k rs o 0)) →
        Answers i s fun t => t.coreFaulted k = true ∧ t.coreRunning k = false ∧ t.reg (.cor k) COR_FAULT = 4 ∧ t.pc k = s.pc k ∧
          (∀ g, t.gpr k g = s.gpr k g) ∧ t.mem = s.mem)

/-- A wait that blocks takes as its limit SYN_WDOG.LIMIT_US microseconds from then. When a wait of the core or of an engine
has blocked for longer, code 0x1015 is logged with the object, the waiter and the count, SYN_CNT_WDOG counts it, and the wait
goes on, marked as reported; a wait that has been reported, or is within its limit, is left as it is. (R257) -/
def Obligations.WatchdogsReportOnceAndTheWaitGoesOn : Prop :=
  (∀ (s : State) (k : CoreId) (q : QSel) (o : Fin 64) (rs : Fin 32) (r : Bool) (a : BitVec 8),
        s.CoreIdle k → o.val < 48 → s.syncCount k o.val < s.syncAmount k rs r a →
        Answers (.swait k q o rs r a 0) s fun t =>
          t.waitOf k q = some (o.val, s.syncAmount k rs r a, s.clock + s.field (.cor k) SYN_WDOG 0 20 * 1000, false)) ∧
      (∀ (s : State) (k : CoreId) (q : QSel) (o n due : Nat), s.waitOf k q = some (o, n, due, false) → due < s.clock →
        Answers (.syncWatchdog k q) s fun t =>
          Logged (.cor k) 0x1015 2 [o, qselNumber q, s.syncCount k o] s t ∧
          t.reg (.cor k) SYN_CNT_WDOG = (s.reg (.cor k) SYN_CNT_WDOG + 1) % 2 ^ 32 ∧ t.waitOf k q = some (o, n, due, true) ∧
          t.syncCount k o = s.syncCount k o ∧ CoreOnly k s t ∧ t.mem = s.mem) ∧
      (∀ (s : State) (k : CoreId) (q : QSel) (o n due : Nat) (r : Bool), s.waitOf k q = some (o, n, due, r) →
        r = true ∨ s.clock ≤ due → Machine.exec (.syncWatchdog k q) s = .next s)

/-- On an idle core that fetches and takes part in the barrier, with no arrival of its own pending: a BARR that leaves
another participant missing sets its ARRIVED bit alone; a BSYNC that does so also waits; the last arrival flips PHASE and
counts the phase, early arrivals become the arrivals of the next, those stalled at a second early arrival become early ones,
and waiters with no arrival left go on; so neither BARR nor BSYNC of the last waits; an arrival while one is pending is
early, and a second early one stalls its core; a BWAIT with no arrival pending returns at once, and with one pending waits. A
core that has waited at a barrier for BAR_WDOG (the example of R264 logs at that beat) is logged once, with its bit in
BAR_STATUS. (R259, R260, R261, R262, R264) -/
def Obligations.BarrierArrivalsWaitsAndTimeouts : Prop :=
  (∀ (s : State) (k : CoreId) (b : Fin 8), let c := k.cluster
        s.CoreIdle k → bit (s.barMask c b.val) k.core.val = true → bits (s.reg (.clu c) (BAR_STATE b.val)) 0 16 = 0 →
        s.early c b.val k.core.val = false → (∃ i : Fin 16, i ≠ k.core ∧ bit (s.barMask c b.val) i.val = true) →
        (Answers (.barr k b 0) s fun t => t.arrived c b.val k.core.val = true ∧ (t.core k).stall = .none ∧
          bits (t.reg (.clu c) (BAR_STATE b.val)) 0 16 = 2 ^ k.core.val ∧ Retired k s t ∧
          CoreFrame k (retireRegs k ++ [(Blk.clu c).base + BAR_STATE b.val]) s t) ∧
        (Answers (.bsync k b 0) s fun t => t.arrived c b.val k.core.val = true ∧ (t.core k).stall = .bwait b.val s.clock false ∧
          t.flag (.cor k) COR_STATE stWaiting = true ∧ Retired k s t ∧
          CoreFrame k (corRegs k [COR_PC, COR_CNT_INSTR, COR_STATE] ++ [(Blk.clu c).base + BAR_STATE b.val]) s t)) ∧
      (∀ (s : State) (k : CoreId) (b : Fin 8) (i : Instr), let c := k.cluster
        s.CoreIdle k → i = .barr k b 0 ∨ i = .bsync k b 0 → s.barMask c b.val = 2 ^ k.core.val →
        s.reg (.clu c) (BAR_STATE b.val) = 0 → (∀ j, s.flag (.clu c) (BAR_PHASE b.val) j = false ∨ 16 ≤ j) →
        (∀ j, j ≠ k.core → (s.core (c.coreAt j)).stall = .none) →
        Answers i s fun t =>
          t.reg (.clu c) (BAR_STATE b.val) = 0 ∧ t.field (.clu c) (BAR_PHASE b.val) 16 1 = 1 - s.field (.clu c) (BAR_PHASE b.val) 16 1 ∧
          t.reg (.clu c) (BAR_CNT_DONE b.val) = (s.reg (.clu c) (BAR_CNT_DONE b.val) + 1) % 2 ^ 32 ∧ (t.core k).stall = .none ∧
          t.flag (.cor k) COR_STATE stWaiting = (if i = .barr k b 0 then s.flag (.cor k) COR_STATE stWaiting else false) ∧
          Retired k s t) ∧
      (∀ (s : State) (k : CoreId) (b : Fin 8) (i : Instr), let c := k.cluster
        s.CoreIdle k → i = .barr k b 0 ∨ i = .bsync k b 0 → bit (s.barMask c b.val) k.core.val = true →
        s.arrived c b.val k.core.val = false → s.early c b.val k.core.val = false →
        (∀ j : Fin 16, j ≠ k.core → bit (s.barMask c b.val) j.val = true → s.arrived c b.val j.val = true) →
        Answers i s fun t =>
          (∀ j : Fin 16, t.arrived c b.val j.val = s.early c b.val j.val) ∧
          (∀ j : Fin 16, t.early c b.val j.val = true ↔ ∃ since w x, (s.core (c.coreAt j)).stall = .barr b.val since w x) ∧
          t.field (.clu c) (BAR_PHASE b.val) 16 1 = 1 - s.field (.clu c) (BAR_PHASE b.val) 16 1 ∧
          t.reg (.clu c) (BAR_CNT_DONE b.val) = (s.reg (.clu c) (BAR_CNT_DONE b.val) + 1) % 2 ^ 32 ∧ (t.core k).stall = .none ∧
          (∀ j : Fin 16, j ≠ k.core → (t.core (c.coreAt j)).stall =
            match (s.core (c.coreAt j)).stall with
            | .bwait o u w => if o = b.val ∧ s.early c b.val j.val = false then .none else .bwait o u w
            | .barr o u w x => if o = b.val then (if x then .bwait o s.clock false else .none) else .barr o u w x
            | x => x) ∧
          Retired k s t ∧ t.mem = s.mem) ∧
      (∀ (s : State) (k : CoreId) (b : Fin 8) (i : Instr) (sync : Bool), let c := k.cluster
        s.CoreIdle k → i = .barr k b 0 ∧ sync = false ∨ i = .bsync k b 0 ∧ sync = true → bit (s.barMask c b.val) k.core.val = true →
        s.arrived c b.val k.core.val = true → (∃ j : Fin 16, bit (s.barMask c b.val) j.val = true ∧ s.arrived c b.val j.val = false) →
        (s.early c b.val k.core.val = false → Answers i s fun t =>
          t.early c b.val k.core.val = true ∧ t.reg (.clu c) (BAR_STATE b.val) = s.reg (.clu c) (BAR_STATE b.val) + 2 ^ (16 + k.core.val) ∧
          t.reg (.clu c) BAR_CNT_EARLY = (s.reg (.clu c) BAR_CNT_EARLY + 1) % 2 ^ 32 ∧
          (t.core k).stall = (if sync then .bwait b.val s.clock false else .none) ∧ Retired k s t ∧ CoreOnly k s t) ∧
        (s.early c b.val k.core.val = true → Answers i s fun t =>
          t.flag (.clu c) (BAR_PHASE b.val) k.core.val = true ∧ t.reg (.clu c) (BAR_STATE b.val) = s.reg (.clu c) (BAR_STATE b.val) ∧
          (t.core k).stall = .barr b.val s.clock false sync ∧ t.flag (.cor k) COR_STATE stWaiting = true ∧ Retired k s t ∧ CoreOnly k s t)) ∧
      (∀ (s : State) (k : CoreId) (b : Fin 8), let c := k.cluster
        s.CoreIdle k → bit (s.barMask c b.val) k.core.val = true →
        (s.arrived c b.val k.core.val = false → s.early c b.val k.core.val = false →
          Answers (.bwait k b 0) s fun t => t.core k = s.core k ∧ Retired k s t ∧ CoreFrame k (retireRegs k) s t) ∧
        (s.arrived c b.val k.core.val = true ∨ s.early c b.val k.core.val = true → Answers (.bwait k b 0) s fun t =>
          (t.core k).stall = .bwait b.val s.clock false ∧ t.flag (.cor k) COR_STATE stWaiting = true ∧ Retired k s t ∧
          CoreFrame k (corRegs k [COR_PC, COR_CNT_INSTR, COR_STATE]) s t)) ∧
      (∀ (s : State) (k : CoreId) (b : Fin 8) (since : Nat) (w w' : Stall), let c := k.cluster
        (s.core k).stall = w →
        (w = .bwait b.val since false ∧ w' = .bwait b.val since true ∨
          ∃ x, w = .barr b.val since false x ∧ w' = .barr b.val since true x) → since + s.field (.clu c) BAR_WDOG 0 20 * 1000 ≤ s.clock →
        Answers (.barrierTimeout k) s fun t =>
          Logged (.clu c) 0x1013 2 [b.val, k.core.val, s.field (.clu c) (BAR_STATE b.val) 0 16] s t ∧
          t.flag (.clu c) BAR_STATUS b.val = true ∧
          t.reg (.clu c) BAR_CNT_TIMEOUT = (s.reg (.clu c) BAR_CNT_TIMEOUT + 1) % 2 ^ 32 ∧
          (t.core k).stall = w' ∧ CoreOnly k s t ∧ t.mem = s.mem)

/-- On an idle core that fetches whose bit in the barrier's MASK is 0, a BARR, BWAIT or BSYNC stops the core as R255 says:
SYN_ERROR holds reason 3 and the barrier, FAULTED is set and RUNNING clear, code 0x1014 is logged, Blaze has fired, the job
the cluster runs has a stop pending, and NONPART for the barrier is set in BAR_STATUS. The barrier's state does not change.
(R263) -/
def Obligations.NonParticipantStopsAtABarrier : Prop :=
  ∀ (s : State) (k : CoreId) (b : Fin 8) (i : Instr), let c := k.cluster
      s.CoreIdle k → i = .barr k b 0 ∨ i = .bwait k b 0 ∨ i = .bsync k b 0 → bit (s.barMask c b.val) k.core.val = false →
      Answers i s fun t =>
        t.reg (.cor k) SYN_ERROR = 3 + b.val * 2 ^ 9 ∧ t.coreFaulted k = true ∧ t.coreRunning k = false ∧
        Logged (.cor k) 0x1014 3 [] s t ∧ t.blazeFired = true ∧ t.flag (.clu c) BAR_STATUS (8 + b.val) = true ∧
        (∀ j, s.slotOfCluster c = some j → (t.job j).stops.any (·.kind == .fault) = true) ∧
        t.reg (.clu c) (BAR_STATE b.val) = s.reg (.clu c) (BAR_STATE b.val) ∧ t.pc k = s.pc k ∧ t.mem = s.mem

/-- A write of CRU_QUEUE_HI, SKD_QUEUE_HI or SIL_QUEUE_HI of an enabled unit whose queue holds fewer than four descriptors
appends the address that the pair of registers forms, and changes nothing else. When the queue is full, or the powered unit
is disabled, the descriptor is discarded: bit 0 of the unit's status register is set and code 0x2007, 0x2106 or 0x2205 is
logged with the address. (R49, R79, R109) -/
def Obligations.UnitQueuesTakeFourDescriptors : Prop :=
  (∀ (s : State) (c : ClusterId) (v : W32),
        (s.enabled (.cru c) = true → (s.cruiser c).queue.length < 4 → Answers (.cruQueueHiWrite c v) s fun t =>
          (t.cruiser c).queue = (s.cruiser c).queue ++ [queueAddr (s.reg (.cru c) CRU_QUEUE_LO) v.toNat] ∧
          t = s.setCruiser c (t.cruiser c)) ∧
        (s.enabled (.skd c) = true → (s.skidder c).queue.length < 4 → Answers (.skdQueueHiWrite c v) s fun t =>
          (t.skidder c).queue = (s.skidder c).queue ++ [queueAddr (s.reg (.skd c) SKD_QUEUE_LO) v.toNat] ∧
          t = s.setSkidder c (t.skidder c)) ∧
        (s.enabled (.sil c) = true → (s.sillage c).queue.length < 4 → Answers (.silQueueHiWrite c v) s fun t =>
          (t.sillage c).queue = (s.sillage c).queue ++ [queueAddr (s.reg (.sil c) SIL_QUEUE_LO) v.toNat] ∧
          t = s.setSillage c (t.sillage c))) ∧
      (∀ (s : State) (c : ClusterId) (v : W32),
        (s.powered (.cru c) = true → 4 ≤ (s.cruiser c).queue.length ∨ s.enabled (.cru c) = false →
          Answers (.cruQueueHiWrite c v) s fun t => t.flag (.cru c) CRU_STATUS 0 = true ∧
            Logged (.cru c) 0x2007 2 (lohi (queueAddr (s.reg (.cru c) CRU_QUEUE_LO) v.toNat)) s t ∧
            t = { s with regs := t.regs, tally := t.tally, freeCount := t.freeCount }) ∧
        (s.powered (.skd c) = true → 4 ≤ (s.skidder c).queue.length ∨ s.enabled (.skd c) = false →
          Answers (.skdQueueHiWrite c v) s fun t => t.flag (.skd c) SKD_STATUS 0 = true ∧
            Logged (.skd c) 0x2106 2 (lohi (queueAddr (s.reg (.skd c) SKD_QUEUE_LO) v.toNat)) s t ∧
            t = { s with regs := t.regs, tally := t.tally, freeCount := t.freeCount }) ∧
        (s.powered (.sil c) = true → 4 ≤ (s.sillage c).queue.length ∨ s.enabled (.sil c) = false →
          Answers (.silQueueHiWrite c v) s fun t => t.flag (.sil c) SIL_STATUS 0 = true ∧
            Logged (.sil c) 0x2205 2 (lohi (queueAddr (s.reg (.sil c) SIL_QUEUE_LO) v.toNat)) s t ∧
            t = { s with regs := t.regs, tally := t.tally, freeCount := t.freeCount }))

/-- In a powered unit that is disabled, whose own checks pass and whose running CRC equals its reference, ENABLE goes to 1.
The Cruiser and the Skidder load their owner map, and the Skidder's cache epoch advances; the Sillage unit takes its valid
apply records; a core runs from PROG.BASE plus COR_ENTRY with its groups closed and its fault registers clear, or at a
pending resume; a tile interface holds no transfer of before and sends what its clusters hold for it; Landing holds no stream
and no reduction transfer; a port, whose write of ENABLE is posted, begins hail when the write takes effect, with no lock,
with the feed it is told of. No other register, unit or byte of memory changes. (R77, R97, R123, R170, R313, R333, R336,
R433, R435, R457) -/
def Obligations.EnablesStartTheirUnits : Prop :=
  (∀ (s : State) (c : ClusterId) (m : OwnerMap),
        s.powered (.cru c) = true → s.enabled (.cru c) = false →
        s.loadOwnerMap (queueAddr (s.reg (.cru c) CRU_OMAP_LO) (s.reg (.cru c) CRU_OMAP_HI)) = (m, 0) →
        s.crcNow (.cru c) = s.reg (.cru c) BLK_CFG_CRC_REF →
        Answers (.cruEnable c) s fun t => t.enabled (.cru c) = true ∧ t.reg (.cru c) CRU_OMAP_STATUS = 1 ∧
          (t.cruiser c).map = m ∧ RegsOnly [(Blk.cru c).base + BLK_CTRL, (Blk.cru c).base + CRU_OMAP_STATUS] s t ∧
          t = { s.setCruiser c { s.cruiser c with map := m } with regs := t.regs }) ∧
      (∀ (s : State) (c : ClusterId) (m : OwnerMap),
        s.powered (.skd c) = true → s.enabled (.skd c) = false →
        s.loadOwnerMap (queueAddr (s.reg (.skd c) SKD_OMAP_LO) (s.reg (.skd c) SKD_OMAP_HI)) = (m, 0) →
        s.rrcBad c = none → s.crcNow (.skd c) = s.reg (.skd c) BLK_CFG_CRC_REF →
        Answers (.skdEnable c) s fun t => t.enabled (.skd c) = true ∧ t.reg (.skd c) SKD_OMAP_STATUS = 1 ∧
          (t.skidder c).map = m ∧ (t.skidder c).epoch = ((s.skidder c).epoch + 1) % 2 ^ 16 ∧
          RegsOnly [(Blk.skd c).base + BLK_CTRL, (Blk.skd c).base + SKD_OMAP_STATUS] s t ∧
          t = { s.setSkidder c { s.skidder c with map := m, epoch := ((s.skidder c).epoch + 1) % 2 ^ 16, ways := [] } with regs := t.regs }) ∧
      (∀ (s : State) (c : ClusterId),
        s.powered (.sil c) = true → s.enabled (.sil c) = false → s.silBad c = none →
        s.crcNow (.sil c) = s.reg (.sil c) BLK_CFG_CRC_REF →
        Answers (.silEnable c) s fun t => t.enabled (.sil c) = true ∧ (t.sillage c).acc = [] ∧ (t.sillage c).refused = [] ∧
          (t.sillage c).applies = (slots8.filter fun i => s.flag (.sil c) (SIL_APPLY_LO i) 0).map (fun i => s.applyRec c i) ∧
          (t.sillage c).queue = (s.sillage c).queue ∧ (t.sillage c).trails = (s.sillage c).trails ∧
          (t.sillage c).ring = (s.sillage c).ring ∧ RegsOnly [(Blk.sil c).base + BLK_CTRL] s t ∧
          t = { s.setSillage c (t.sillage c) with regs := t.regs }) ∧
      (∀ (s : State) (k : CoreId),
        s.powered (.cor k) = true → s.enabled (.cor k) = false → s.corBad k = none →
        s.crcNow (.cor k) = s.reg (.cor k) BLK_CFG_CRC_REF →
        Answers (.corEnable k) s fun t => t.enabled (.cor k) = true ∧ t.coreRunning k = true ∧ t.coreFaulted k = false ∧
          t.reg (.cor k) COR_FAULT = 0 ∧ t.reg (.cor k) SYN_ERROR = 0 ∧ (t.core k).resume = none ∧
          (t.core k).mtxQ = [] ∧ (t.core k).vecQ = [] ∧ (t.core k).dmaQ = [] ∧ (∀ r, t.gpr k r = s.gpr k r) ∧
          ((s.core k).resume = none → t.pc k = s.field (.cor k) COR_PROG 0 9 * 1024 + s.field (.cor k) COR_ENTRY 2 17 * 4 ∧
            (t.core k).groups = List.replicate 4 Group.closed ∧ (t.core k).vl = 0 ∧ (t.core k).gen = GenState.reset) ∧
          (∀ r, (s.core k).resume = some r → t.pc k = r.pc / 4 * 4 % 2 ^ 19 ∧ (t.core k).vl = (s.core k).vl ∧
            (t.core k).gen = (s.core k).gen ∧
            (t.core k).groups = (if r.keepGroups then (s.core k).groups else List.replicate 4 Group.closed)) ∧
          RegsOnly (corRegs k [BLK_CTRL, COR_STATE, COR_FAULT, COR_FAULT_ADDR_LO, COR_FAULT_ADDR_HI, SYN_ERROR, MTX_FAULT, VEC_FAULT,
            VEC_FLAGS, COR_PC]) s t ∧ CoreOnly k s t ∧ t = { s with regs := t.regs, cores := t.cores }) ∧
      (∀ (s : State) (i : Fin 8),
        s.powered (.til i) = true → s.enabled (.til i) = false → s.tilBad i = none →
        s.crcNow (.til i) = s.reg (.til i) BLK_CFG_CRC_REF →
        let e := s.setFlag (.til i) BLK_CTRL 0
        let f := { Fabric.reset with ptr := (s.fabric i).ptr }
        Machine.exec (.tilEnable i) s = .next (clusters80.foldl (fun t c => t.drain ⟨i, c⟩) (e.setFabric i f)) ∧
        ((∀ c : Fin 80, (s.mailroom ⟨i, c⟩).outbox = []) → Answers (.tilEnable i) s fun t => t.enabled (.til i) = true ∧
          t.fabric i = f ∧ RegsOnly [(Blk.til i).base + BLK_CTRL] s t ∧ t = { s.setFabric i f with regs := t.regs })) ∧
      (∀ (s : State) (i : Fin 8),
        s.powered (.lnd i) = true → s.enabled (.lnd i) = false → s.lndBad i = none →
        s.crcNow (.lnd i) = s.reg (.lnd i) BLK_CFG_CRC_REF →
        Answers (.lndEnable i) s fun t => t.enabled (.lnd i) = true ∧ t.landing i = Landing.reset ∧
          t.reg (.lnd i) LND_FAULT = 0 ∧ t.fabric i = { s.fabric i with rx := (s.fabric i).rx.filter fun x => x.typ != typReduce } ∧
          RegsOnly [(Blk.lnd i).base + BLK_CTRL, (Blk.lnd i).base + LND_FAULT] s t ∧
          t = { (s.setLanding i Landing.reset).setFabric i (t.fabric i) with regs := t.regs }) ∧
      (∀ (s : State) (q : PortId) (fed : Byte), s.powered (.opt q) = true →
        (s.pendingWrite (.opt q) = none → Machine.exec (.optEnable q fed) s = .next
          ((s.setOpt q { s.opt q with fed := some fed.toNat }).setPending (.opt q) (some (BLK_CTRL, s.ctrlWord (.opt q) 1)))) ∧
        (s.pendingWrite (.opt q) ≠ none → Machine.exec (.optEnable q fed) s = .next (s.writeIgnored (.opt q)))) ∧
      (∀ (s : State) (q : PortId) (a : W32) (o f : Nat), blkOfAddr a.toNat = some (.opt q, o) →
        s.pendingWrite (.opt q) = some (BLK_CTRL, s.ctrlWord (.opt q) 1) → (s.opt q).fed = some f → f < 256 →
        s.powered (.opt q) = true → s.enabled (.opt q) = false → s.optBad q = none →
        s.crcNow (.opt q) = s.reg (.opt q) BLK_CFG_CRC_REF →
        Answers (.postedWriteEffect a) s fun t => t.enabled (.opt q) = true ∧ t.pendingWrite (.opt q) = none ∧
          t.optState q = stHail ∧ t.feed q = f ∧ t.rxLocked q = 0 ∧ t.inUse q = 0 ∧ t.agreedMargin q = 0 ∧ (t.opt q).partner = none ∧ (t.opt q).scanAt = s.beat ∧
          RegsOnly ([BLK_CTRL, OPT_STATE, OPT_MARGIN, OPT_WL 0, OPT_WL 1, OPT_WL 2, OPT_WL 3, OPT_WL 4, OPT_WL 5, OPT_WL 6,
            OPT_WL 7].map fun o => (Blk.opt q).base + o) s t ∧
          t = { s.setOpt q (t.opt q) with regs := t.regs, posted := t.posted, freeCount := t.freeCount })

/-- In a powered unit that is disabled, an enable that the unit's own checks refuse leaves ENABLE 0, sets
BLK_STATUS.ENABLE_REFUSED and logs the unit's refusal code with the offset of the first register refused; one whose running
CRC differs from the reference also sets CFG_CRC_ERROR and logs the unit's CRC code. An owner map that is refused is reported
in OMAP_STATUS with its cause, and the argument of the refusal is then 0 (log entry 60). Nothing else changes. (R77, R101,
R433, R434, R435) -/
def Obligations.RefusedEnablesAreReported : Prop :=
  let touched : Blk → List Nat := fun b =>
        ((match b with
          | .skd _ => [BLK_STATUS, SKD_OMAP_STATUS]
          | .cru _ => [BLK_STATUS, CRU_OMAP_STATUS]
          | _ => [BLK_STATUS]).map (b.base + ·)) ++ [Blk.tly.base + TLY_CNT_LOST];
      (∀ (s : State) (i : Instr) (b : Blk) (bad : Option Nat),
        ((∃ c, i = .silEnable c ∧ b = .sil c ∧ bad = s.silBad c) ∨ (∃ k, i = .corEnable k ∧ b = .cor k ∧ bad = s.corBad k) ∨
          (∃ x, i = .tilEnable x ∧ b = .til x ∧ bad = s.tilBad x) ∨ (∃ x, i = .lndEnable x ∧ b = .lnd x ∧ bad = s.lndBad x) ∨
          (∃ c m, i = .skdEnable c ∧ b = .skd c ∧ bad = s.rrcBad c ∧
            s.loadOwnerMap (queueAddr (s.reg b SKD_OMAP_LO) (s.reg b SKD_OMAP_HI)) = (m, 0)) ∨
          (∃ c m, i = .cruEnable c ∧ b = .cru c ∧ bad = none ∧
            s.loadOwnerMap (queueAddr (s.reg b CRU_OMAP_LO) (s.reg b CRU_OMAP_HI)) = (m, 0))) →
        s.powered b = true → s.enabled b = false →
        (∀ o, bad = some o → Answers i s fun t => t.enabled b = false ∧ t.flag b BLK_STATUS 3 = true ∧
          Logged b (b.refusalCode o) 2 (b.refusalArgs o) s t ∧ RegsOnly (touched b) s t ∧
          t = { s with regs := t.regs, tally := t.tally, freeCount := t.freeCount }) ∧
        (bad = none → s.crcNow b ≠ s.reg b BLK_CFG_CRC_REF → Answers i s fun t => t.enabled b = false ∧
          t.flag b BLK_STATUS 3 = true ∧ t.flag b BLK_STATUS 1 = true ∧ Logged b b.crcCode 2 [0] s t ∧
          RegsOnly (touched b) s t ∧ t = { s with regs := t.regs, tally := t.tally, freeCount := t.freeCount })) ∧
      (∀ (s : State) (q : PortId) (a : W32) (o : Nat), blkOfAddr a.toNat = some (.opt q, o) →
        s.pendingWrite (.opt q) = some (BLK_CTRL, s.ctrlWord (.opt q) 1) → s.powered (.opt q) = true → s.enabled (.opt q) = false →
        let only : State → Prop := fun t => RegsOnly (touched (.opt q)) s t ∧ t = { s.setOpt q { s.opt q with fed := none } with
          regs := t.regs, tally := t.tally, freeCount := t.freeCount, posted := t.posted };
        (∀ x, s.optBad q = some x → Answers (.postedWriteEffect a) s fun t => t.enabled (.opt q) = false ∧
          t.flag (.opt q) BLK_STATUS 3 = true ∧ Logged (.opt q) ((Blk.opt q).refusalCode x) 2 ((Blk.opt q).refusalArgs x) s t ∧ only t) ∧
        (s.optBad q = none → s.crcNow (.opt q) ≠ s.reg (.opt q) BLK_CFG_CRC_REF → Answers (.postedWriteEffect a) s fun t =>
          t.enabled (.opt q) = false ∧ t.flag (.opt q) BLK_STATUS 3 = true ∧ t.flag (.opt q) BLK_STATUS 1 = true ∧
          Logged (.opt q) (Blk.opt q).crcCode 2 [0] s t ∧ only t)) ∧
      (∀ (s : State) (c : ClusterId) (m : OwnerMap) (n : Nat), n ≠ 0 →
        (s.powered (.cru c) = true → s.enabled (.cru c) = false →
          s.loadOwnerMap (queueAddr (s.reg (.cru c) CRU_OMAP_LO) (s.reg (.cru c) CRU_OMAP_HI)) = (m, n) →
          Answers (.cruEnable c) s fun t => t.enabled (.cru c) = false ∧ t.reg (.cru c) CRU_OMAP_STATUS = 2 + n * 4 ∧
            t.flag (.cru c) BLK_STATUS 3 = true ∧ Logged (.cru c) 0x2001 2 [0] s t ∧ RegsOnly (touched (.cru c)) s t ∧
            t = { s with regs := t.regs, tally := t.tally, freeCount := t.freeCount }) ∧
        (s.powered (.skd c) = true → s.enabled (.skd c) = false →
          s.loadOwnerMap (queueAddr (s.reg (.skd c) SKD_OMAP_LO) (s.reg (.skd c) SKD_OMAP_HI)) = (m, n) →
          Answers (.skdEnable c) s fun t => t.enabled (.skd c) = false ∧ t.reg (.skd c) SKD_OMAP_STATUS = 2 + n * 4 ∧
            t.flag (.skd c) BLK_STATUS 3 = true ∧ Logged (.skd c) 0x2101 2 [0] s t ∧ RegsOnly (touched (.skd c)) s t ∧
            t = { s with regs := t.regs, tally := t.tally, freeCount := t.freeCount }))

/-- In an enabled unit a disable clears ENABLE. A Cruiser or Skidder goes on with its work; a Sillage unit with no retrace
queued drops its unparked trails and its tables at once, keeping the parked ones (log entry 38), and with one queued notes
that the drop is owed after the retraces queued now; a core whose queues are empty stops running, with its groups closed, its
registers kept and its arrival at a barrier withdrawn if it stalls there; a cluster cache counts its dirty lines written back
and holds none; a tile interface drops every transfer, record and held packet of its own; Landing drops its streams and
reduction transfers; a port, when the posted write takes effect, goes OFF with no lock and no agreed margin. A LND_SLOT write
with VALID 0 stores the word and ends the slot's streams; one with VALID 1 stores it while no stream of the slot is open.
(R77, R101, R106, R123, R160, R170, R188, R260, R313, R329, R333, R351) -/
def Obligations.DisablesStopTheirUnits : Prop :=
  (∀ (s : State) (c : ClusterId),
        (s.enabled (.cru c) = true → Answers (.cruDisable c) s fun t => t.enabled (.cru c) = false ∧
          RegsOnly [(Blk.cru c).base + BLK_CTRL] s t ∧ t = { s with regs := t.regs }) ∧
        (s.enabled (.skd c) = true → Answers (.skdDisable c) s fun t => t.enabled (.skd c) = false ∧
          RegsOnly [(Blk.skd c).base + BLK_CTRL] s t ∧ t = { s with regs := t.regs }) ∧
        (s.enabled (.sil c) = true → Answers (.silDisable c) s fun t => t.enabled (.sil c) = false ∧
          ((s.sillage c).queue = [] → (∀ x ∈ (t.sillage c).trails, x ∈ (s.sillage c).trails) ∧
            (∀ x ∈ (s.sillage c).trails, x.parked = true → x ∈ (t.sillage c).trails) ∧
            (∀ x ∈ (t.sillage c).trails, x.parked = true ∨ (s.sillage c).nextId ≤ x.id) ∧
            (t.sillage c).acc = [] ∧ (t.sillage c).held = []) ∧
          ((s.sillage c).queue ≠ [] →
            t.sillage c = { s.sillage c with owed := some ((s.sillage c).queue.length, (s.sillage c).nextId) }) ∧
          RegsOnly [(Blk.sil c).base + BLK_CTRL] s t ∧ t = { s.setSillage c (t.sillage c) with regs := t.regs }) ∧
        (s.enabled (.cch c) = true → Answers (.cchDisable c) s fun t => t.enabled (.cch c) = false ∧
          t.cluster c = { s.cluster c with sets := [], streams := [], misses := [] } ∧
          t.reg (.cch c) CCH_CNT_WRITEBACKS = (s.reg (.cch c) CCH_CNT_WRITEBACKS +
            (((s.cluster c).sets.map fun p => (p.2.filter (·.dirty)).length).foldl (· + ·) 0)) % 2 ^ 32 ∧
          RegsOnly [(Blk.cch c).base + BLK_CTRL, (Blk.cch c).base + CCH_CNT_WRITEBACKS] s t ∧
          t = { s.setCluster c (t.cluster c) with regs := t.regs })) ∧
      (∀ (s : State) (k : CoreId), s.enabled (.cor k) = true → (s.core k).mtxQ = [] → (s.core k).vecQ = [] → (s.core k).dmaQ = [] →
        (s.core k).resume = none →
        let left : List Nat := match (s.core k).stall with
          | .barr b _ _ _ => [(Blk.clu k.cluster).base + BAR_PHASE b]
          | _ => [];
        Answers (.corDisable k) s fun t => t.enabled (.cor k) = false ∧ t.coreRunning k = false ∧
          t.flag (.cor k) COR_STATE stWaiting = false ∧ (∀ g ∈ (t.core k).groups, g.isOpen = false) ∧
          (∀ b since rep w, (s.core k).stall = .barr b since rep w → b < 8 → t.flag (.clu k.cluster) (BAR_PHASE b) k.core.val = false) ∧
          (∀ r, t.gpr k r = s.gpr k r) ∧ t.pc k = s.pc k ∧ RegsOnly (left ++ corRegs k [BLK_CTRL, COR_STATE]) s t ∧ CoreOnly k s t ∧
          t = { s with regs := t.regs, cores := t.cores }) ∧
      (∀ (s : State) (i : Fin 8),
        (s.enabled (.til i) = true → Answers (.tilDisable i) s fun t => t.enabled (.til i) = false ∧
          t.fabric i = { Fabric.reset with ptr := (s.fabric i).ptr } ∧
          (∀ m < 48, t.portQ m = if m / 6 = i.val then { s.portQ m with lane0 := [], lane1 := [] } else s.portQ m) ∧
          t.loopback = s.loopback.filter (fun p => flowTile p.flow != i.val && p.dtile != i.val) ∧
          RegsOnly [(Blk.til i).base + BLK_CTRL] s t ∧
          t = { s.setFabric i (t.fabric i) with regs := t.regs, ports := t.ports, loopback := t.loopback }) ∧
        (s.enabled (.lnd i) = true → Answers (.lndDisable i) s fun t => t.enabled (.lnd i) = false ∧
          t.landing i = Landing.reset ∧ t.fabric i = { s.fabric i with rx := (s.fabric i).rx.filter fun x => x.typ != typReduce } ∧
          RegsOnly [(Blk.lnd i).base + BLK_CTRL] s t ∧
          t = { (s.setLanding i Landing.reset).setFabric i (t.fabric i) with regs := t.regs })) ∧
      (∀ (s : State) (q : PortId), s.powered (.opt q) = true →
        (s.pendingWrite (.opt q) = none →
          Machine.exec (.optDisable q) s = .next (s.setPending (.opt q) (some (BLK_CTRL, s.ctrlWord (.opt q) 0)))) ∧
        (s.pendingWrite (.opt q) ≠ none → Machine.exec (.optDisable q) s = .next (s.writeIgnored (.opt q)))) ∧
      (∀ (s : State) (q : PortId) (a : W32) (o : Nat), blkOfAddr a.toNat = some (.opt q, o) →
        s.pendingWrite (.opt q) = some (BLK_CTRL, s.ctrlWord (.opt q) 0) → s.powered (.opt q) = true → s.enabled (.opt q) = true →
        Answers (.postedWriteEffect a) s fun t => t.pendingWrite (.opt q) = none ∧
        t.enabled (.opt q) = false ∧ t.optState q = stOff ∧ t.rxLocked q = 0 ∧ t.inUse q = 0 ∧ t.agreedMargin q = 0 ∧
        t.opt q = OptPort.reset ∧
        RegsOnly ([BLK_CTRL, OPT_STATE, OPT_MARGIN, OPT_WL 0, OPT_WL 1, OPT_WL 2, OPT_WL 3, OPT_WL 4, OPT_WL 5, OPT_WL 6,
          OPT_WL 7].map fun o => (Blk.opt q).base + o) s t ∧
        t = { s.setOpt q OptPort.reset with regs := t.regs, posted := t.posted }) ∧
      (∀ (s : State) (i : Fin 8) (j : Fin 16) (v : W32), s.powered (.lnd i) = true →
        (bit v.toNat 12 = false → Answers (.lndSlotWrite i j v) s fun t => t.reg (.lnd i) (LND_SLOT j.val) = v.toNat % 2 ^ 13 ∧
          (t.landing i).streams = (s.landing i).streams.filter (fun x => x.slot != j.val) ∧
          RegsOnly [(Blk.lnd i).base + LND_SLOT j.val] s t ∧ t = { s.setLanding i (t.landing i) with regs := t.regs, fabrics := t.fabrics }) ∧
        (bit v.toNat 12 = true → (s.landing i).openOf j.val = 0 → Answers (.lndSlotWrite i j v) s fun t =>
          t.reg (.lnd i) (LND_SLOT j.val) = v.toNat % 2 ^ 13 ∧ RegsOnly [(Blk.lnd i).base + LND_SLOT j.val] s t ∧
          t = { s with regs := t.regs }) ∧
        (bit v.toNat 12 = true → (s.landing i).openOf j.val ≠ 0 → Answers (.lndSlotWrite i j v) s fun t =>
          t.reg (.lnd i) (LND_SLOT j.val) = s.reg (.lnd i) (LND_SLOT j.val) ∧ t.flag (.lnd i) BLK_STATUS 0 = true ∧
          t.landing i = s.landing i))

/-- With a descriptor queued and no plot in progress, the Cruiser dequeues it and reads its 64 bytes: an unusable plot
address is logged and faults the job, a descriptor or stand that fails the checks is refused with STATUS 1 or 2 (the
descriptor's own checks before those of its stand file: log entry 88), and any other begins its plot with the epoch of
CRU_EPOCH. A fetch done without error counts down its act, which CRU_CNT_FETCHES counts (log entry 34), or performs it and
issues more. A request of another job, or to a disabled unit, is discarded and counted; one of a reserved kind or out of form
is discarded with a job fault; one in form is served. A reply in form is copied into the parents that wait, and closes its
hop when nothing else is outstanding. Where a read of these meets a lost line or an uncorrectable beat the job faults, and
nothing of the read is delivered (log entry 103). (R52, R53, R54, R72, R73, R75, R160, R444, log entry 34, log entry 88, log
entry 103) -/
def Obligations.CruiserCommandsRunTheirWork : Prop :=
  (∀ (s : State) (c : ClusterId) (f : Ecc) (a : Nat) (l : List Nat), (s.cruiser c).queue = a :: l → (s.cruiser c).plot = none →
        let z := s.unitRead (.cru c) c (s.cruReads c) f
        (z.2 = true → Machine.exec (.cruiseDescriptorStart ⟨c, f⟩) s = .next z.1) ∧
        (z.2 = false →
          let r := (z.1.setCruiser c { z.1.cruiser c with queue := l }).clusterRead c a 64
          let d := r.cruDesc a
          let e := r.field (.cru c) CRU_EPOCH 0 24
          let x := r.standAddr c d.standSlot
          let q := r.readRanges c (r.stand x).reads
          let bad := d.plot % 64 ≠ 0 ∨ 2 ^ 48 ≤ d.plot ∨ rangeBacked d.plot 64 = false
          (bad → Machine.exec (.cruiseDescriptorStart ⟨c, f⟩) s =
            .next (((r.setFlag (.cru c) CRU_STATUS 1).log (.cru c) 0x2003 3 (lohi a)).faultCluster c 0x2003 (Blk.cru c).base false)) ∧
          (¬bad → r.cruBadDesc c d = true → Machine.exec (.cruiseDescriptorStart ⟨c, f⟩) s = .next (r.cruRefuse c d 1 e)) ∧
          (¬bad → r.cruBadDesc c d = false → q.standRefused x = true →
            Machine.exec (.cruiseDescriptorStart ⟨c, f⟩) s = .next (q.cruRefuse c d 2 e)) ∧
          (¬bad → r.cruBadDesc c d = false → q.standRefused x = false → cruBadStand d (q.stand x) = true →
            Machine.exec (.cruiseDescriptorStart ⟨c, f⟩) s = .next (q.cruRefuse c d 1 e)) ∧
          (¬bad → r.cruBadDesc c d = false → q.standRefused x = false → cruBadStand d (q.stand x) = false →
            Machine.exec (.cruiseDescriptorStart ⟨c, f⟩) s = .next (q.beginPlot c d e (q.stand x))))) ∧
      (∀ (s : State) (c : ClusterId) (i : Fin 256) (a : CruAct), (s.cruiser c).running[i.val]? = some a →
        s.lostIn (s.actReads c a) = false →
        (1 < a.left → Answers (.adjacencyFetchDone c i .ok) s fun t =>
          t.cruiser c = { s.cruiser c with running := (s.cruiser c).running.set i.val { a with left := a.left - 1 } } ∧
          t.reg (.cru c) CRU_CNT_FETCHES = (s.reg (.cru c) CRU_CNT_FETCHES + 1) % 2 ^ 32 ∧
          t = { s with regs := t.regs, cruisers := t.cruisers }) ∧
        (a.left ≤ 1 → let r := s.setCruiser c { s.cruiser c with running := (s.cruiser c).running.eraseIdx i.val }
          let u := match a.serve with
            | none => r.ownAct c a
            | some id => r.servedAct c id a
          Machine.exec (.adjacencyFetchDone c i .ok) s = .next (State.advancePlot c plotFuel (u.fetchMore c)))) ∧
      (∀ (s : State) (c : ClusterId) (i : Fin 256) (a : CruAct), (s.cruiser c).running[i.val]? = some a →
        (s.lostIn (s.actReads c a) = true → Machine.exec (.adjacencyFetchDone c i .ok) s =
          .next (s.faultCluster c 0x4012 (Blk.cru c).base false)) ∧
        (∀ n x, s.lostIn (s.actReads c a) = false → lineAt (s.actReads c a) n = some x → (memCtl x).isSome = true →
          (s.cluster c).hasLine x = false → Answers (.adjacencyFetchDone c i (.line n .dramUncorrectable)) s fun t =>
            t = (s.lineError c x .dramUncorrectable).1.faultCluster c 0x4002 (Blk.cru c).base false ∧ t.cruiser c = s.cruiser c)) ∧
      (∀ (s : State) (c : ClusterId) (e : Ecc) (m : InMsg) (l : List InMsg), (s.mailroom c).inbox = m :: l → m.dunit = 0 →
        let r := s.setMailroom c { s.mailroom c with inbox := l }
        let node := fieldAt m.body 32 5
        let kind := fieldAt m.body 0 1
        let mine := m.job = s.field (.cru c) CRU_JOB 0 12
        (kind ≠ 2 → ¬mine ∨ kind = 1 ∧ s.enabled (.cru c) = false →
          Answers (.cruiseBatchReceive ⟨c, e⟩) s fun t => (t.mailroom c).inbox = l ∧ t.flag (.cru c) CRU_STATUS 4 = true ∧
            t.reg (.cru c) CRU_CNT_BATCH_DISCARD = (s.reg (.cru c) CRU_CNT_BATCH_DISCARD + 1) % 2 ^ 32 ∧
            t.cruiser c = s.cruiser c ∧ t.mem = s.mem) ∧
        (kind ≠ 2 → mine → kind ≠ 1 ∨ s.enabled (.cru c) = true ∧ requestMalformed m.body = true →
          Machine.exec (.cruiseBatchReceive ⟨c, e⟩) s = .next (r.cruDiscard c node true)) ∧
        (kind = 1 → mine → s.enabled (.cru c) = true → requestMalformed m.body = false →
          let x := r.unitRead (.cru c) c (r.serveReads c m) e
          Machine.exec (.cruiseBatchReceive ⟨c, e⟩) s = .next (if x.2 then x.1 else x.1.serveBatch c m)) ∧
        (kind = 2 → ¬mine → Machine.exec (.cruiseReplyReceive ⟨c, e⟩) s = .next (r.cruDiscard c node false)) ∧
        (kind = 2 → mine → r.replyMatch c m = none → Machine.exec (.cruiseReplyReceive ⟨c, e⟩) s = .next (r.cruDiscard c node true)) ∧
        (kind = 2 → mine → ∀ p q, r.replyMatch c m = some (p, q) →
          (replyMalformed m.body q = true → Machine.exec (.cruiseReplyReceive ⟨c, e⟩) s = .next (r.cruDiscard c node true)) ∧
          (replyMalformed m.body q = false →
            let x := r.unitRead (.cru c) c (r.replyReads c m p q) e
            Machine.exec (.cruiseReplyReceive ⟨c, e⟩) s = .next (if x.2 then x.1 else
              let p := { p with reqs := dropFirst (fun x => x == q) p.reqs }
              let z := ((upFrom 0 q.asks.length).zip q.asks).foldl (fun z x =>
                z.1.applyAct c z.2 x.2.parents (replyRecord m.body p.fan x.1).cause (replyRecord m.body p.fan x.1).slots) (x.1, p)
              State.advancePlot c plotFuel (z.1.setCruiser c { z.1.cruiser c with plot := some z.2 })))))

/-- Whatever the mode, the weights and the keystream, an act that comes to picks gives as many as its fan-out, and every pick
that is not null is an index below the row's degree; under UNIFORM a row no longer than the fan-out gives each of its entries
once, in order, and nulls after them; a row of degree 0 gives nulls alone. (R62, R63, R64, R65, R66, R67, R68) -/
def Obligations.SamplingFillsTheFanOut : Prop :=
  ∀ (mode : Nat) (weighted : Bool) (cw : Nat → Nat) (d f : Nat) (k : Keystream) (l : List (Option Nat)),
      selectAct mode weighted cw d f k = .ok l →
        l.length = f ∧ (∀ i, some i ∈ l → i < d) ∧
        (mode = modeUniform → d ≤ f → l = (upFrom 0 d).map some ++ nullPicks (f - d)) ∧
        (d = 0 → l = nullPicks f)

/-- Under UNIFORM the picks of an act that are not null are pairwise different, whether the row is served by the reservoir
or, as a hub row, by Floyd's selection and a reservoir within each block; and a row longer than the fan-out leaves no null.
(R63, R64) -/
def Obligations.UniformSamplingRepeatsNoEntry : Prop :=
  ∀ (weighted : Bool) (cw : Nat → Nat) (d f : Nat) (k : Keystream) (l : List (Option Nat)),
      selectAct modeUniform weighted cw d f k = .ok l → (l.filterMap id).Nodup ∧ (f < d → none ∉ l)

/-- When a list of source entries is numbered without overflow, every entry takes a number; an entry that is null or invalid
takes 0 and is counted if it is invalid; a valid one takes a number from 1 to the number of groups, which is below the deck's
rows; two valid entries take the same number exactly if their keys are equal. (R85, R86) -/
def Obligations.HaulNumberingGivesEachKeyOneGroup : Prop :=
  ∀ (rows : Nat) (f : Nat → Entry) (l : List Nat) (n : Numbering), 1 ≤ rows →
      Numbering.addAll rows f l ⟨[], [], [], 0, 0⟩ = (n, false) →
        n.map.length = l.length ∧ n.keys.length = n.groups.length ∧ n.groups.length < rows ∧
        n.sentinel + n.beyond = (l.countP fun i => match f i with | .bad _ => true | _ => false) ∧
        ∀ (i x g : Nat), l[i]? = some x → n.map[i]? = some g →
          match f x with
          | .key k _ _ _ _ => 1 ≤ g ∧ g ≤ n.groups.length ∧ n.keys[g - 1]? = some k ∧
              ∀ (j : Nat) (y : Nat) (h : Nat) (k' : Nat) (m : Bool) (o oi r : Nat), l[j]? = some y → f y = .key k' m o oi r →
                n.map[j]? = some h → (g = h ↔ k = k')
          | _ => g = 0

/-- With a descriptor queued and every haul in progress waiting, the Skidder dequeues it (that it does so while earlier hauls
wait: log entry 36), opens its trail if it asks for one, and begins or refuses it by its checks, one with no usable report
address without a report and with a job fault; the last descriptor of a step closes the step's hauls. A page access done
completes its chunk; a read older than the next frame begins again; a trail that waits takes space that has come free, or is
given up after SIL_WAIT. A haul of another job or to a disabled unit is discarded and counted; one of a reserved kind or out
of form is discarded with a job fault; one in form is served. A reply in form fills its rows; an answer to a prefetch only
the row cache. Where a read of these meets a lost line or an uncorrectable beat the job faults, and nothing of the read is
delivered (log entry 103). (R79, R83, R84, R90, R94, R96, R103, R104, R132, R160, R444, log entry 36) -/
def Obligations.SkidderCommandsRunTheirWork : Prop :=
  (∀ (s : State) (c : ClusterId) (f : Ecc) (a : Nat) (l : List Nat), (s.skidder c).queue = a :: l → s.skdFree c = true →
        let x := s.unitRead (.skd c) c (s.skdReads c) f
        (x.2 = true → Machine.exec (.haulDescriptorStart ⟨c, f⟩) s = .next x.1) ∧
        (x.2 = false →
          let s' := x.1.readRanges c (x.1.skdReads c)
          let r := s'.setSkidder c { x.1.skidder c with queue := l }
          let d := r.skdDesc a
          let o := if d.trail && !d.prefetch then r.openTrail c d else (r, none)
          let close (x : State) : State := if d.last && !d.prefetch then x.closeHauls c d.step else x
          let out := d.report % 64 ≠ 0 ∨ 2 ^ 48 ≤ d.report ∨ rangeBacked d.report (64 + 4 * d.count) = false
          (out → Machine.exec (.haulDescriptorStart ⟨c, f⟩) s =
            .next ((close (((o.2.map fun i =>
              ((o.1.setFlag (.skd c) SKD_STATUS 1).log (.skd c) 0x2103 3 (lohi a)).releaseTrail c i).getD
                ((o.1.setFlag (.skd c) SKD_STATUS 1).log (.skd c) 0x2103 3 (lohi a))).faultCluster c 0x2103 (Blk.skd c).base
                  false)).skdKick c)) ∧
          (∀ n t p, ¬out → o.1.haulCheck c d = (n, t, p) →
            Machine.exec (.haulDescriptorStart ⟨c, f⟩) s =
              .next ((close (if n = 0 then o.1.beginHaul c d t p o.2 else o.1.skdRefuse c d n o.2)).skdKick c)))) ∧
      (∀ (s : State) (c : ClusterId) (i : Fin 1024) (e : Ecc) (a : Nat), (s.skidder c).running[i.val]? = some a →
        let l := (s.skidder c).pageReads a
        (s.lostIn l = false →
          let r := (s.setSkidder c { s.skidder c with running := (s.skidder c).running.eraseIdx i.val }).chunkDone c a
          let x := r.unitRead (.skd c) c (r.poolReads c) e
          Machine.exec (.pageAccessDone c i .ok e) s = .next (if x.2 then x.1 else x.1.skdKick c)) ∧
        (s.lostIn l = true → Machine.exec (.pageAccessDone c i .ok e) s =
          .next (s.faultCluster c 0x4012 (Blk.skd c).base false)) ∧
        (∀ n x, s.lostIn l = false → lineAt l n = some x → (memCtl x).isSome = true → (s.cluster c).hasLine x = false →
          Answers (.pageAccessDone c i (.line n .dramUncorrectable) e) s fun t =>
            t = (s.lineError c x .dramUncorrectable).1.faultCluster c 0x4002 (Blk.skd c).base false ∧ t.skidder c = s.skidder c)) ∧
      (∀ (s : State) (c : ClusterId) (i : Nat) (x : RowRead), (s.skidder c).reads[i]? = some x →
        (s.stale x = true → Machine.exec (.rowReadRestart c i) s =
          .next (((s.setSkidder c { s.skidder c with reads := (s.skidder c).reads.eraseIdx i }).restartRead c x).skdKick c)) ∧
        (s.stale x = false → Machine.exec (.rowReadRestart c i) s = .next s)) ∧
      (∀ (s : State) (c : ClusterId) (x : Trail), (s.sillage c).trails.find? (·.waiting) = some x →
        Machine.exec (.trailSpaceAllocate c) s = .next ((s.allocTrail c x).skdKick c) ∧
        (x.since + s.field (.sil c) SIL_WAIT 0 20 * 1000 < s.clock →
          Machine.exec (.trailSpaceTimeout c) s = .next (((s.releaseTrail c x.id).countLost c x.key).skdKick c)) ∧
        (s.clock ≤ x.since + s.field (.sil c) SIL_WAIT 0 20 * 1000 → Machine.exec (.trailSpaceTimeout c) s = .next s)) ∧
      (∀ (s : State) (c : ClusterId) (m : InMsg) (l : List InMsg), (s.mailroom c).inbox = m :: l → m.dunit = 1 →
        let r := s.setMailroom c { s.mailroom c with inbox := l }
        let kind := fieldAt m.body 0 1
        let row := fieldAt m.body 48 5
        let mine := m.job = s.field (.skd c) SKD_JOB 0 12
        (kind ≠ 2 → kind ≠ 4 → ¬mine ∨ (kind = 1 ∨ kind = 3) ∧ s.enabled (.skd c) = false →
          Answers (.haulReceive c) s fun t => (t.mailroom c).inbox = l ∧ t.flag (.skd c) SKD_STATUS 3 = true ∧
            t.reg (.skd c) SKD_CNT_HAUL_DISCARD = (s.reg (.skd c) SKD_CNT_HAUL_DISCARD + 1) % 2 ^ 32 ∧
            t.skidder c = s.skidder c ∧ t.mem = s.mem) ∧
        (kind ≠ 2 → kind ≠ 4 → mine → kind ≠ 1 ∧ kind ≠ 3 ∨ s.enabled (.skd c) = true ∧ requestForm m.body = none →
          Machine.exec (.haulReceive c) s = .next (r.skdDiscard c row true)) ∧
        (kind = 1 ∨ kind = 3 → mine → s.enabled (.skd c) = true →
          ∀ x, requestForm m.body = some x → Machine.exec (.haulReceive c) s = .next (r.serveHaul c m x)) ∧
        (kind = 2 ∨ kind = 4 → ¬mine → Machine.exec (.haulReplyReceive c) s = .next (r.skdDiscard c row false)) ∧
        (kind = 2 → mine → (∀ x, r.sentFor c m false = some x → replyForm m.body x = none) →
          Machine.exec (.haulReplyReceive c) s = .next (r.skdDiscard c row true)) ∧
        (kind = 2 ∨ kind = 4 → mine → ∀ x q, r.sentFor c m (kind == 4) = some x → replyForm m.body x = some q →
          let drop (z : State) : State :=
            z.setSkidder c { z.skidder c with sent := dropFirst (fun y => y == x) (z.skidder c).sent }
          (kind = 2 → Machine.exec (.haulReplyReceive c) s =
            .next (((q.filter fun y => y.2.1 != 2).foldl (fun z y => z.takeRecord c y)
              (drop ((q.filter fun y => y.2.1 == 2).foldl (fun z y => z.takeRecord c y) r))).skdKick c)) ∧
          (kind = 4 → r.rrcOn c = true → r.haulWindowOpen c.tile m.job (fieldAt m.body 4 4) = false →
            Machine.exec (.haulReplyReceive c) s = .next (q.foldl (fun z y =>
              if y.2.1 = 0 then z.rrcFill c y.1.units y.1.ownerIdx y.1.slot y.1.row y.2.2.1 y.2.2.2 else z) (drop r)))))

/-- With a retrace queued, the unit dequeues it, checks it, and runs it on its trail or refuses it, one with no usable result
address without a report. A return batch of another job or to a disabled unit is discarded and counted; one out of form is
discarded with a job fault; one in form has its contributions forwarded and its sender noted. A step closes when every unit
of the job has done its part: each takes up what it held for the step and hands off its lists, save for a table slot of which
some home cluster refused a contribution, and without lists where a table of the step overflowed. SIL_APPLY_DONE is stored,
and where the unit is the only one of its job, SKD_APPLIED follows it. A park writes the image of the complete trails and
marks them, and is refused while a trail is open; an image that is no image of this job is not adopted, and says so (that
this is so with ENABLE 0 too: log entry 38). Where a read of these meets an error, nothing of it is delivered (log entry
103). (R108, R111, R115, R116, R117, R118, R119, R153, R160, log entry 38, log entry 103) -/
def Obligations.SillageCommandsRunTheirWork : Prop :=
  (∀ (s : State) (c : ClusterId) (e : Ecc) (a : Nat) (l : List Nat), (s.sillage c).queue = a :: l →
        let z := s.unitRead (.sil c) c (s.retraceReads c) e
        (z.2 = true → Machine.exec (.retraceStart c e) s = .next z.1) ∧
        (z.2 = false →
          let s' := z.1.readRanges c (z.1.retraceReads c)
          let r := s'.setSillage c { z.1.sillage c with queue := l }
          let d := r.retrace a
          let out := d.result % 64 ≠ 0 ∨ 2 ^ 48 ≤ d.result ∨ rangeBacked d.result 64 = false
          (out → Machine.exec (.retraceStart c e) s = .next ((r.refuseRetrace c d 1 false).settleDrop c)) ∧
          (∀ x, ¬out → r.retraceCheck c d = (0, some x) →
            Machine.exec (.retraceStart c e) s = .next ((r.runRetrace c d x).settleDrop c)) ∧
          (∀ n x, ¬out → n ≠ 0 → r.retraceCheck c d = (n, x) →
            Machine.exec (.retraceStart c e) s = .next ((r.refuseRetrace c d n true).settleDrop c)))) ∧
      (∀ (s : State) (c : ClusterId) (m : InMsg) (l : List InMsg), (s.mailroom c).inbox = m :: l → m.dunit = 2 →
        let r := s.setMailroom c { s.mailroom c with inbox := l }
        (m.job ≠ s.field (.sil c) SIL_JOB 0 12 ∨ s.enabled (.sil c) = false →
          Answers (.returnBatchReceive c) s fun t => (t.mailroom c).inbox = l ∧ t.flag (.sil c) SIL_STATUS 3 = true ∧
            t.reg (.sil c) SIL_CNT_DISCARD = (s.reg (.sil c) SIL_CNT_DISCARD + 1) % 2 ^ 32 ∧ t.sillage c = s.sillage c ∧
            t.mem = s.mem) ∧
        (m.job = s.field (.sil c) SIL_JOB 0 12 → s.enabled (.sil c) = true → batchForm m.body = none →
          Machine.exec (.returnBatchReceive c) s = .next (r.silDiscard c (fieldAt m.body 48 5) true)) ∧
        (m.job = s.field (.sil c) SIL_JOB 0 12 → s.enabled (.sil c) = true → ∀ x, batchForm m.body = some x →
          let z := (r.bump (.sil c) SIL_CNT_RECEIVED).forwardBatch m.body x
          Machine.exec (.returnBatchReceive c) s =
            .next (z.setSillage c { z.sillage c with received := (fieldAt m.body 4 4, m.src) :: (z.sillage c).received }))) ∧
      (∀ (s : State) (job : BitVec 12) (n : W32),
        ((s.jobUnits job.toNat).any fun c => !s.unitClosed c n.toNat) = true → Machine.exec (.stepClose job n) s = .next s) ∧
      (∀ (s : State) (job : BitVec 12) (n : W32), s.jobUnits job.toNat ≠ [] →
        (∀ c ∈ s.jobUnits job.toNat, s.unitClosed c n.toNat = true) →
        let l := s.jobUnits job.toNat
        let u := l.foldl (fun u c => u.takeHeld c n.toNat) s
        Machine.exec (.stepClose job n) s = .next (l.foldl (fun v c => v.handoff c n.toNat (u.unapplied l n.toNat)) u)) ∧
      (∀ (s : State) (l : List ClusterId) (n slot : Nat), slot < 8 → (slot ∈ s.unapplied l n ↔ ∃ c, c ∈ l ∧
        (n ∈ (s.sillage c).overfull ∨ ∃ a, a ∈ (s.sillage c).acc ∧ a.step = n ∧ a.bad = true ∧ a.slot = slot))) ∧
      (∀ (s : State) (c : ClusterId) (n : Nat) (skip : List Nat) (r : ApplyRec), r.slot ∈ skip → s.handoffSlot c n skip r = s) ∧
      (∀ (s : State) (c : ClusterId) (i : Fin 8) (v : W32), s.powered (.sil c) = true →
        s.jobUnits (s.field (.sil c) SIL_JOB 0 12) = [c] → s.SkdIdle c →
        Answers (.silApplyDoneWrite c i v) s fun t => t.reg (.sil c) (SIL_APPLY_DONE i.val) = v.toNat ∧
          t.reg (.skd c) (SKD_APPLIED i.val) = (if atLeast32 (s.reg (.skd c) (SKD_APPLIED i.val)) v.toNat then
            s.reg (.skd c) (SKD_APPLIED i.val) else v.toNat) ∧
          RegsOnly [(Blk.sil c).base + SIL_APPLY_DONE i.val, (Blk.skd c).base + SKD_APPLIED i.val] s t ∧ t.mem = s.mem) ∧
      (∀ (s : State) (c : ClusterId) (v : W32) (e : Ecc), s.enabled (.sil c) = true → (s.sillage c).trails.all (·.complete) = true →
        ((s.skidder c).hauls.all fun h => !h.desc.trail) = true →
        let z := s.unitRead (.sil c) c (s.parkReads c) e
        let a := queueAddr (s.reg (.sil c) SIL_PARK_LO) v.toNat
        let m := z.1.parkImage c
        (z.2 = true → Machine.exec (.silParkHiWrite c ⟨v, e⟩) s = .next z.1) ∧
        (z.2 = false → Answers (.silParkHiWrite c ⟨v, e⟩) s fun t =>
          t.sillage c = { s.sillage c with trails := (s.sillage c).trails.map fun x => { x with parked := true } } ∧
          (rangeBacked a m.length = true → t.readBytes a m.length = m ∧ MemOnly a m.length z.1 t))) ∧
      (∀ (s : State) (c : ClusterId) (v : W32) (e : Ecc), s.powered (.sil c) = true → s.mayPark c = false →
        Answers (.silParkHiWrite c ⟨v, e⟩) s fun t => t.flag (.sil c) SIL_STATUS 5 = true ∧ t.sillage c = s.sillage c ∧
          Logged (.sil c) 0x2208 2 (lohi (queueAddr (s.reg (.sil c) SIL_PARK_LO) v.toNat)) s t ∧ t.mem = s.mem) ∧
      (∀ (s : State) (c : ClusterId) (v : W32), s.powered (.sil c) = true →
        let a := queueAddr (s.reg (.sil c) SIL_ADOPT_LO) v.toNat
        let n := s.rd (a + 8) 4
        let ok := s.enabled (.sil c) = true ∧ s.rd a 4 = 0x4B524150 ∧ s.rd (a + 4) 1 = 1 ∧
          s.rd (a + 6) 2 = s.field (.sil c) SIL_JOB 0 12 ∧ 64 ≤ n ∧
          s.rd (a + 0x3C) 4 = crc32c (s.readBytes a 0x3C ++ List.replicate 4 0 ++ s.readBytes (a + 64) (n - 64))
        let r := s.readRanges c (s.adoptReads c v.toNat)
        s.lostIn (s.adoptReads c v.toNat) = false →
        (¬ok ∨ State.adoptTrails c a (upFrom 0 (s.rd (a + 5) 1)) r = none →
          Answers (.silAdoptHiWrite c ⟨v, .ok⟩) s fun t => t.flag (.sil c) SIL_STATUS 6 = true ∧ t.sillage c = s.sillage c ∧
            Logged (.sil c) 0x2208 2 (lohi a) s t ∧ t.mem = s.mem) ∧
        (∀ u, ok → State.adoptTrails c a (upFrom 0 (s.rd (a + 5) 1)) r = some u →
          Machine.exec (.silAdoptHiWrite c ⟨v, .ok⟩) s = .next u))

/-- For every state in which the step before has been handed off at the home cluster, two contributions with values, of the
same section and row, leave the whole machine in the same state whichever arrives first: the totals, the flags, the counters
and, where the table refuses them, the log and the fault. Before that, a contribution for a table of an enabled unit is held
and changes nothing else. By what the unit knows that the step before has been handed off, and that it holds what comes
early, are the model's choice (log entry 37). (R117, log entry 37) -/
def Obligations.ReturnSumsDoNotDependOnOrder : Prop :=
  (∀ (s : State) (x y : SilAdd), x.sect = y.sect → x.row = y.row → x.vals ≠ [] → y.vals ≠ [] →
        s.stepReady (homeCluster x.row) x.sect.slot x.sect.step = true →
        (s.addContribution x).addContribution y = (s.addContribution y).addContribution x) ∧
      (∀ (s : State) (x : SilAdd), let c := homeCluster x.row
        s.stepReady c x.sect.slot x.sect.step = false → s.enabled (.sil c) = true → ((s.sillage c).applyOf x.sect.slot).isSome = true →
        s.addContribution x = s.setSillage c { s.sillage c with held := (s.sillage c).held ++ [x] })

/-- Adding two inputs to the accumulators of a packet index of n elements gives the same accumulators in either order:
totals, the block masks of non-finite, clipped and saturated elements, the count of summands, the largest exponent and the
number of children. Adding an input of n values to cleared accumulators gives those values. (R320, R321, R325) -/
def Obligations.ReductionSumsDoNotDependOnOrder : Prop :=
  (∀ (a : LndAcc) (n : Nat) (v w : LndInput), a.totals.length ≤ n → (a.add n v).add n w = (a.add n w).add n v) ∧
      (∀ (n : Nat) (v : LndInput), v.vals.length = n → (LndAcc.none_.add n v).totals = v.vals)

/-- A port with a feed whose link carries time words sends one 4,096 beats after its last, with its time in 1/64 beat; one
without a feed sends none. An undamaged word is noted with its arrival; one from the parent of a follower, while no job runs,
answers the newest word sent whose round trip is not negative (log entry 94 is the choice of the model; 57 and 84 are its
reading of the offset, of the lock and of what a word carries), steps the count by the offset halved from the two delays and
puts offset and path delay in their registers: a time base FREE or in HOLDOVER goes to ACQUIRING, and one ACQUIRING with 15
offsets within a beat before locks. A damaged word is counted and ignored. 16,384 beats without a parent take a follower that
was LOCKED to HOLDOVER; 1,000,000 beats of it are logged once. A preset writes FTB_BEAT_LO and posts the write of
FTB_BEAT_HI, which sets the count when it takes effect while FREE and is ignored otherwise; while a write is pending it is
ignored. (R268, R269, R270, R271, R435, log entry 57, log entry 84, log entry 94) -/
def Obligations.TimeWordsCorrectTheBeatAndDriveTheLock : Prop :=
  (∀ (s : State) (q : PortId) (f : Fin 64),
        (s.hasTimeWords q = true → s.feed q ≠ 0 → (∀ x l, (s.opt q).wordsSent = x :: l → x / 64 + 4096 ≤ s.beat) →
          Answers (.timeWordSend q f) s fun t =>
            t.out = s.out ++ [.timeWord (portIdx q) (s.beat * 64 + f.val) (s.opt q).wordRx] ∧
            (t.opt q).wordsSent.head? = some (s.beat * 64 + f.val) ∧ t = { s with opts := t.opts, out := t.out }) ∧
        (s.hasTimeWords q = false ∨ s.feed q = 0 → Machine.exec (.timeWordSend q f) s = .next s)) ∧
      (∀ (s : State) (q : PortId) (w : TimeWord), s.hasTimeWords q = true →
        (w.damaged = true → Answers (.timeWordReceive q w) s fun t =>
          t.reg (.opt q) OPT_CNT_CTRL_BAD = (s.reg (.opt q) OPT_CNT_CTRL_BAD + 1) % 2 ^ 32 ∧ t = { s with regs := t.regs }) ∧
        (w.damaged = false → s.isMaster = true ∨ s.enabled .ftb = false → Answers (.timeWordReceive q w) s fun t =>
          t.opt q = { s.opt q with wordRx := s.beat * 64 + w.frac.val, partnerLocked := w.locked } ∧ t = { s with opts := t.opts })) ∧
      (∀ (s : State) (q : PortId) (w : TimeWord) (sent : Nat), s.hasTimeWords q = true → w.damaged = false → s.isMaster = false →
        s.enabled .ftb = true → s.anyRunning = false →
        let now := s.beat * 64 + w.frac.val
        (s.setOpt q { s.opt q with wordRx := now, partnerLocked := w.locked }).parent = some q →
        let d1 : Int := (now : Int) - w.sent
        let d2 : Int := (w.heard : Int) - sent
        (s.opt q).wordsSent.find? (fun (x : Nat) => decide (0 ≤ d1 + ((w.heard : Int) - x))) = some sent →
        let off := (d1 - d2) / 2
        Answers (.timeWordReceive q w) s fun t =>
          t.beat = ((s.beat : Int) - off / 64).toNat ∧ t.reg .ftb FTB_OFFSET = int32 off ∧
          t.reg .ftb FTB_PATH_DELAY = int32 ((d1 + d2) / 2 - sgn (s.reg (.opt q) OPT_ASYM) 32) ∧ t.time.lastHeard = s.clock ∧
          (s.lock = lockFree ∨ s.lock = lockHoldover → t.lock = lockAcquiring) ∧
          (s.lock = lockAcquiring → off.natAbs ≤ 64 → 15 ≤ s.time.inRange → t.lock = lockLocked) ∧
          (s.lock = lockLocked → t.lock = lockLocked) ∧ t.mem = s.mem ∧ t.jobs = s.jobs) ∧
      (∀ (s : State), s.isMaster = false → s.enabled .ftb = true →
        (s.lock = lockLocked ∨ (s.lock = lockAcquiring ∧ s.time.wasLocked = true)) → s.time.lastHeard + 16384 ≤ s.clock →
        Answers .holdoverEntry s fun t => t.lock = lockHoldover ∧ t.time.holdSince = s.clock ∧ t.time.limitMet = false ∧
          t = { s with regs := t.regs, time := t.time }) ∧
      (∀ (s : State), s.lock = lockHoldover → s.time.limitMet = false → s.time.holdSince + 1000000 ≤ s.clock →
        Answers .holdoverLimit s fun t => t.time.limitMet = true ∧ t.flag .ftb FTB_EVENTS 0 = true ∧ Logged .ftb 0x3083 3 [] s t ∧
          (∀ j ∈ jobSlots, (s.job j).running = true → (t.job j).stops.any (·.kind == .fault) = true) ∧ t.mem = s.mem) ∧
      (∀ (s : State) (lo hi : W32), s.powered .ftb = true →
        (s.pendingWrite .ftb = none → Answers (.ftbBeatPreset lo hi) s fun t => t.reg .ftb FTB_BEAT_LO = lo.toNat ∧
          t.pendingWrite .ftb = some (FTB_BEAT_HI, hi.toNat) ∧ RegsOnly [Blk.ftb.base + FTB_BEAT_LO] s t ∧
          t = { s with regs := t.regs, posted := t.posted }) ∧
        (s.pendingWrite .ftb ≠ none → Machine.exec (.ftbBeatPreset lo hi) s = .next (s.writeIgnored .ftb))) ∧
      (∀ (s : State) (a : W32) (o : Nat) (hi : W32), s.powered .ftb = true → blkOfAddr a.toNat = some (.ftb, o) →
        s.pendingWrite .ftb = some (FTB_BEAT_HI, hi.toNat) →
        (s.lock = lockFree → Answers (.postedWriteEffect a) s fun t => t.beat = s.reg .ftb FTB_BEAT_LO + hi.toNat * 2 ^ 32 ∧
          t.pendingWrite .ftb = none ∧ t = { s with beat := t.beat, time := t.time, opts := t.opts, posted := t.posted }) ∧
        (s.lock ≠ lockFree → Answers (.postedWriteEffect a) s fun t => t.beat = s.beat ∧ t.flag .ftb BLK_STATUS 0 = true))

/-- With the frames begun, a boundary at or after the end of the frame as it stands makes the changes of that boundary at
that end, and then what has waited for it goes on; with the frames not begun, the frame is the one the count lies in from the
origin, and it opens as at any boundary. At the check beat the frame is marked checked, and the first missed deadline of a
running job originates a slip. A token of this slice for the current frame, in time, and not seen before is passed on and
lengthens the frame to one slip more than it names; one seen before is counted as a duplicate and changes nothing else; one
that comes after the frame's end adds no slip, is counted with those, and is logged. With the time base off, aligned
intervals take the clock steps. (R273, R274, R275, R281, R283, R284, R285, R286, R288, R467) -/
def Obligations.FramesSlipsAndTheCheckBeat : Prop :=
  (∀ (s : State), s.enabled .ftb = true → s.time.begun = true → s.frameEnd ≤ s.beat →
        Machine.exec .frameBoundary s = .next (s.boundaryAt s.frameEnd).finishForce.advanceBoxes) ∧
      (∀ (s : State), s.enabled .ftb = true → s.time.begun = true → s.beat < s.frameEnd → s.lko.forcing = none → s.foe.waiting = [] →
        Machine.exec .frameBoundary s = .next s) ∧
      (∀ (s : State), s.enabled .ftb = true → s.time.begun = false → 8 ≤ s.field .ftb FTB_FRAME_LEN 0 13 →
        s.pair .ftb FTB_ORIGIN_LO FTB_ORIGIN_HI ≤ s.beat →
        let t := s.beginFrames
        Machine.exec .frameBoundary s = .next (t.opened t.time.frameStart).finishForce.advanceBoxes ∧
          t.time.begun = true ∧ t.time.frameStart ≤ t.beat ∧ t.beat < t.time.frameStart + t.frameLen ∧
          (t.time.frameStart - s.pair .ftb FTB_ORIGIN_LO FTB_ORIGIN_HI) % s.frameLen = 0 ∧
          t.frame = (s.reg .ftb FTB_ORIGIN_FRAME +
            (t.time.frameStart - s.pair .ftb FTB_ORIGIN_LO FTB_ORIGIN_HI) / s.frameLen) % 2 ^ 32 ∧
          RegsOnly [Blk.ftb.base + FTB_FRAME] s t ∧ t = { s with regs := t.regs, time := t.time }) ∧
      (∀ (s : State), s.enabled .ftb = true → s.time.begun = true → s.time.checked = false → s.frameEnd ≤ s.beat + s.horizon →
        let r := { s with time := { s.time with checked := true } }
        ((∀ j ∈ jobSlots, r.missed j = none) → Machine.exec .checkBeat s = .next r) ∧
        (∀ e, jobSlots.findSome? (fun j => r.missed j) = some e → Machine.exec .checkBeat s = .next (r.originate e))) ∧
      (∀ (s : State) (q : PortId) (w : TokenWord), s.inDataMode q = true → s.isService q = false → w.damaged = false →
        w.gen.toNat = s.sliceGen →
        ((s.time.seen.any fun a => a.frame == w.frame.toNat && a.n == w.x.toNat) = true → Answers (.slipTokenReceive q w) s fun t =>
          t.reg .ftb FTB_CNT_DUP = (s.reg .ftb FTB_CNT_DUP + 1) % 2 ^ 32 ∧ RegsOnly [Blk.ftb.base + FTB_CNT_DUP] s t ∧
          t = { s with regs := t.regs }) ∧
        ((s.time.seen.any fun a => a.frame == w.frame.toNat && a.n == w.x.toNat) = false → s.enabled .ftb = true → s.time.begun = true →
          w.frame.toNat = s.frame → s.reg .ftb FTB_CUR_EXT ≤ w.x.toNat → s.beat < s.frameEnd → s.anyRunning = false →
          Answers (.slipTokenReceive q w) s fun t =>
            t.reg .ftb FTB_CUR_EXT = w.x.toNat + 1 ∧ t.frameEnd = s.time.frameStart + s.frameLen + s.frameLen / 8 * (w.x.toNat + 1) ∧
            t.reg .ftb FTB_CNT_SLIPS = (s.reg .ftb FTB_CNT_SLIPS + (w.x.toNat + 1 - s.reg .ftb FTB_CUR_EXT)) % 2 ^ 32 ∧
            t.reg .ftb FTB_LAST_SLIP = s.frame ∧ t.reg .ftb FTB_LAST_SRC = w.src.toNat ∧ t.time.checked = false ∧
            t.out = s.out ++ ((s.floodPorts (some q)).filter fun p => s.feed p != 0).map
              (fun p => .slipToken (portIdx p) s.sliceGen s.frame w.x.toNat w.src.toNat) ∧
            t.jobs = s.jobs ∧ t.mem = s.mem) ∧
        ((s.time.seen.any fun a => a.frame == w.frame.toNat && a.n == w.x.toNat) = false → s.enabled .ftb = true → s.time.begun = true →
          w.frame.toNat = s.frame → s.reg .ftb FTB_CUR_EXT ≤ w.x.toNat → s.frameEnd ≤ s.beat →
          Answers (.slipTokenReceive q w) s fun t => t.reg .ftb FTB_CUR_EXT = s.reg .ftb FTB_CUR_EXT ∧
            t.reg .ftb FTB_CNT_DUP = (s.reg .ftb FTB_CNT_DUP + 1) % 2 ^ 32 ∧ t.flag .ftb FTB_EVENTS 2 = true ∧
            Logged .ftb 0x3082 3 [s.frame, w.x.toNat] s t ∧
            (∀ j ∈ jobSlots, (s.job j).running = true → (t.job j).stops.any (·.kind == .fault) = true))) ∧
      (∀ (s : State), s.enabled .ftb = false → s.beat % 65536 = 0 → Machine.exec .alignedIntervalBoundary s = .next (s.stepAt s.beat))

/-- For a running job with the time base enabled, the due and untaken entry named by the command takes effect: a SEND whose
object holds at least 1, with no earlier SEND of the tile ready, takes 1 from the object, is owed no more and starts its PUT
transfer (where the read of its bytes meets an error the job faults, and no transfer starts: log entry 103); an EXPECT is
owed no more and waits, with a record of its transfer if none stands, or signals at once if it was complete before; a window
is owed no more and open, and every batch of the tile's clusters that it carries leaves. A SEND whose object holds nothing
changes nothing. (R278, R279, R280, R281) -/
def Obligations.PlanEntriesTakeEffectAtTheirBeat : Prop :=
  (∀ (s : State) (j : Fin 16) (i : Fin 8) (idx : Nat) (m : Mark) (e : PlanEntry), s.dueEntry j.val i idx 0 = some (m, e) →
        s.enabled (.til i) = true →
        (s.entryReady e = true → (∀ n < idx, ∀ m' e', s.dueEntry j.val i n 0 = some (m', e') → s.entryReady e' = false) →
          ∀ found, let z := (s.takeWait (syncTarget e.sync).1 (syncTarget e.sync).2 1).markDone j.val m
            let r := z.slotRead (.til i) j.val [(e.src, e.length)] found
          Machine.exec (.planSend j i idx found) s = .next (if r.2 then r.1 else r.1.startXfer i
              { job := (s.job j.val).job, dst := e.peer, flow := 640 + i.val, step := m.step, xfer := e.xfer, typ := typPut,
                dtile := i.val, dcluster := 0, dunit := 0, base := e.dst, src := e.src, body := [], len := e.length,
                held := [], ready := [], next := 0, whole := 0, timer := none })) ∧
        (s.entryReady e = false → ∀ found, Machine.exec (.planSend j i idx found) s = .next s)) ∧
      (∀ (s : State) (j : Fin 16) (i : Fin 8) (idx : Nat) (m : Mark) (e : PlanEntry), s.dueEntry j.val i idx 1 = some (m, e) →
        s.enabled (.til i) = true → m ∉ (s.job j.val).done →
        let k : XferKey := ⟨(s.job j.val).job, e.peer, 640 + i.val, m.step % 2 ^ 16, e.xfer⟩
        (s.rxOf i k = none → Answers (.planExpect j i idx) s fun t =>
          (t.job j.val).waiting = (s.job j.val).waiting ++ [m] ∧ m ∉ (t.job j.val).owed ∧
          (∃ x ∈ (t.fabric i).rx, x.key = k ∧ x.got = [] ∧ x.seen = false ∧ x.len = e.length) ∧
          t = { s with jobs := t.jobs, fabrics := t.fabrics }) ∧
        (∀ x, s.rxOf i k = some x → Answers (.planExpect j i idx) s fun t =>
          (t.job j.val).waiting = (s.job j.val).waiting ++ [m] ∧ m ∉ (t.job j.val).owed ∧
          t.mem = s.mem ∧ t.fabrics = s.fabrics)) ∧
      (∀ (s : State) (j : Fin 16) (i : Fin 8) (idx : Nat) (m : Mark) (e : PlanEntry), s.dueEntry j.val i idx 1 = some (m, e) →
        m ∈ (s.job j.val).done → (∀ n ∈ (s.job j.val).waiting, n ∉ (s.job j.val).done) → Machine.exec (.planExpect j i idx) s = .next
          ((s.setJob j.val { s.job j.val with owed := (s.job j.val).owed.filter (· != m) }).signal
            [⟨(syncTarget e.sync).1, (syncTarget e.sync).2, 1⟩])) ∧
      (∀ (s : State) (j : Fin 16) (i : Fin 8) (idx : Nat) (m : Mark) (e : PlanEntry), s.dueEntry j.val i idx 2 = some (m, e) →
        Machine.exec (.windowOpen j i idx) s = .next (clusters80.foldl (fun s c => s.drain ⟨i, c⟩)
          (s.setJob j.val { s.job j.val with owed := (s.job j.val).owed.filter (· != m), opened := (s.job j.val).opened ++ [m] })))

/-- On a port whose tile is enabled, a packet is dropped with one count in the counter of the first check that it fails, in
the order FEC (any, on a port in no data mode: log entry 99), header, generation (stale or ahead), member, route, hop limit,
and changes no transfer, no job and no byte of memory; one that an uncorrectable codeword touched is counted by its port too;
a packet for another module that passes is forwarded with one hop less; one for this module goes to its tile, where the CRC,
the job and the step are checked in turn. The first packet of a longer PUT is counted and its bytes are written at BASE plus
OFFSET, and no other byte changes. (R295, R296, R298, R299, R303, R305, R312) -/
def Obligations.PacketChecksDropInOrder : Prop :=
  (∀ (s : State) (m : Fin 48) (lane : Fin 2) (fec : Bool) (raw : List Byte), s.enabled (.til (portOfIdx m.val).tile) = true →
        s.powered (.opt (portOfIdx m.val)) = true →
        let i := (portOfIdx m.val).tile
        let p := Pkt.ofBytes raw
        let c1 := s.framesPackets m.val = true ∧ fec = true ∧ raw.length = 56 + 256 * p.units
        let c2 := c1 ∧ p.badHeader = false
        let c3 := c2 ∧ p.gen = s.gen i
        let c4 := c3 ∧ s.routeValid i p.src = true ∧ sameGroup p.src (s.coord i) = true
        let c5 := sameGroup p.dst (s.coord i) = true ∧ s.routeValid i p.dst = true ∧ s.choose i p lane.val ≠ none
        (∀ cnt, (¬c1 ∧ cnt = TIL_CNT_DROP_FEC ∨ c1 ∧ p.badHeader = true ∧ cnt = TIL_CNT_DROP_HDR ∨
            c2 ∧ p.gen ≠ s.gen i ∧ cnt = (if newerGen (s.gen i) p.gen then TIL_CNT_DROP_STALE else TIL_CNT_DROP_AHEAD) ∨
            c3 ∧ ¬(s.routeValid i p.src = true ∧ sameGroup p.src (s.coord i) = true) ∧ cnt = TIL_CNT_DROP_MEMBER ∨
            c4 ∧ p.dst ≠ s.coord i ∧ ¬c5 ∧ cnt = TIL_CNT_DROP_ROUTE ∨
            c4 ∧ p.dst ≠ s.coord i ∧ c5 ∧ p.hoplimit = 0 ∧ cnt = TIL_CNT_DROP_HOPS) →
          Answers (.packetReceive (.port m lane fec raw)) s fun t => t.reg (.til i) cnt = (s.reg (.til i) cnt + 1) % 2 ^ 32 ∧
            (s.framesPackets m.val = true → fec = false → t.reg (.opt (portOfIdx m.val)) OPT_CNT_UNCORR =
              (s.reg (.opt (portOfIdx m.val)) OPT_CNT_UNCORR + 1) % 2 ^ 32) ∧
            t = { s with regs := t.regs, tally := t.tally, freeCount := t.freeCount }) ∧
        (c4 → p.dst ≠ s.coord i → c5 → p.hoplimit ≠ 0 → Machine.exec (.packetReceive (.port m lane fec raw)) s =
          .next ((s.bump (.til i) TIL_CNT_FWD).forward i { p with hoplimit := p.hoplimit - 1 } lane.val m.val)) ∧
        (c4 → p.dst = s.coord i → Machine.exec (.packetReceive (.port m lane fec raw)) s = .next (s.deliverPkt m.val p))) ∧
      (∀ (s : State) (p : Pkt) (l : List Pkt), s.loopback = p :: l →
        Machine.exec (.packetReceive .loopback) s = .next ({ s with loopback := l }.deliverPkt ownPort p)) ∧
      (∀ (s : State) (n : Nat) (p : Pkt), let i := Fin.ofNat 8 p.dtile
        s.enabled (.til i) = true →
        (∀ cnt, (p.trailer ≠ p.crc ∧ cnt = TIL_CNT_DROP_CRC ∨ p.trailer = p.crc ∧ s.slotOfJob p.job = none ∧ cnt = TIL_CNT_DROP_JOB ∨
            p.trailer = p.crc ∧ p.typ ≠ typReduce ∧ (∃ j, s.slotOfJob p.job = some j ∧ stepInWindow (s.job j).step p.step = none) ∧
              cnt = TIL_CNT_DROP_STEP) →
          (s.deliverPkt n p).reg (.til i) cnt = (s.reg (.til i) cnt + 1) % 2 ^ 32 ∧
          s.deliverPkt n p = { s with regs := (s.deliverPkt n p).regs, tally := (s.deliverPkt n p).tally,
                                      freeCount := (s.deliverPkt n p).freeCount }) ∧
        (∀ j step, p.trailer = p.crc → p.typ = typPut → s.slotOfJob p.job = some j → stepInWindow (s.job j).step p.step = some step →
          s.rxOf i p.key = none → 4096 ≤ p.lenM1 → p.offset ≤ p.lenM1 →
          let data := p.payload.take (min 4096 (p.lenM1 + 1 - p.offset))
          rangeBacked (p.base + p.offset) data.length = true →
          (s.deliverPkt n p).readBytes (p.base + p.offset) data.length = data ∧
          MemOnly (p.base + p.offset) data.length s (s.deliverPkt n p) ∧
          (s.deliverPkt n p).reg (.til i) TIL_CNT_RX = (s.reg (.til i) TIL_CNT_RX + 1) % 2 ^ 32 ∧
          (s.deliverPkt n p).jobs = s.jobs))

/-- With the main domain on, a credit lets the first packet held on its lane leave on a port that is up, and is kept where
none is held. A tile injects the next packet of its first transfer that waits, if the resend buffer has room and the read of
its bytes meets no error (log entry 103). An ACK of a transfer in progress releases it; of one that is not, it is counted. A
NACK has the packets it misses sent again. A gap timer that is due sends a NACK, or fails the transfer at the retry limit; an
ACK timer that is due sends the whole transfer again, or fails it: the failure is logged, counted and stops the job. (R302,
R306, R307, R308, R309, R310, R311) -/
def Obligations.LinksCreditsAndRecovery : Prop :=
  (∀ (s : State) (m : Fin 48) (l : Fin 2), s.mainOn = true →
        ((s.portQ m.val).lane l.val = [] → Answers (.creditReturn m l) s fun t =>
          (t.portQ m.val).credit l.val = (s.portQ m.val).credit l.val + 1 ∧ (t.portQ m.val).lane l.val = [] ∧
          t = { s with ports := t.ports }) ∧
        (∀ p r, (s.portQ m.val).lane l.val = p :: r → s.portState m.val = 3 → Answers (.creditReturn m l) s fun t =>
          (t.portQ m.val).credit l.val = (s.portQ m.val).credit l.val ∧ (t.portQ m.val).lane l.val = r ∧
          t.out = s.out ++ [.packet m.val l.val p] ∧ t = { s with ports := t.ports, out := t.out })) ∧
      (∀ (s : State) (i : Fin 8) (n : Nat) (x : TxXfer), s.enabled (.til i) = true →
        findIdx? (fun (x : TxXfer) => x.waits) (s.fabric i).tx 0 = some (n, x) →
        ∀ (j : Nat) (e : Ecc), s.slotOfJob x.job = some j →
        let r := s.slotRead (.til i) j x.nextReads e
        Machine.exec (.packetInject ⟨i, e⟩) s = .next (if r.2 then r.1 else (r.1.injectNext i n).1)) ∧
      (∀ (s : State) (i : Fin 8) (p : Pkt) (l : List Pkt), s.enabled (.til i) = true → (s.fabric i).arrived = p :: l →
        p.typ = typAck →
        ((s.fabric i).tx.any (fun x => x.key == p.key) = true → Answers (.ackReceive i) s fun t =>
          (t.fabric i).tx = (s.fabric i).tx.filter (fun x => x.key != p.key) ∧ (t.fabric i).arrived = l ∧
          (t.fabric i).released = p.key :: (s.fabric i).released ∧ t = { s with fabrics := t.fabrics }) ∧
        ((s.fabric i).tx.any (fun x => x.key == p.key) = false → Answers (.ackReceive i) s fun t =>
          t.reg (.til i) TIL_CNT_DUP = (s.reg (.til i) TIL_CNT_DUP + 1) % 2 ^ 32 ∧ (t.fabric i).arrived = l ∧
          (t.fabric i).tx = (s.fabric i).tx)) ∧
      (∀ (s : State) (i : Fin 8) (p : Pkt) (l : List Pkt) (n : Nat) (x : TxXfer), s.enabled (.til i) = true →
        (s.fabric i).arrived = p :: l → p.typ = typNack →
        findIdx? (fun (x : TxXfer) => x.key == p.key) (s.fabric i).tx 0 = some (n, x) → x.held ≠ [] →
        let want (q : Pkt) : Bool := !bit (leVal p.payload) q.index
        let r := (s.setFabric i { s.fabric i with arrived := l }).bump (.til i) TIL_CNT_NACK_RCVD
        let y := { x with timer := x.timer.map fun _ => s.beat }
        Machine.exec (.nackReceive i) s = .next (((r.setFabric i { r.fabric i with tx := (s.fabric i).tx.set n y }).bump (.til i) TIL_CNT_RESENT (x.held.filter want).length).resend i x want)) ∧
      (∀ (s : State) (i : Fin 8) (n : Nat) (x : RxXfer), s.enabled (.til i) = true → (s.fabric i).rx[n]? = some x →
        x.complete = false → x.failed = false → x.timer + s.field (.til i) TIL_GAP 0 24 ≤ s.beat →
        (x.nacks < s.retryLimit i → Machine.exec (.gapTimerExpiry i n) s =
          .next (((s.setRx i { x with nacks := x.nacks + 1, timer := s.beat }).sendControl i typNack x.job x.src x.flow x.step x.xfer
            x.bitmap).bump (.til i) TIL_CNT_NACK_SENT)) ∧
        (s.retryLimit i ≤ x.nacks → Answers (.gapTimerExpiry i n) s fun t => t.flag (.til i) TIL_STATUS 9 = true ∧
          t.reg (.til i) TIL_CNT_FAILED = (s.reg (.til i) TIL_CNT_FAILED + 1) % 2 ^ 32 ∧
          (∀ j, s.slotOfJob x.job = some j → (t.job j).stops.any (·.kind == .fault) = true) ∧ t.mem = s.mem)) ∧
      (∀ (s : State) (i : Fin 8) (n b : Nat) (x : TxXfer), s.enabled (.til i) = true → (s.fabric i).tx[n]? = some x →
        x.timer = some b → b + s.field (.til i) TIL_ACK_TO 0 24 ≤ s.beat →
        (x.whole < s.retryLimit i → Machine.exec (.ackTimerExpiry i n) s =
          .next (((s.setFabric i { s.fabric i with tx := (s.fabric i).tx.set n ({ x with timer := some s.beat, whole := x.whole + 1 }) }).bump
            (.til i) TIL_CNT_ACK_TO).resend i x fun _ => true)) ∧
        (s.retryLimit i ≤ x.whole → Answers (.ackTimerExpiry i n) s fun t => t.flag (.til i) TIL_STATUS 9 = true ∧
          t.reg (.til i) TIL_CNT_FAILED = (s.reg (.til i) TIL_CNT_FAILED + 1) % 2 ^ 32 ∧
          (∀ j, s.slotOfJob x.job = some j → (t.job j).stops.any (·.kind == .fault) = true) ∧ t.mem = s.mem))

/-- For every packet whose fields fit their widths in the header, with the reserved bits clear and a trailer of 64 bits, the
packet that its bytes spell is the packet itself: header, payload and trailer. (R290, R291, R295) -/
def Obligations.PacketBytesSpellThePacket : Prop :=
  ∀ (p : Pkt), p.hver < 2 ^ 2 → p.typ < 2 ^ 4 → p.job < 2 ^ 12 → p.gen < 2 ^ 16 → p.units < 2 ^ 5 → p.flow < 2 ^ 10 →
      p.hoplimit < 2 ^ 6 → p.src < 2 ^ 32 → p.dst < 2 ^ 32 → p.seq < 2 ^ 24 → p.xfer < 2 ^ 24 → p.dtile < 2 ^ 3 →
      p.dcluster < 2 ^ 7 → p.dunit < 2 ^ 3 → p.offset < 2 ^ 24 → p.lenM1 < 2 ^ 24 → p.step < 2 ^ 16 → p.base < 2 ^ 48 →
      p.reserved = false → p.trailer < 2 ^ 64 → Pkt.ofBytes p.bytes = p

/-- A REDUCE entry whose beat has passed, whose object holds 1 and whose stream is open and local takes the 1 from its object
and marks the entry served: a contribution header that breaks R319 faults the stream with 0x3104, an exponent other than the
stream's with 0x3103, and otherwise the local contribution is added, unless its read meets an error (log entry 103). A
reduction packet leaves the tile's arrivals; one of no running job, or of a step outside the window, adds nothing; one whose
STREAM and XFER no entry of its step has is dropped and logged with 0x3107; one whose header breaks R322 is dropped with
0x3109, one of a source too many with 0x3102, one of another exponent with 0x3103, each with a job fault; one already taken
is counted and adds nothing; any other is added: its values to the totals of its packet index, its masks, count and largest
exponent to those of the index, and no other index changes. When the last input of an index is in, a NODE sends its output,
header and values as R322 has them, and a ROOT writes its results, or faults with 0x3105 where the summands are not TOTAL;
with its last index it writes the result header, completes and signals. (R317, R319, R320, R321, R322, R323, R324, R325,
R326, R329, R444) -/
def Obligations.ReductionInputsReachTheirStream : Prop :=
  (∀ (s : State) (j : Fin 16) (t : Fin 8) (idx : Nat) (m : Mark) (e : PlanEntry) (x : LndStream),
        s.dueEntry j.val t idx 3 = some (m, e) → s.stream? t j.val m.step (bits e.param 0 8) = some x → s.enabled (.lnd t) = true →
        x.isLocal = true → x.localIn = false → s.entryReady e = true →
        let r := (s.takeWait (syncTarget e.sync).1 (syncTarget e.sync).2 1).markDone j.val m
        let exp := sgn (r.rd e.src 1) 8
        (r.badContrib e.src e.length = true → ∀ err, Machine.exec (.reduceLocalRead j t idx err) s =
          .next (r.lndFault t 0x3104 j.val m.step x.stream 0)) ∧
        (r.badContrib e.src e.length = false → (∃ y, x.exp = some y ∧ y ≠ exp) → ∀ err,
          Machine.exec (.reduceLocalRead j t idx err) s = .next (r.lndFault t 0x3103 j.val m.step x.stream 0)) ∧
        (r.badContrib e.src e.length = false → (∀ y, x.exp = some y → y = exp) → ∀ err,
          let z := r.slotRead (.lnd t) j.val (r.contribReads e.src e.length) err
          Machine.exec (.reduceLocalRead j t idx err) s = .next (if z.2 then z.1 else z.1.addLocal t x e.src exp))) ∧
      (∀ (s : State) (t : Fin 8) (p : Pkt) (l : List Pkt), s.enabled (.til t) = true → (s.fabric t).arrived = p :: l →
        p.typ = typReduce →
        let r := s.setFabric t { s.fabric t with arrived := l }
        (s.slotOfJob p.job = none → Machine.exec (.reducePacketReceive t) s = .next r) ∧
        (∀ j, s.slotOfJob p.job = some j → stepInWindow (s.job j).step p.step = none →
          Machine.exec (.reducePacketReceive t) s = .next r) ∧
        (∀ j step, s.slotOfJob p.job = some j → stepInWindow (s.job j).step p.step = some step →
          Machine.exec (.reducePacketReceive t) s = .next (r.reduceInput t j step p) ∧
          (s.enabled (.lnd t) = true →
            (∀ q ∈ (s.job j).reduceEntries t step, bits q.2.param 0 8 ≠ fieldAt p.payload 0 1 ∨ q.2.xfer ≠ p.xfer) →
            Answers (.reducePacketReceive t) s fun z => z.reg (.lnd t) LND_CNT_DROP = (s.reg (.lnd t) LND_CNT_DROP + 1) % 2 ^ 32 ∧
              z.flag (.lnd t) LND_STATUS 6 = true ∧ z.landings = s.landings ∧ z.mem = s.mem ∧ z.jobs = s.jobs ∧
              Logged (.lnd t) 0x3107 2 [j + fieldAt p.payload 0 1 * 2 ^ 8, step, p.src] s z))) ∧
      (∀ (s : State) (t : Fin 8) (j step idx : Nat) (p : Pkt) (e : PlanEntry) (x : LndStream), s.enabled (.lnd t) = true → j < 16 →
        let sid := fieldAt p.payload 0 1
        let i := p.offset / 3072
        let z := s.reduceInput t j step p
        ((s.job j).reduceEntries t step).find? (fun q => bits q.2.param 0 8 == sid && q.2.xfer == p.xfer) = some (idx, e) →
        s.stream? t j step sid = some x →
        ((s.landing t).streams.any fun y => y.slot == j && y.stream == sid && y.isOpen && later32 step y.step) = false →
        let faults (code : Nat) : Prop := z.reg (.lnd t) LND_CNT_DROP = (s.reg (.lnd t) LND_CNT_DROP + 1) % 2 ^ 32 ∧
          z.flag (.lnd t) LND_STATUS (lndBit code) = true ∧ z.reg (.lnd t) LND_FAULT % 2 ^ 8 = code % 2 ^ 8 ∧ z.mem = s.mem ∧
          (z.stream? t j step sid).map (·.acc) = some x.acc ∧
          ((s.job j).running = true → (z.job j).stops.any (·.kind == .fault) = true)
        let known := p.src ∈ x.sources
        let got := ((s.rxOf t p.key).map fun r => r.got.contains i) = some true
        let exp := sgn (fieldAt p.payload 4 1) 8
        (badReduce p e.length = true → faults 0x3109) ∧
        (badReduce p e.length = false → ¬known → x.fanin ≤ x.sources.length → faults 0x3102) ∧
        (badReduce p e.length = false → known ∨ x.sources.length < x.fanin → ¬got → (∃ y, x.exp = some y ∧ y ≠ exp) → faults 0x3103) ∧
        (badReduce p e.length = false → known → got → z.reg (.lnd t) LND_CNT_DUP = (s.reg (.lnd t) LND_CNT_DUP + 1) % 2 ^ 32 ∧
          z.stream? t j step sid = some x ∧ z.mem = s.mem) ∧
        (badReduce p e.length = false → known ∨ x.sources.length < x.fanin → ¬got → (∀ y, x.exp = some y → y = exp) →
          256 + 4 * x.count i ≤ p.payload.length → (x.isLocal = true ∧ x.localIn = false) ∨ (x.accOf i).kids + 1 < x.fanin →
          ∃ y, z.stream? t j step sid = some y ∧ y.exp = some exp ∧ p.src ∈ y.sources ∧ (∀ k, k ≠ i → y.accOf k = x.accOf k) ∧
            (y.accOf i).totals = ((x.accOf i).add (x.count i) (reduceInput p.payload (x.count i))).totals ∧
            (y.accOf i).nonfinite = Nat.lor (x.accOf i).nonfinite (fieldAt p.payload 2 1) ∧
            (y.accOf i).clipped = Nat.lor (x.accOf i).clipped (fieldAt p.payload 3 1) ∧
            (y.accOf i).summed = (x.accOf i).summed + fieldAt p.payload 6 2 ∧
            (y.accOf i).maxExp = max (x.accOf i).maxExp (sgn (fieldAt p.payload 5 1) 8) ∧ (y.accOf i).kids = (x.accOf i).kids + 1 ∧
            z.reg (.lnd t) LND_CNT_PKT_IN = (s.reg (.lnd t) LND_CNT_PKT_IN + 1) % 2 ^ 32)) ∧
      (∀ (n : Nat) (h : List Byte) (a : LndAcc) (q : Nat), q < n → a.totals = [] ∨ a.totals.length = n →
        (a.add n (reduceInput h n)).totals.getD q 0 = a.totals.getD q 0 + sgn (fieldAt h (256 + 4 * q) 4) 32) ∧
      (∀ (s : State) (t : Fin 8) (j step sid i : Nat) (x : LndStream), s.stream? t j step sid = some x →
        let a := x.accOf i
        a.formed = false → (x.isLocal = true → x.localIn = true) → x.fanin ≤ a.kids → a.summed ≤ 65535 →
        (x.isRoot = false → ∃ h n, s.tryOutput t j step sid i =
            ((s.putStream t (x.setAcc i { a with totals := [], formed := true })).bump (.lnd t) LND_CNT_CLIPPED n).sendReduce t x i h ∧
          fieldAt h 0 1 = x.stream % 2 ^ 8 ∧ fieldAt h 1 1 = x.blocks i ∧ fieldAt h 2 1 = a.nonfinite % 2 ^ 8 ∧
          fieldAt h 4 1 = unsgn (x.exp.getD 0) 8 ∧ fieldAt h 5 1 = unsgn a.maxExp 8 ∧ fieldAt h 6 2 = a.summed ∧
          fieldAt h 8 4 = x.elements % 2 ^ 32 ∧ fieldAt h 0xC 4 = i % 2 ^ 32 ∧
          ∀ q v, a.totals[q]? = some v → sgn (fieldAt h (256 + 4 * q) 4) 32 = (sat32 v).1 ∧
            (q < 768 → bit a.clipped (q / 256) = true ∨ (sat32 v).2 = true → bit (fieldAt h 3 1) (q / 256) = true)) ∧
        (x.isRoot = true → a.summed ≠ x.total → s.tryOutput t j step sid i =
          (s.putStream t (x.setAcc i { a with totals := [], formed := true })).lndFault t 0x3105 j step sid 0) ∧
        (x.isRoot = true → a.summed = x.total → rangeHbm (x.resultAddr + 64 + 3072 * i) (4 * a.totals.length) = true →
          x.written + 1 ≠ x.packets → let z := s.tryOutput t j step sid i
          MemOnly (x.resultAddr + 64 + 3072 * i) (4 * a.totals.length) s z ∧
          (∀ q v, a.totals[q]? = some v → z.rd (x.resultAddr + 64 + 3072 * i + 4 * q) 4 =
            if bit a.nonfinite (q / 256) then 0x7FC00000 else (rootValue v (x.exp.getD 0)).1 % 2 ^ 32) ∧
          (z.stream? t j step sid).map (·.written) = some (x.written + 1)) ∧
        (x.isRoot = true → a.summed = x.total → rangeHbm x.resultAddr (64 + 3072 * i + 4 * a.totals.length) = true →
          x.written + 1 = x.packets → ∃ u, s.tryOutput t j step sid i = u.signal [⟨x.done.1, x.done.2, 1⟩] ∧
            let wide := blockMask (((upFrom 0 a.totals.length).zip a.totals).map fun p =>
              !bit a.nonfinite (p.1 / 256) && (rootValue p.2 (x.exp.getD 0)).2)
            (u.stream? t j step sid).map (·.complete) = some true ∧ (⟨t.val, x.idx, step⟩ : Mark) ∈ (u.job j).done ∧
            u.reg (.lnd t) LND_CNT_DONE = (s.reg (.lnd t) LND_CNT_DONE + 1) % 2 ^ 32 ∧
            u.rd x.resultAddr 4 = step % 2 ^ 32 ∧ u.rd (x.resultAddr + 4) 1 = sid % 2 ^ 8 ∧
            u.rd (x.resultAddr + 5) 1 = unsgn (x.exp.getD 0) 8 ∧ u.rd (x.resultAddr + 6) 1 = unsgn (max x.maxExp a.maxExp) 8 ∧
            u.rd (x.resultAddr + 8) 4 = x.elements % 2 ^ 32 ∧ u.rd (x.resultAddr + 0xC) 4 = x.total % 2 ^ 32 ∧
            u.rd (x.resultAddr + 0x10) 4 = (x.clippedBlocks + bitCount (Nat.lor a.clipped wide)) % 2 ^ 32 ∧
            u.rd (x.resultAddr + 0x14) 4 = (x.nanBlocks + bitCount a.nonfinite) % 2 ^ 32 ∧
            MemOnly x.resultAddr (64 + 3072 * i + 4 * a.totals.length) s u))

/-- In hail a port with a feed sends a frame on its lowest fed wavelength when none has been sent or 256 beats have passed,
moves its receiver to the next wavelength after each dwell of 100 µs, and reports 10 ms without a frame. A discarded frame is
counted; an accepted one tells of the partner, and a capability frame from a partner that passes R338 is accepted once and
locks the drop filters, while one that does not is reported and logged. A trial that ended counts its corrections, enters its
mode in the margin report if it passed, and the next candidate mode follows 20 µs later; after the last the port sends its
margin report. A margin report heard once the own one has left makes the agreed margin the AND of the two: its
lowest-numbered mode is committed, and one that is empty takes the port to FAILED, logged. A commit heard for the mode that
was sent sets the switch 10 µs later; at the switch the port is UP in that mode. 100 ms after FAILED, hail begins again.
(R336, R337, R338, R339, R340, R341) -/
def Obligations.HailTrainsALink : Prop :=
  (∀ (s : State) (q : PortId), s.optState q = stHail ∨ s.optState q = stTrial → s.inTrial q = false →
        let p := s.opt q
        let h := s.hailNow q
        let seq := if p.content.isSome ∧ p.content ≠ some h then (p.seq + 1) % 256 else p.seq
        (∀ t, p.sentAt = some t → s.beat < t + 256 → Machine.exec (.hailFrameSend q) s = .next s) ∧
        (s.feed q = 0 → Machine.exec (.hailFrameSend q) s = .next s) ∧
        (∀ k, s.hailWl q = some k → (∀ t, p.sentAt = some t → t + 256 ≤ s.beat) → Answers (.hailFrameSend q) s fun t =>
          t.out = s.out ++ [.hail (portIdx q) k (hailBytes { h with seq := seq })] ∧ (t.opt q).sentAt = some s.beat ∧ (t.opt q).seq = seq ∧
          (t.opt q).content = some h ∧ t.mem = s.mem ∧
          (p.accepted = false → p.tried = false → t.regs = s.regs))) ∧
      (∀ (s : State) (q : PortId), s.optState q = stHail → (s.opt q).tuned = false →
        ((s.opt q).scanAt + 100000 ≤ s.beat → Answers (.hailDwell q) s fun t =>
          (t.opt q).scan = ((s.opt q).scan + 1) % 8 ∧ (t.opt q).scanAt = s.beat ∧ t = { s with opts := t.opts }) ∧
        ((s.opt q).hailAt + 10000000 ≤ s.beat → Answers (.hailSilent q) s fun t => t.flag (.opt q) OPT_EVENTS 8 = true ∧
          t.reg (.opt q) OPT_CNT_HAIL = (s.reg (.opt q) OPT_CNT_HAIL + 1) % 2 ^ 32 ∧ (t.opt q).hailAt = s.beat ∧
          t = { s with regs := t.regs, opts := t.opts })) ∧
      (∀ (s : State) (q : PortId) (raw : List Byte) (w : Byte), s.optState q = stHail → s.inTrial q = false →
        (hailOf raw = none → Answers (.hailFrameReceive q raw w) s fun t =>
          t.reg (.opt q) OPT_CNT_CTRL_BAD = (s.reg (.opt q) OPT_CNT_CTRL_BAD + 1) % 2 ^ 32 ∧ t.opts = s.opts ∧ t.mem = s.mem) ∧
        (∀ h, hailOf raw = some h → h.typ = 1 → (s.opt q).accepted = false →
          (s.partnerOk q h = true → (s.opt q).refusedSeq = none → Answers (.hailFrameReceive q raw w) s fun t =>
            (t.opt q).accepted = true ∧ (t.opt q).tuned = true ∧ (t.opt q).partner = some h ∧ t.rxLocked q = w.toNat ∧
            t.reg (.opt q) OPT_PARTNER = h.coord % 2 ^ 32 ∧ t.optState q = stHail ∧ t.mem = s.mem) ∧
          (s.partnerOk q h = false → (s.opt q).refusedSeq ≠ some h.seq → Answers (.hailFrameReceive q raw w) s fun t =>
            (t.opt q).accepted = false ∧ (t.opt q).refusedSeq = some h.seq ∧ t.flag (.opt q) OPT_EVENTS 0 = true ∧
            Logged (.opt q) 0x3201 2 [h.coord, h.port] s t ∧ t.optState q = stHail ∧ t.mem = s.mem))) ∧
      (∀ (s : State) (q : PortId) (raw : List Byte) (w : Byte) (h : Hail), s.optState q = stTrial → s.inTrial q = false →
        hailOf raw = some h → h.typ = 3 → (s.opt q).accepted = true → (s.opt q).commit = some h.mode →
        (s.opt q).commitSent = true → (s.opt q).switchAt = none → Answers (.hailFrameReceive q raw w) s fun t =>
          (t.opt q).switchAt = some (s.beat + 10000) ∧ (t.opt q).commit = some h.mode ∧ t.optState q = stTrial) ∧
      (∀ (s : State) (q : PortId) (raw : List Byte) (w : Byte) (h : Hail), s.optState q = stTrial → s.inTrial q = false →
        hailOf raw = some h → h.typ = 2 → (s.opt q).accepted = true → (s.opt q).commit = none →
        let m := Nat.land (s.opt q).margin h.margin
        ((s.opt q).tried = false ∨ (s.opt q).marginSent = false → Answers (.hailFrameReceive q raw w) s fun t =>
          (t.opt q).marginHeard = some h.margin ∧ (t.opt q).commit = none ∧ t.agreedMargin q = s.agreedMargin q ∧
          t.optState q = stTrial) ∧
        ((s.opt q).tried = true → (s.opt q).marginSent = true →
          (∀ k < 16, bit m k = true → (∀ j < k, bit m j = false) → Answers (.hailFrameReceive q raw w) s fun t =>
            t.agreedMargin q = m ∧ (t.opt q).commit = some k ∧ (t.opt q).committed = k ∧ (t.opt q).typ = 3 ∧
            t.optState q = stTrial ∧ t.mem = s.mem) ∧
          (m = 0 → Answers (.hailFrameReceive q raw w) s fun t =>
            t.optState q = stFailed ∧ (t.opt q).failedAt = s.beat ∧ t.agreedMargin q = 0 ∧ t.flag (.opt q) OPT_EVENTS 1 = true ∧
            Logged (.opt q) 0x3202 (s.failLevel q) [portIdx q, (s.opt q).margin, h.margin] s t ∧
            (s.isService q = false → ∀ j ∈ jobSlots, (s.job j).running = true → (t.job j).stops.any (·.kind == .fault) = true)))) ∧
      (∀ (s : State) (q : PortId) (unc : Nat) (c : TrialCount) (n m : Nat), (s.opt q).trial = some m → s.optState q = stTrial →
        (s.opt q).trialAt + 100000 ≤ s.beat →
        let pass := unc = 0 ∧ (if modeInner m then c.bitErrors * 1000 * 120 ≤ 2 * n * 5440 * 128 else c.symbols * 10000 ≤ 2 * n * 544)
        (pass → Machine.exec (.trialEnd q unc c n) s =
          .next (((s.countTrial q unc c n).setOpt q { s.opt q with margin := Nat.lor (s.opt q).margin (2 ^ m) }).goTrial q (m + 1) (s.beat + 20000))) ∧
        (¬pass → Machine.exec (.trialEnd q unc c n) s =
          .next (((s.countTrial q unc c n).setOpt q (s.opt q)).goTrial q (m + 1) (s.beat + 20000))) ∧
        (Answers (.trialEnd q unc c n) s fun t =>
          t.reg (.opt q) OPT_CNT_CORR_SYM = (s.reg (.opt q) OPT_CNT_CORR_SYM + c.symbols) % 2 ^ 32 ∧
          t.reg (.opt q) OPT_CNT_INNER = (s.reg (.opt q) OPT_CNT_INNER + c.inner) % 2 ^ 32 ∧
          (∀ k, s.nextTrial q (m + 1) = some k → (t.opt q).trial = some k ∧ (t.opt q).trialAt = s.beat + 20000 ∧ t.optState q = stTrial) ∧
          (s.nextTrial q (m + 1) = none → (t.opt q).typ = 2 ∧ (t.opt q).tried = true ∧ t.optState q = stTrial))) ∧
      (∀ (s : State) (q : PortId) (a m : Nat), s.optState q = stTrial → (s.opt q).switchAt = some a → (s.opt q).commit = some m → m < 16 →
        (s.beat < a → Machine.exec (.modeSwitch q) s = .next s) ∧
        (a ≤ s.beat → Answers (.modeSwitch q) s fun t => t.optState q = stUp ∧ t.optMode q = m ∧
          t.inUse q = lowestBits (s.bothLocked q) (modeWls m) ∧ t.mem = s.mem ∧ t.tally = s.tally)) ∧
      (∀ (s : State) (q : PortId), s.optState q = stFailed →
        (s.beat < (s.opt q).failedAt + 100000000 → Machine.exec (.hailRetry q) s = .next s) ∧
        ((s.opt q).failedAt + 100000000 ≤ s.beat → Answers (.hailRetry q) s fun t => t.optState q = stHail ∧ t.inUse q = 0 ∧
          t.agreedMargin q = 0 ∧ (t.opt q).accepted = false ∧ (t.opt q).scan = 0 ∧ (t.opt q).scanAt = s.beat ∧ t.mem = s.mem))

/-- Calibration, every 10 µs, stores the monitors of each wavelength; a reading of at least +9 dBm makes a wavelength fed and
a lower one unfed, and one in use then loses its lock. A wavelength that sees no light is noted once, and if it is in use the
port leaves UP; more than 1 ms later it loses its lock. Light on every wavelength in use within 1 ms of going dark brings the
port UP again; after 1 ms it counts a dark timeout, goes down and hails again. A lost lock and a lost margin start a
downgrade, with the lost wavelength counted, reported and logged; a low feed is reported too. A request, heard or answered,
settles the mode from the two masks that the reports carried; a repeated one is answered again and settles nothing anew; a
request is repeated every 256 beats; 20 µs without an answer take the port DOWN; 4 µs after the exchange the mode changes and
is counted. An upgrade is asked for where a better mode fits and has held for 10 ms. A capacity word of the slice is recorded
in OPT_CAP_LOG and the host is told; the first time it is received it is logged and kept for the host, and one new to the
module is sent on, on every other port with a feed that R284 floods. (R344, R345, R346, R347, R348) -/
def Obligations.LightLockAndCapacityInService : Prop :=
  (∀ (s : State) (q : PortId) (l : List WlReading), s.optState q ≠ stOff →
        ((∀ a, (s.opt q).ditherAt = some a → a + 10000 ≤ s.beat) → Machine.exec (.calibrationDither q l) s =
          .next (((upFrom 0 8).zip l).foldl (fun s x => s.dither q x.1 x.2) (s.setOpt q { s.opt q with ditherAt := some s.beat }))) ∧
        (∀ a, (s.opt q).ditherAt = some a → s.beat < a + 10000 → Machine.exec (.calibrationDither q l) s = .next s)) ∧
      (∀ (s : State) (q : PortId) (k : Nat) (r : WlReading), k < 8 →
        (36 ≤ sgn r.feed.toNat 8 → (s.dither q k r).feed q = setBitOn (s.feed q) k ∧
          (s.dither q k r).reg (.opt q) (OPT_WL k) % 2 ^ 24 = r.rx.toNat + r.feed.toNat * 2 ^ 8 + r.ser.toNat * 2 ^ 16) ∧
        (sgn r.feed.toNat 8 < 36 → (s.dither q k r).feed q = setBitOff (s.feed q) k ∧
          (s.dither q k r).reg (.opt q) (OPT_WL k) % 2 ^ 24 = r.rx.toNat + r.feed.toNat * 2 ^ 8 + r.ser.toNat * 2 ^ 16 ∧
          (bit (s.feed q) k = true → bit (s.inUse q) k = true → s.mayLose q = true →
            bit ((s.dither q k r).rxLocked q) k = false ∧ (s.dither q k r).optState q = stRetune))) ∧
      (∀ (s : State) (q : PortId) (w : Byte) (k : Nat), s.optState q ≠ stOff → k < 8 → bit w.toNat k = true →
        (s.opt q).dark1 k = false → Answers (.lightLoss q w) s fun t => (k, s.beat) ∈ (t.opt q).noLight ∧
          (s.inDataMode q = false → t = { s with opts := t.opts }) ∧
          ((s.opt q).darkAt = none → s.canLose q k = true → t.optState q = stRetune)) ∧
      (∀ (s : State) (q : PortId) (k : Fin 8) (a : Nat), (s.opt q).noLight.find? (fun x => x.1 == k.val) = some (k.val, a) →
        (s.beat ≤ a + 1000000 → Machine.exec (.calibrationLost q k) s = .next s) ∧
        (a + 1000000 < s.beat → Answers (.calibrationLost q k) s fun t => t.rxLocked q = setBitOff (s.rxLocked q) k.val ∧
          (s.canLose q k.val = false → t = { s with regs := t.regs }) ∧
          (s.canLose q k.val = true → t.optState q = stRetune ∧ t.flag (.opt q) OPT_EVENTS 2 = true))) ∧
      (∀ (s : State) (q : PortId) (w : Byte) (a : Nat), (s.opt q).darkAt = some a → s.beat ≤ a + 1000000 →
        (∀ k < 8, bit (s.inUse q) k = true → (s.opt q).dark1 k = true → bit w.toNat k = true) →
        Answers (.lightReturn q w) s fun t => t.optState q = stUp ∧ (t.opt q).darkAt = none ∧ t.tally = s.tally ∧ t.mem = s.mem) ∧
      (∀ (s : State) (q : PortId) (a : Nat), (s.opt q).darkAt = some a → a + 1000000 ≤ s.beat →
        Answers (.darkTimeout q) s fun t => t.optState q = stHail ∧ t.flag (.opt q) OPT_EVENTS 5 = true ∧
          t.reg (.opt q) OPT_CNT_DARK = (s.reg (.opt q) OPT_CNT_DARK + 1) % 2 ^ 32 ∧ (t.opt q).darkAt = none ∧ t.mem = s.mem) ∧
      (∀ (s : State) (q : PortId) (k : Fin 8), s.mayLose q = true → bit (s.inUse q) k.val = true → bit (s.rxLocked q) k.val = true →
        Answers (.wavelengthLost q k) s fun t => t.rxLocked q = setBitOff (s.rxLocked q) k.val ∧ t.optState q = stRetune ∧
          t.flag (.opt q) OPT_EVENTS 2 = true ∧ Logged (.opt q) 0x3203 2 [portIdx q, s.optMode q, 2 ^ k.val] s t ∧
          t.reg (.opt q) OPT_CNT_LOCK_LOSS = (s.reg (.opt q) OPT_CNT_LOCK_LOSS + 1) % 2 ^ 32 ∧
          (s.feed q ≠ 0 → t.out = s.out ++ [.lockReport (portIdx q) true false (setBitOff (s.rxLocked q) k.val) (s.symCounts q)]) ∧
          t.mem = s.mem) ∧
      (∀ (s : State) (q : PortId) (k : Fin 8), s.optState q ≠ stOff → bit (s.feed q) k.val = true →
        Answers (.feedLow q k) s fun t => t.feed q = setBitOff (s.feed q) k.val ∧ t.flag (.opt q) OPT_EVENTS 6 = true ∧
          (bit (s.inUse q) k.val = false → t.optState q = s.optState q ∧
            Logged (.opt q) 0x3208 2 [portIdx q, k.val, setBitOff (s.feed q) k.val] s t)) ∧
      (∀ (s : State) (q : PortId), s.optState q = stUp → Answers (.marginLoss q) s fun t => t.optState q = stRetune ∧
        (t.opt q).exchange = some ⟨false, true, s.beat, s.beat, none, 0, s.rxLocked q, 0⟩ ∧ t.rxLocked q = s.rxLocked q ∧ t.tally = s.tally ∧
        (s.feed q ≠ 0 → t.out = s.out ++ [.lockReport (portIdx q) true false (s.rxLocked q) (s.symCounts q)])) ∧
      (∀ (s : State) (q : PortId) (r : LockReport) (x : Exchange), s.inDataMode q = true → (s.opt q).darkAt = none →
        (Answers (.lockReportReceive q .answer r true) s fun t =>
          t.reg (.opt q) OPT_CNT_CTRL_BAD = (s.reg (.opt q) OPT_CNT_CTRL_BAD + 1) % 2 ^ 32 ∧ t.opts = s.opts) ∧
        ((s.opt q).exchange = some x → x.waiting = true → Machine.exec (.lockReportReceive q .answer r false) s =
          .next ((s.setOpt q ((s.opt q).hearReport r s.beat)).agreeMode q x.up x.own r.mask.toNat)) ∧
        ((s.opt q).exchange = some x → x.waiting = false → x.up = false → x.mode.isSome = true →
          x.other = r.mask.toNat → Answers (.lockReportReceive q .down r false) s fun t =>
            (t.opt q).exchange = some x ∧ t.time = s.time ∧ t.regs = s.regs ∧
            (s.feed q ≠ 0 → t.out = s.out ++ [.lockReport (portIdx q) false false x.own (s.symCounts q)])) ∧
        ((s.opt q).exchange = none → let m := s.targetMode q false (Nat.land (s.rxLocked q) r.mask.toNat)
          (m = none → Answers (.lockReportReceive q .down r false) s fun t => t.optState q = stDown) ∧
          (m.isSome = true → Answers (.lockReportReceive q .down r false) s fun t => t.optState q = stRetune ∧
            (t.opt q).exchange = some ⟨false, false, s.beat, s.beat, m, s.beat, s.rxLocked q, r.mask.toNat⟩))) ∧
      (∀ (s : State) (q : PortId) (x : Exchange), (s.opt q).exchange = some x →
        (x.waiting = true → x.lastSent + 256 ≤ s.beat → Answers (.lockReportRepeat q) s fun t =>
          (s.feed q ≠ 0 → t.out = s.out ++ [.lockReport (portIdx q) true x.up x.own (s.symCounts q)]) ∧ t.regs = s.regs ∧
          (t.opt q).exchange = some { x with lastSent := s.beat }) ∧
        (x.waiting = true → x.up = false → x.since + 20000 ≤ s.beat → Answers (.downgradeTimeout q) s fun t =>
          t.optState q = stDown ∧ t.flag (.opt q) OPT_EVENTS 5 = true ∧ (t.opt q).exchange = none ∧ t.mem = s.mem) ∧
        (∀ m < 16, x.mode = some m → x.up = false → x.agreedAt + 4000 ≤ s.beat → Answers (.downgradeSwitch q) s fun t =>
          t.optState q = stUp ∧ t.optMode q = m ∧ t.inUse q = lowestBits (Nat.land x.own x.other) (modeWls m) ∧
          t.flag (.opt q) OPT_EVENTS 3 = true ∧ Logged (.opt q) 0x3204 2 [portIdx q, s.optMode q + m * 2 ^ 8, t.inUse q] s t ∧
          t.reg (.opt q) OPT_CNT_DOWNGRADE = (s.reg (.opt q) OPT_CNT_DOWNGRADE + 1) % 2 ^ 32)) ∧
      (∀ (s : State) (q : PortId), s.optState q = stUp → s.flag (.opt q) OPT_CTRL 17 = true → (s.opt q).exchange = none →
        (∀ m, s.targetMode q true (s.bothLocked q) = some m → s.heldLong q m = true → Answers (.upgradeRequest q) s fun t => t.optState q = stUp ∧ t.regs = s.regs ∧
          (t.opt q).exchange = some ⟨true, true, s.beat, s.beat, none, 0, s.rxLocked q, 0⟩ ∧
          (s.feed q ≠ 0 → t.out = s.out ++ [.lockReport (portIdx q) true true (s.rxLocked q) (s.symCounts q)])) ∧
        (∀ m, s.targetMode q true (s.bothLocked q) = some m → s.heldLong q m = false → Machine.exec (.upgradeRequest q) s = .next s)) ∧
      (∀ (s : State) (q : PortId) (w : CapWord), s.inDataMode q = true → s.isService q = false → w.damaged = false →
        w.gen.toNat = s.sliceGen →
        let e : CapEvent := ⟨w.coord.toNat, w.port.val, w.oldMode.val, w.newMode.val, w.origin.toNat, w.frame.toNat⟩
        let words (u : State) : List OutMsg := u.out.filter fun m => match m with | .capacityWord .. => true | _ => false
        Answers (.capacityWordReceive q w) s fun t => t.flag (.opt q) OPT_EVENTS 7 = true ∧
          t.reg (.opt q) OPT_CAP_LOG = e.port + e.oldMode * 2 ^ 6 + e.newMode * 2 ^ 10 + e.frame % 2 ^ 18 * 2 ^ 14 ∧
          (e ∈ s.time.capSeen → words t = words s) ∧
          (e ∉ s.time.capSeen → words t = words s ++ ((s.floodPorts (some q)).filter fun p => s.feed p != 0).map
            (fun p => .capacityWord (portIdx p) s.sliceGen e)) ∧
          (s.mainOn = true → t.flag .mbx MBX_EVENTS 0 = true) ∧ e ∈ t.time.capSeen ∧ e ∈ t.time.capLogged ∧
          (e ∈ s.time.capSeen → t.time.capSeen = s.time.capSeen) ∧
          (e ∈ s.time.capLogged → t.foe = s.foe ∧ t.tally = s.tally) ∧
          (e ∉ s.time.capLogged → t.foe.caps.getLast? = some e ∧
            Logged (.opt q) 0x3207 1 [e.port, e.oldMode + e.newMode * 2 ^ 16, e.coord] s t))

/-- A write of a TAIL is posted; when it takes effect, a TAIL below the ring size is taken and one at or above it is ignored.
A frame sent takes a credit and the descriptor at HEAD, leaves with its FCS, and completes the descriptor and moves HEAD,
with its signal if it asks for one; a frame received that is damaged, too short or long, a pause, or finds the ring full is
dropped and counted, one for another address does nothing, and the others are stored with their descriptor. (What the
descriptors may hold, the details of a refusal, and a bulk message of a wrong size are log entries 39, 77, 78; OPT_SVC_SYNC
that names no object signals none, 102.) UCIE_TRAIN records a module and logs a reduced rate or width. A bulk access inside
the ranges moves its bytes; one outside is logged and writes nothing; an uncorrectable beat or a lost line gives no data. A
write to a mailbox that the Forester owns is logged once. A command that waited longer than its limit ends TIMEOUT, and an
opcode that no row lists ends UNKNOWN_OPCODE. (R349, R350, R351, R367, R369, R372, R376, R377, R444) -/
def Obligations.ServicePortsAndTheHostPort : Prop :=
  (∀ (s : State) (q : PortId) (v : W32), s.powered (.opt q) = true →
        (s.pendingWrite (.opt q) = none → (Answers (.svcTxTailWrite q v) s fun t =>
            t.pendingWrite (.opt q) = some (OPT_SVC_TX_TAIL, v.toNat) ∧ t = { s with posted := t.posted }) ∧
          (Answers (.svcRxTailWrite q v) s fun t =>
            t.pendingWrite (.opt q) = some (OPT_SVC_RX_TAIL, v.toNat) ∧ t = { s with posted := t.posted })) ∧
        (v.toNat < s.ringSizeOf q 0 → (s.writeEffect (.opt q) OPT_SVC_TX_TAIL v.toNat).reg (.opt q) OPT_SVC_TX_TAIL = v.toNat) ∧
        (s.ringSizeOf q 0 ≤ v.toNat % 2 ^ 16 → (s.writeEffect (.opt q) OPT_SVC_TX_TAIL v.toNat).flag (.opt q) BLK_STATUS 0 = true ∧
          RegsOnly [(Blk.opt q).base + BLK_STATUS] s (s.writeEffect (.opt q) OPT_SVC_TX_TAIL v.toNat)) ∧
        (v.toNat < s.ringSizeOf q 4 → (s.writeEffect (.opt q) OPT_SVC_RX_TAIL v.toNat).reg (.opt q) OPT_SVC_RX_TAIL = v.toNat) ∧
        (s.ringSizeOf q 4 ≤ v.toNat % 2 ^ 16 → (s.writeEffect (.opt q) OPT_SVC_RX_TAIL v.toNat).flag (.opt q) BLK_STATUS 0 = true ∧
          RegsOnly [(Blk.opt q).base + BLK_STATUS] s (s.writeEffect (.opt q) OPT_SVC_RX_TAIL v.toNat))) ∧
      (∀ (s : State) (q : PortId), s.serviceUp q = true →
        let head := s.field (.opt q) OPT_SVC_TX_HEAD 0 15
        let a := s.pair (.opt q) OPT_SVC_TX_LO OPT_SVC_TX_HI + 16 * head
        let w := s.rd a 8
        let g := syncTarget (s.reg (.opt q) OPT_SVC_SYNC)
        (head = s.field (.opt q) OPT_SVC_TX_TAIL 0 15 ∨ s.feed q = 0 ∨ (s.portQ (portIdx q)).credit0 = 0 → Machine.exec (.svcFrameSent q) s = .next s) ∧
        (head ≠ s.field (.opt q) OPT_SVC_TX_TAIL 0 15 → s.feed q ≠ 0 → (s.portQ (portIdx q)).credit0 ≠ 0 →
          ∃ u, Machine.exec (.svcFrameSent q) s = .next
              (if bit w 62 && syncNamed (s.reg (.opt q) OPT_SVC_SYNC) then u.signal [⟨g.1, g.2, 1⟩] else u) ∧
            u.out = s.out ++ [.ethernet (portIdx q) (s.readBytes (bits w 0 48) (bits w 48 14) ++
              leBytes 4 (frameCheck (s.readBytes (bits w 0 48) (bits w 48 14))))] ∧
            (u.portQ (portIdx q)).credit0 = (s.portQ (portIdx q)).credit0 - 1 ∧
            u.readBytes a 16 = leBytes 8 (setBitOn w 63) ++ leBytes 8 0 ∧ MemOnly a 16 s u ∧
            u.reg (.opt q) OPT_SVC_TX_HEAD = (head + 1) % s.ringSizeOf q 0 ∧
            u.reg (.opt q) OPT_CNT_SVC_TX = (s.reg (.opt q) OPT_CNT_SVC_TX + 1) % 2 ^ 32)) ∧
      (∀ (s : State) (q : PortId) (l : List Byte) (fcs : Bool), s.serviceUp q = true →
        let head := s.field (.opt q) OPT_SVC_RX_HEAD 0 15
        let full := head = s.field (.opt q) OPT_SVC_RX_TAIL 0 15
        let a := s.pair (.opt q) OPT_SVC_RX_LO OPT_SVC_RX_HI + 16 * head
        let w := s.rd a 8
        let dst := bits w 0 48
        let g := syncTarget (s.reg (.opt q) OPT_SVC_SYNC)
        let sound := fcs = true ∧ 60 ≤ l.length ∧ l.length ≤ 9212 ∧ beVal ((l.drop 12).take 2) ≠ 0x8808
        (¬sound ∨ s.acceptsMac q l = true ∧ full → Answers (.svcFrameReceive q l fcs) s fun t =>
          t.reg (.opt q) OPT_CNT_SVC_DROP = (s.reg (.opt q) OPT_CNT_SVC_DROP + 1) % 2 ^ 32 ∧
          RegsOnly [(Blk.opt q).base + OPT_CNT_SVC_DROP] s t ∧ t = { s with regs := t.regs }) ∧
        (sound → s.acceptsMac q l = false → Machine.exec (.svcFrameReceive q l fcs) s = .next s) ∧
        (sound → s.acceptsMac q l = true → ¬full →
          ∃ u, Machine.exec (.svcFrameReceive q l fcs) s = .next
              (if bit w 62 && syncNamed (s.reg (.opt q) OPT_SVC_SYNC) then u.signal [⟨g.1, g.2, 1⟩] else u) ∧
            u.readBytes a 16 = leBytes 8 (setBitOn (setBits w 48 14 l.length) 63) ++ leBytes 8 s.beat ∧
            (rangeDram dst l.length = true → a + 16 ≤ dst ∨ dst + l.length ≤ a → u.readBytes dst l.length = l) ∧
            (∀ x, ¬(a ≤ x ∧ x < a + 16) → ¬(rangeDram dst l.length = true ∧ dst ≤ x ∧ x < dst + l.length) → u.readByte x = s.readByte x) ∧
            u.reg (.opt q) OPT_SVC_RX_HEAD = (head + 1) % s.ringSizeOf q 4 ∧
            u.reg (.opt q) OPT_CNT_SVC_RX = (s.reg (.opt q) OPT_CNT_SVC_RX + 1) % 2 ^ 32)) ∧
      (∀ (s : State) (m : Fin 16) (r w : Bool), s.mainOn = true → Answers (.ucieTrain m r w) s fun t =>
        sget (fun _ => 0) t.foe.ucie m.val = 1 + b2n r * 2 + b2n w * 4 ∧ t.regs = s.regs ∧ t.mem = s.mem ∧
        (r = false → w = false → t.tally = s.tally) ∧ (r = true ∨ w = true → Logged .mbx 0x0211 2 [m.val] s t)) ∧
      (∀ (s : State) (a : BitVec 48) (l : List Byte), s.mainOn = true →
        (s.bulkOk a.toNat l.length 1 = true → Answers (.bulkWrite a l) s fun t => t.readBytes a.toNat l.length = l ∧
          MemOnly a.toNat l.length s t ∧ t.tally = s.tally ∧ t.out = s.out) ∧
        (s.bulkOk a.toNat l.length 1 = false → Answers (.bulkWrite a l) s fun t =>
          Logged .mbx 0x0210 2 [0, a.toNat % 2 ^ 32, a.toNat / 2 ^ 32] s t ∧ t.mem = s.mem ∧ t.regs = s.regs)) ∧
      (∀ (s : State) (a : BitVec 48) (n : Nat), s.mainOn = true →
        (s.bulkOk a.toNat n 0 = true → s.lostIn [(a.toNat, n)] = false → Answers (.bulkRead a n .ok) s fun t =>
          t = { s with out := s.out ++ [.bulkData a.toNat (s.readBytes a.toNat n) false] }) ∧
        (s.bulkOk a.toNat n 0 = true → s.lostIn [(a.toNat, n)] = true → Answers (.bulkRead a n .ok) s fun t =>
          t = { s with out := s.out ++ [.bulkData a.toNat [] true] }) ∧
        (∀ i, s.bulkOk a.toNat n 0 = true → s.lostIn [(a.toNat, n)] = false → 64 * i < n →
          let x := a.toNat + 64 * i
          ∀ b, memCtl x = some b → Answers (.bulkRead a n (.line i .dramUncorrectable)) s fun t =>
            t.out = s.out ++ [.bulkData a.toNat [] true] ∧ t.reg b HBC_CNT_UE = (s.reg b HBC_CNT_UE + 1) % 2 ^ 32 ∧
            Logged b 0x4002 4 [0, x % 2 ^ 32, x / 2 ^ 32] s t ∧ t.mem = s.mem) ∧
        (s.bulkOk a.toNat n 0 = false → ∀ e, Answers (.bulkRead a n e) s fun t =>
          t.out = s.out ++ [.bulkData a.toNat (List.replicate n 0) true] ∧
          Logged .mbx 0x0210 2 [1, a.toNat % 2 ^ 32, a.toNat / 2 ^ 32] s t ∧ t.mem = s.mem ∧ t.regs = s.regs)) ∧
      (∀ (s : State) (n : Fin 16), s.mainOn = true → (s.box n.val).own = true →
        ((s.box n.val).warned = true → Machine.exec (.mailboxOwnedWrite n) s = .next s) ∧
        ((s.box n.val).warned = false → Answers (.mailboxOwnedWrite n) s fun t => t.box n.val = { s.box n.val with warned := true } ∧
          Logged .mbx 0x0201 2 [n.val] s t ∧ t.regs = s.regs ∧ t.mem = s.mem)) ∧
      (∀ (s : State) (w : Waiting), s.foe.waiting = [w] → w.began = true →
        (s.clock ≤ w.since + waitLimit w.h → Machine.exec (.commandTimeout w.h.box) s = .next s) ∧
        (w.since + waitLimit w.h < s.clock → Answers (.commandTimeout w.h.box) s fun t => Replied w.h .timeout 0 [] t ∧
          t.foe.waiting = [] ∧ Logged .mbx 0x0203 2 [w.cmd.opcode, 0] s t ∧ t.mem = s.mem ∧ t.jobs = s.jobs)) ∧
      (∀ (s : State) (op : W16) (h : Handover), s.mainOn = true → (s.box h.box.val).own = false → op.toNat ∉ opcodes →
        (s.box h.box.val).replays op.toNat h = none → Answers (.mailboxUnlistedOpcode op h) s fun t =>
          Replied h (if 4096 < h.length.toNat then .badArg else .unknownOpcode) 0 [] t ∧
          Logged .mbx 0x0203 2 [op.toNat, 0] s t ∧ t.mem = s.mem ∧ t.jobs = s.jobs)

/-- A command handed to a free mailbox that is no replay and passes checks 1 to 6 with nothing before it runs: what its
execution comes to is its end, or it waits. An ended command leaves its mailbox with the host, with its status, detail,
RESULT_LENGTH and response. The first of checks 1 to 6 that fails gives the status, and the command does nothing else; the
agreed version is asked of every command, of HELLO once one has been agreed. A replay is answered with the kept status alone.
A mailbox that the Forester owns takes no command, and in STANDBY there is no mailbox. That the checks see the state in which
the command executes, and how they read IF_VERSION of HELLO, TIMEOUT_MS and what lies beyond LENGTH, is log entry 72. (R371,
R372, R373, R374, R376, R377, R378, R381) -/
def Obligations.MailboxCommandsAreCheckedThenRun : Prop :=
  (∀ (s : State) (c : Cmd) (h : Handover), s.BoxReady c h →
        Machine.exec (c.instr h) s = .next ((s.atWork c h).boxEnd c h ((s.atWork c h).runCmd c h))) ∧
      (∀ (s : State) (c : Cmd) (h : Handover) (st : Status) (d : Nat) (out : List Byte), Replied h st d out (s.closeCmd c h st d out)) ∧
      (∀ (s : State) (c : Cmd) (h : Handover) (st : Status), s.mainOn = true → (s.box h.box.val).own = false →
        (s.box h.box.val).replays c.opcode h = none → s.foe.waiting = [] → s.lko.forcing = none → s.firstCheck c h = some st →
        Answers (c.instr h) s fun t => Replied h st 0 [] t ∧ t.foe.waiting = [] ∧ t.mem = s.mem ∧ t.jobs = s.jobs ∧
          t.cores = s.cores ∧ t.foe.stage = s.foe.stage) ∧
      (∀ (s : State) (c : Cmd) (h : Handover),
        (4096 < h.length.toNat → s.firstCheck c h = some .badArg) ∧
        let right := s.foe.agreed = some h.version.toNat ∨ s.foe.agreed = none ∧ c = .hello
        (h.length.toNat ≤ 4096 → ¬right → s.firstCheck c h = some .versionMismatch) ∧
        (h.length.toNat ≤ 4096 → right →
          ((spareOf h).isEmpty = false ∨ timeoutMax < h.timeout.toNat → s.firstCheck c h = some .badArg) ∧
          ((spareOf h).isEmpty = true → h.timeout.toNat ≤ timeoutMax →
            (s.foe.fence = true → c.unfenced = false → s.firstCheck c h = some .fenced) ∧
            (s.foe.fence = false ∨ c.unfenced = true →
              (s.legal c (reqBytes h) = false → s.firstCheck c h = some .wrongState) ∧
              (s.legal c (reqBytes h) = true → s.firstCheck c h = none))))) ∧
      (∀ (s : State) (c : Cmd) (h : Handover), s.mainOn = true → (s.box h.box.val).own = false →
        ∀ st, (s.box h.box.val).replays c.opcode h = some st → Answers (c.instr h) s fun t =>
          (t.box h.box.val).own = false ∧ (t.box h.box.val).status = some st ∧ t.mem = s.mem ∧ t.jobs = s.jobs ∧
          t.tally = s.tally ∧ t.cores = s.cores ∧ t.foe.waiting = s.foe.waiting) ∧
      (∀ (s : State) (c : Cmd) (h : Handover), s.mainOn = true → (s.box h.box.val).own = true → Answers (c.instr h) s fun t =>
          (t.box h.box.val).own = true ∧ (t.box h.box.val).warned = true ∧ t.foe.waiting = s.foe.waiting ∧ t.mem = s.mem ∧
          t.jobs = s.jobs) ∧
      (∀ (s : State) (c : Cmd) (h : Handover), s.mainOn = false → Machine.exec (c.instr h) s = .next s)

/-- With checks 1 to 6 passed: HELLO agrees on a version; IDENTITY returns the identity; FW_BEGIN opens the image buffer,
FW_CHUNK writes into it, FW_COMMIT ends with the status of the image; INIT trains the controllers and makes the module READY
or says what failed; HOST_WINDOW sets the window of the next INIT; SLICE_JOIN takes or refuses a slice record and SLICE_LEAVE
stops the time base and the fabric; PLAN_LOAD installs the plan it reads or refuses it; PROGRAM_LOAD copies a program and
gives its cluster to the slot; CONFIG_APPLY works through its blocks; JOB_START starts the slot’s job; JOB_STOP latches the
stops and waits for them; RECOVER empties the slots and re-arms Blaze. Log entries 63 (SLICE_LEAVE, DESIGN CHOICE), 74
(CONFIG_APPLY), 76 (JOB_START, RECOVER), 77 (details) and 82 (versions) stand behind what the rules leave open. (R272, R281,
R282, R360, R361, R370, R375, R379, R380, R394, R396, R397) -/
def Obligations.BootSliceAndJobCommandsComplete : Prop :=
  (∀ (s : State) (h : Handover), s.BoxReady .hello h → let p := reqBytes h
        let range := leBytes 4 (1 + 1 * 2 ^ 16 + s.topMinor * 2 ^ 24) ++ leBytes 2 0 ++ leBytes 4 s.fwVersion
        let pick := s.chooseVersion (fieldAt p 0 1) (fieldAt p 1 1) (fieldAt p 2 1) (fieldAt p 3 1)
        onlyNamed p [(0, 4)] = true →
        (∀ a b, pick = some (a, b) → Answers (.hello h) s fun t => Replied h .ok 0 (leBytes 1 a ++ leBytes 1 b ++ range) t ∧
          t.foe.agreed = some (a * 256 + b) ∧ Logged .mbx 0x0205 1 [a, b] s t ∧ t.mem = s.mem ∧ t.jobs = s.jobs) ∧
        (pick = none → Answers (.hello h) s fun t => Replied h .versionMismatch 0 (leBytes 2 0 ++ range) t ∧
          t.foe.agreed = s.foe.agreed ∧ t.mem = s.mem)) ∧
      (∀ (s : State) (h : Handover), s.BoxReady .identity h → onlyNamed (reqBytes h) [] = true →
        Answers (.identity h) s fun t => Replied h .ok 0 s.identityBytes t ∧ t.mem = s.mem ∧ t.jobs = s.jobs ∧ t.tally = s.tally) ∧
      (∀ (s : State) (h : Handover), s.BoxReady .fwBegin h → let n := fieldAt (reqBytes h) 0 4
        onlyNamed (reqBytes h) [(0, 4)] = true → 1 ≤ n → n ≤ 16777216 →
        ((∀ i, s.foe.image = some i → i.lookout = false) → Answers (.fwBegin h) s fun t => Replied h .ok 0 [] t ∧
          t.foe.image = some ⟨false, n, [], 0, s.clock⟩ ∧ t.mem = s.mem) ∧
        (∀ i, s.foe.image = some i → i.lookout = true → Answers (.fwBegin h) s fun t => Replied h .busy 0 [] t ∧
          t.foe.image = s.foe.image)) ∧
      (∀ (s : State) (h : Handover), s.BoxReady .fwChunk h → let p := reqBytes h
        let n := fieldAt p 4 4
        onlyNamed p [(0, 8 + n)] = true → 1 ≤ n → n ≤ 4088 → ∀ i, s.foe.image = some i → i.lookout = false →
        (fieldAt p 0 4 + n ≤ i.bytes → Answers (.fwChunk h) s fun t => Replied h .ok 0 [] t ∧ ∃ x, t.foe.image = some x ∧
          sgetMany payloadZero x.data (fieldAt p 0 4) n = slice p 8 n ∧ x.bytes = i.bytes ∧ x.received = i.received + n ∧ x.at_ = s.clock) ∧
        (i.bytes < fieldAt p 0 4 + n → Answers (.fwChunk h) s fun t => Replied h .badArg 0 [] t ∧ t.foe.image = s.foe.image)) ∧
      (∀ (s : State) (h : Handover) (flashOk : Bool), s.BoxReady (.fwCommit flashOk) h → onlyNamed (reqBytes h) [] = true →
        let r := (s.atWork (.fwCommit flashOk) h).commitImage false flashOk
        Answers (.fwCommit h flashOk) s fun t => Replied h r.2.1 r.2.2.1 (if r.2.1 = .ok then leBytes 4 r.2.2.2 else []) t ∧
          t.foe.firmware = r.1.foe.firmware ∧
          (r.2.1 = .ok → t.foe.stage = .loaded ∧ t.foe.image = none ∧ t.foe.agreed = none ∧ t.foe.debug = false) ∧
          (r.2.1 = .verifyFailed → t.foe.stage = s.foe.stage ∧ t.foe.image = none ∧ r.2.2.1 = 0x0105)) ∧
      (∀ (s : State) (h : Handover) (r : InitResult), s.BoxReady (.init r) h → onlyNamed (reqBytes h) [(0, 4)] = true →
        fieldAt (reqBytes h) 0 4 ≤ 1 →
        let out := leBytes 4 r.hbm.toNat ++ leBytes 4 r.lp.toNat ++ leBytes 4 r.test.toNat
        let whole := (memCtls r).all (·.2) = true
        Answers (.init h r) s fun t => t.foe.window = s.foe.windowNext ∧
          (∀ q ∈ memCtls r, q.2 = true → t.field q.1 HBC_STATE 0 2 = 3) ∧
          (∀ q ∈ memCtls r, q.2 = false → t.flag q.1 HBC_STATE 0 = false) ∧
          (whole → r.test.toNat = 255 → Replied h .ok 0 out t ∧ t.foe.stage = .ready) ∧
          (¬whole ∨ r.test.toNat ≠ 255 → Replied h .verifyFailed (if (memCtls r).all (·.2) then 0 else 0x4003) out t ∧
            t.foe.stage = s.foe.stage)) ∧
      (∀ (s : State) (h : Handover), s.BoxReady .hostWindow h → onlyNamed (reqBytes h) [(0, 1)] = true →
        fieldAt (reqBytes h) 0 1 ∈ [8, 16, 32, 64] → Answers (.hostWindow h) s fun t => Replied h .ok 0 [] t ∧
          t.foe.windowNext = fieldAt (reqBytes h) 0 1 ∧ t.foe.window = s.foe.window ∧ t.mem = s.mem) ∧
      (∀ (s : State) (h : Handover), s.BoxReady .sliceJoin h → let a := fieldAt (reqBytes h) 0 8
        let l := s.readBytes a sliceBytes
        onlyNamed (reqBytes h) [(0, 8)] = true → s.allowed a sliceBytes 0 = true → Answers (.sliceJoin h) s fun t =>
          if (s.atWork .sliceJoin h).sliceRefused l then Replied h .badArg 0x0130 [] t ∧ t.foe.stage = s.foe.stage ∧ t.shape = s.shape ∧
            t.routes = s.routes
          else Replied h .ok 0 [] t ∧ t.foe.stage = .joined ∧ t.shape = fieldAt l 0x0C 4) ∧
      (∀ (s : State) (h : Handover), s.BoxReady .sliceLeave h → onlyNamed (reqBytes h) [] = true →
        Answers (.sliceLeave h) s fun t => Replied h .ok 0 [] t ∧ t.foe.stage = .ready ∧ t.routes = [] ∧ t.shape = 0 ∧
          t.enabled .ftb = false ∧ (∀ i, t.enabled (.til i) = false) ∧ t.mem = s.mem) ∧
      (∀ (s : State) (h : Handover), s.BoxReady .planLoad h → let p := reqBytes h
        let j := fieldAt p 0 1
        let a := fieldAt p 8 8
        onlyNamed p [(0, 2), (4, 12)] = true → j ≤ 15 → s.planAllowed a = true →
        (∀ q, fieldAt p 1 1 = 0 → s.readPlan a = some q → Answers (.planLoad h) s fun t => Replied h .ok 0 [] t ∧
          (t.job j).plan = some q ∧ (t.job j).oldPlans = [] ∧ t.flag .ftb (FTB_PLAN_LO j) 0 = true ∧ t.mem = s.mem) ∧
        (fieldAt p 1 1 = 0 → s.readPlan a = none → Answers (.planLoad h) s fun t => Replied h .badArg 0x3085 [] t ∧
          (t.job j).plan = none ∧ t.flag .ftb (FTB_PLAN_LO j) 0 = false ∧ t.flag .ftb FTB_EVENTS 4 = true ∧ t.mem = s.mem) ∧
        (∀ q, fieldAt p 1 1 = 1 → s.switchReached j (fieldAt p 4 4) = false → s.readPlan a = some q →
          Answers (.planLoad h) s fun t => Replied h .ok 0 [] t ∧ (t.job j).nextPlan = some q ∧ (t.job j).plan = (s.job j).plan ∧
            t.reg .ftb (FTB_SWITCH_STEP j) = fieldAt p 4 4 ∧ t.flag .ftb (FTB_NEXT_LO j) 0 = true) ∧
        (fieldAt p 1 1 = 1 → s.switchReached j (fieldAt p 4 4) = true ∨ s.readPlan a = none → Answers (.planLoad h) s fun t =>
          Replied h .badArg 0x3085 [] t ∧ (t.job j).plan = (s.job j).plan ∧ t.mem = s.mem)) ∧
      (∀ (s : State) (h : Handover), s.BoxReady .programLoad h → let p := reqBytes h
        let j := fieldAt p 0 1
        let a := fieldAt p 8 8
        let es := (upFrom 0 (fieldAt p 0x10 4)).map fun i => s.program? (a + 32 * i)
        onlyNamed p [(0, 1), (8, 12)] = true → j ≤ 15 → s.allowed a (32 * fieldAt p 0x10 4) 0 = true → es.all (·.isSome) = true →
        (es.filterMap id).all (fun e => !s.clusterTaken j (clusterIdx e.core.cluster)) = true → Answers (.programLoad h) s fun t =>
          Replied h .ok 0 (leBytes 4 (((es.filterMap id).map fun e => coreIdx e.core).eraseDups).length) t ∧
          (∀ e, es = [some e] → t.readBytes (scratchBase e.core + e.off) e.bytes = s.readBytes e.src e.bytes ∧
            MemOnly (scratchBase e.core + e.off) e.bytes s t ∧ clusterIdx e.core.cluster ∈ (t.job j).clusters)) ∧
      (∀ (s : State) (h : Handover), s.BoxReady .configApply h → let p := reqBytes h
        let j := fieldAt p 0 1
        let n := fieldAt p 0x10 4
        let u := s.atWork .configApply h
        let gs := u.configBlocks h
        onlyNamed p [(0, 1), (8, 12)] = true → j ≤ 15 → 1 ≤ n → n ≤ 1048576 → s.allowed (fieldAt p 8 8) (8 * n) 0 = true →
        (∀ i < n, (s.listEntry? (fieldAt p 8 8 + 8 * i)).isSome = true) →
        (∀ g ∈ gs, ∀ c, g.1.clusterNo = some c → s.clusterTaken j c = false) →
        Machine.exec (.configApply h) s = .next (u.boxEnd .configApply h (State.applyBlocks j gs 0 0 u))) ∧
      (∀ (s : State) (h : Handover), s.BoxReady .jobStart h → let p := reqBytes h
        let j := fieldAt p 0 1
        let job := fieldAt p 2 2
        ∀ q, (s.job j).plan = some q → onlyNamed p [(0, 1), (2, 2)] = true → j ≤ 15 → job < 2 ^ 12 →
        s.flag .ftb (FTB_PLAN_LO j) 0 = true → (∀ i ∈ jobSlots, i ≠ j → s.slotLive i = true → (s.job i).job ≠ job) →
        Answers (.jobStart h) s fun t => Replied h .ok 0 (leBytes 4 q.startFrame) t ∧ (t.job j).job = job ∧
          (t.job j).starting = true ∧ (t.job j).running = false ∧ (t.job j).stopped = (s.job j).stopped ∧ (∀ i, i ≠ j → t.job i = s.job i) ∧
          t.mem = s.mem) ∧
      (∀ (s : State) (h : Handover), s.BoxReady .jobStop h → onlyNamed (reqBytes h) [(0, 2)] = true →
        let l := s.runningOf (fieldAt (reqBytes h) 0 2)
        Answers (.jobStop h) s fun t => t.foe.waiting = [⟨.jobStop, h, true, s.clock, 0, maskOf l⟩] ∧
          (t.box h.box.val).own = true ∧ (∀ j ∈ l, (∃ r ∈ (t.job j).stops, r.kind = .command ∧ r.at_ = s.beat) ∧ (t.job j).running = true) ∧
          (∀ j, j ∉ l → t.job j = s.job j) ∧ t.regs = s.regs ∧ t.mem = s.mem) ∧
      (∀ (s : State) (h : Handover), s.BoxReady .recover h → onlyNamed (reqBytes h) [] = true → Answers (.recover h) s fun t =>
        Replied h .ok 0 [] t ∧ (∀ j < 16, t.job j = JobSlot.empty) ∧ t.foe.stage = .ready ∧ t.blazeFired = false ∧
          t.blaze = ⟨0, none⟩ ∧ t.shape = 0)

/-- With checks 1 to 6 passed: MEM_MAP sets the roots of the named clusters, at once where the slot’s job does not run, else
after the boundary; MEM_GRANT takes a free grant or ends NO_RESOURCE and MEM_REVOKE frees it; SNAP_TRIGGER fires Blaze, sets
its match, or ends NO_RESOURCE once it fired; SNAP_READ, LOG_READ, EVENT_READ, REG_READ and CAL_STATUS return what they read;
SNAP_REARM re-arms Blaze; DEBUG_MODE switches debug where the firmware allows it; REG_WRITE writes in order; SYNC_SET sets an
object and returns its old count; CTX_SAVE stores the image of the named cores, and CTX_RESTORE gives each its record where
the image passes the checks of R455; ATTEST returns the quote or ends VERIFY_FAILED. Log entries 73 (what a payload may
hold), 75 (the writes of REG_WRITE are not waited for) and 76 (the order of EVENT_READ's records) stand behind what the rules
leave open. (R165, R254, R369, R379, R380, R383, R398, R401, R416, R417, R424, R429) -/
def Obligations.MemoryDebugAndContextCommandsComplete : Prop :=
  (∀ (s : State) (h : Handover), s.BoxReady .memMap h → let p := reqBytes h
        let j := fieldAt p 0 1
        let root := fieldAt p 8 8
        let l := namedClusters (slice p 0x10 80)
        onlyNamed p [(0, 1), (8, 8), (0x10, 80)] = true → j ≤ 15 → root % 4096 = 0 → rangeDram root 8 = true →
        (∀ c ∈ l, s.clusterTaken j c = false) →
        ((s.job j).running = false → Answers (.memMap h) s fun t => Replied h .ok 0 (leBytes 4 (t.xlatGen l)) t ∧ t.mem = s.mem ∧
          ∀ c ∈ l, t.reg (.clu (clusterOfIdx c)) CLU_XLAT_LO = root % 2 ^ 32 / 4096 * 4096 + 1 ∧
            t.reg (.clu (clusterOfIdx c)) CLU_XLAT_HI = root / 2 ^ 32 % 2 ^ 16 ∧ c ∈ (t.job j).clusters ∧
            t.reg (.clu (clusterOfIdx c)) CLU_XLAT_GEN = (s.reg (.clu (clusterOfIdx c)) CLU_XLAT_GEN + 1) % 2 ^ 32) ∧
        ((s.job j).running = true → Answers (.memMap h) s fun t => (t.box h.box.val).own = true ∧
          t.foe.waiting = [⟨.memMap, h, true, s.clock, 0, 0⟩] ∧ (∃ v, t.foe.invals = s.foe.invals ++ [v] ∧ v.box = h.box.val) ∧
          t.mem = s.mem)) ∧
      (∀ (s : State) (h : Handover), s.BoxReady .memGrant h → let p := reqBytes h
        let base := fieldAt p 0 8
        let n := fieldAt p 8 8
        onlyNamed p [(0, 17)] = true → base % 2 ^ 21 = 0 → n % 2 ^ 21 = 0 → n ≠ 0 → fieldAt p 0x10 1 ≤ 3 → rangeDram base n = true →
        (∀ g, grants32.find? (fun g => (s.grant g).isNone) = some g → Answers (.memGrant h) s fun t =>
          Replied h .ok 0 (leBytes 1 g) t ∧ t.grant g = some ⟨base, n, fieldAt p 0x10 1⟩ ∧ (∀ i, i ≠ g → t.grant i = s.grant i)) ∧
        (grants32.find? (fun g => (s.grant g).isNone) = none → Answers (.memGrant h) s fun t =>
          Replied h .noResource 0 [] t ∧ t.foe.grants = s.foe.grants)) ∧
      (∀ (s : State) (h : Handover), s.BoxReady .memRevoke h → let g := fieldAt (reqBytes h) 0 1
        onlyNamed (reqBytes h) [(0, 1)] = true → g ≤ 31 → (s.grant g).isSome = true → Answers (.memRevoke h) s fun t =>
          Replied h .ok 0 [] t ∧ t.grant g = none ∧ ∀ i, i ≠ g → t.grant i = s.grant i) ∧
      (∀ (s : State) (h : Handover), s.BoxReady .snapTrigger h → let w := fieldAt (reqBytes h) 0 8
        onlyNamed (reqBytes h) [(0, 8)] = true → w = 0 ∨ s.beat + 1024 ≤ w →
        (s.blazeFired = true → Answers (.snapTrigger h) s fun t => Replied h .noResource 0 [] t ∧ t.blaze = s.blaze) ∧
        (s.blazeFired = false → w = 0 → Answers (.snapTrigger h) s fun t => Replied h .ok 0 [] t ∧ t.blazeFired = true ∧
          t.blaze = ⟨s.beat, some (s.beat + 128)⟩ ∧ t.flag .blz BLZ_CAUSE 0 = true) ∧
        (s.blazeFired = false → w ≠ 0 → Answers (.snapTrigger h) s fun t => Replied h .ok 0 [] t ∧ t.flag .blz BLZ_STATE 1 = true ∧
          t.pair .blz BLZ_MATCH_LO BLZ_MATCH_HI = w ∧ t.blaze = s.blaze)) ∧
      (∀ (s : State) (h : Handover), s.BoxReady .snapRead h → let p := reqBytes h
        let n := fieldAt p 0 2
        let l := (upFrom 0 n).map fun i => fieldAt p (8 + 4 * i) 4
        1 ≤ n → n ≤ 16 → onlyNamed p [(0, 2), (8, 4 * n)] = true → l.all isBase = true → Answers (.snapRead h) s fun t =>
          Replied h .ok 0 (snapRecords l (s.atWork .snapRead h)).1 t ∧ t.mem = s.mem) ∧
      (∀ (s : State) (h : Handover), s.BoxReady .snapRearm h → onlyNamed (reqBytes h) [] = true → Answers (.snapRearm h) s fun t =>
        Replied h .ok 0 [] t ∧ t.blazeFired = false ∧ t.blaze = ⟨0, none⟩ ∧ (∀ j < 16, (t.job j).snapHeld = false) ∧
          ∀ b ∈ allBlocks, s.powered b = true → t.flag b BLK_CTRL 1 = true) ∧
      (∀ (s : State) (h : Handover), s.BoxReady .logRead h → let p := reqBytes h
        onlyNamed p [(0, 6)] = true → 1 ≤ fieldAt p 4 2 → fieldAt p 4 2 ≤ 127 → Answers (.logRead h) s fun t =>
          Replied h .ok 0 (s.logBytes (fieldAt p 0 4) (fieldAt p 4 2)) t ∧ t.tally = s.tally ∧ t.mem = s.mem ∧
          (∀ e l, s.logEntries (fieldAt p 0 4) (fieldAt p 4 2) = l ++ [e] →
            t.reg .tly TLY_SEL = (s.logStart (fieldAt p 0 4) + l.length) % 2 ^ 32)) ∧
      (∀ (s : State) (h : Handover), s.BoxReady .eventRead h → onlyNamed (reqBytes h) [] = true → s.standbyOn = true →
        Answers (.eventRead h) s fun t => Replied h .ok 0 (leBytes 4 (s.view .mbx MBX_EVENTS) ++ List.replicate 12 0 ++
          (jobSlots.flatMap fun j => (s.job j).record.bytes) ++ padTo 256 (s.foe.caps.flatMap (·.bytes))) t ∧
          t.reg .mbx MBX_EVENTS = 0 ∧ t.mem = s.mem) ∧
      (∀ (s : State) (h : Handover), s.BoxReady .debugMode h → let on := fieldAt (reqBytes h) 0 1
        onlyNamed (reqBytes h) [(0, 1)] = true →
        (on = 0 ∨ on = 1 ∧ s.debugAllowed = true → Answers (.debugMode h) s fun t => Replied h .ok 0 [] t ∧ t.foe.debug = (on == 1)) ∧
        (on = 1 → s.debugAllowed = false → Answers (.debugMode h) s fun t => Replied h .notPermitted 0 [] t ∧ t.foe.debug = s.foe.debug)) ∧
      (∀ (s : State) (h : Handover), s.BoxReady .regRead h → let p := reqBytes h
        let n := fieldAt p 0 4
        let l := (upFrom 0 n).map fun i => fieldAt p (8 + 4 * i) 4
        1 ≤ n → n ≤ 1022 → onlyNamed p [(0, 4), (8, 4 * n)] = true → (∀ a ∈ l, (namedBlk a).isSome = true) →
        s.foe.debug = true ∨ (l.filterMap namedBlk).any isDbg = false → Answers (.regRead h) s fun t =>
          Replied h .ok 0 ((readAll l (s.atWork .regRead h)).1.flatMap (leBytes 4)) t ∧ t.mem = s.mem ∧ t.jobs = s.jobs) ∧
      (∀ (s : State) (h : Handover), s.BoxReady .regWrite h → let p := reqBytes h
        let n := fieldAt p 0 4
        let ws := (upFrom 0 n).map fun i => (namedBlk (fieldAt p (8 + 8 * i) 4), fieldAt p (12 + 8 * i) 4)
        1 ≤ n → n ≤ 511 → onlyNamed p [(0, 4), (8, 8 * n)] = true → (∀ w ∈ ws, w.1.isSome = true) → s.foe.debug = true →
        let z := ws.foldl (fun z w => match w.1 with | some (b, o) => z.writeReg b o w.2 | none => z) (s.atWork .regWrite h)
        Machine.exec (.regWrite h) s = .next ((z.setWaiting []).closeCmd .regWrite h .ok 0 (leBytes 4 n))) ∧
      (∀ (s : State) (h : Handover) (k : CoreId), s.BoxReady .syncSet h → let p := reqBytes h
        let o := fieldAt p 4 1
        let v := fieldAt p 6 2
        blkOfAddr (fieldAt p 0 4) = some (.cor k, 0) → onlyNamed p [(0, 5), (6, 2)] = true → o ≤ 47 → s.foe.debug = true → s.Quiet k →
        Answers (.syncSet h) s fun t => Replied h .ok 0 (leBytes 2 (s.syncCount k o)) t ∧ t.syncCount k o = v ∧
          t.reg (.cor k) SYN_CNT_SETS = (s.reg (.cor k) SYN_CNT_SETS + 1) % 2 ^ 32 ∧
          Logged (.cor k) 0x1012 1 [o, s.syncCount k o, v] s t ∧ t.mem = s.mem) ∧
      (∀ (s : State) (h : Handover), s.BoxReady .ctxSave h → let p := reqBytes h
        let form := fieldAt p 0 1
        let dest := fieldAt p 8 8
        let l := namedCores (slice p 0x10 1280)
        ∀ j, onlyNamed p [(0, 1), (8, 8), (0x10, 1280)] = true → form ≤ 2 → s.oneSlot l = some j →
        s.allowed dest (s.imageBytes form l) 1 = true → form ≠ 2 ∨ s.foe.debug = true →
        let img := s.contextImage form j l
        Answers (.ctxSave h) s fun t => Replied h .ok 0 (leBytes 8 (s.imageBytes form l)) t ∧ t.readBytes dest img.length = img ∧
          MemOnly dest img.length s t ∧ t.jobs = s.jobs) ∧
      (∀ (s : State) (h : Handover), s.BoxReady .ctxRestore h → let p := reqBytes h
        let src := fieldAt p 8 8
        let n := s.rd (src + 0x10) 8
        let l := s.readBytes src n
        let ps := pairRecords (imageCores l) (namedCores (slice p 0x10 1280))
        onlyNamed p [(8, 8), (0x10, 1280)] = true → s.allowed src 64 0 = true → 64 ≤ n → s.allowed src n 0 = true → imageBroken l = false →
        (fieldAt l 5 1 ≠ 1 ∨ s.versionBad l (ps.filterMap (·.2)) = true → Answers (.ctxRestore h) s fun t =>
          Replied h .versionMismatch 0 [] t ∧ t.cores = s.cores ∧ t.mem = s.mem) ∧
        (fieldAt l 5 1 = 1 → s.versionBad l (ps.filterMap (·.2)) = false → fieldAt l 4 1 ≠ 2 ∨ s.foe.debug = true →
          (s.restoreBad l ps = true → Answers (.ctxRestore h) s fun t => Replied h .badArg 0 [] t ∧ t.cores = s.cores ∧ t.mem = s.mem) ∧
          (s.restoreBad l ps = false →
            let z := ps.foldl (fun z q => match q.2 with | some r => z.restoreCore (fieldAt l 4 1) q.1 r | none => z) (s.atWork .ctxRestore h)
            Machine.exec (.ctxRestore h) s =
              .next ((((imageClusters l).foldl State.restoreCluster z).setWaiting []).closeCmd .ctxRestore h .ok 0 [])))) ∧
      (∀ (s : State) (h : Handover), s.BoxReady .calStatus h → let mask := fieldAt (reqBytes h) 0 8
        onlyNamed (reqBytes h) [(0, 8)] = true → mask < 2 ^ 48 → Answers (.calStatus h) s fun t =>
          Replied h .ok 0 (calRecords ((upFrom 0 48).filter fun m => bit mask m) (s.atWork .calStatus h)).1 t ∧ t.mem = s.mem) ∧
      (∀ (s : State) (h : Handover), s.BoxReady .attest h → let p := reqBytes h
        onlyNamed p [(0, 0x22)] = true →
        (∀ l, s.quote (slice p 0 32) (fieldAt p 0x20 2) = some l → Answers (.attest h) s fun t => Replied h .ok 0 l t ∧ t.mem = s.mem) ∧
        (s.foe.idOk = false → Answers (.attest h) s fun t => Replied h .verifyFailed 0x0104 [] t ∧ t.mem = s.mem))

/-- Standby power-up runs the ROM’s steps and selects a provenance copy; its loss leaves the flash alone. The main domain
powers up into ROM when its inputs have held for 100 ms and nothing holds it off, at the clock step that the limit allows,
and stays off if an input is lost in the sequence, which is one step here (log entry 100); a main-domain reset loses memory
and every core (it reads 0 after, log entry 1) and keeps the fence and a FORCE_STOP that executes. A supply out of its limits
for its time, or a thermal trip with the main domain on or off, takes the main domain down at once and holds it off, with its
event, count and log entry. A sensor evaluation stores its readings, the main power as the average of the last millisecond
(rounded down, log entry 101), watches the coolant with the main domain on or off (0x5006 at its onset, level 2, log entry
68), and latches the requested clock step. The scrub counts what it corrects and logs what it cannot. A failed health test is
flagged, counted and logged. An image buffer that has had no chunk for 10 s is discarded. (R386, R387, R388, R391, R394,
R443, R444, R445, R461, R462, R464, R468) -/
def Obligations.PowerResetsTripsAndSensors : Prop :=
  (∀ s : State, s.standbyOn = false → Answers .standbyPowerUp s fun t => t.standbyOn = true ∧ t.mainOn = s.mainOn ∧
        t.foe.romDone = true ∧ t.foe.active = s.chooseProv.1 ∧ t.foe.prov = s.chooseProv.2 ∧ t.flag .rng RNG_STATE 0 = true ∧
        t.lko.nonce.length = 16 ∧ t.flash = s.flash ∧ t.mem = s.mem ∧
        (s.chooseProv.1 = none → t.flag .fo FOR_EVENTS 1 = true ∧ t.flag .fo FOR_EVENTS 2 = true)) ∧
      (∀ s : State, Answers .standbyPowerLoss s fun t =>
        t = { State.reset with pending := s.pending, clock := s.clock, freeCount := s.freeCount, out := s.out, flash := s.flash }) ∧
      (∀ (s : State) (i : SupplyInputs), s.standbyOn = true → s.foe.romDone = true → s.mainOn = false → s.foe.heldOff = false →
        (inputsOk i = false ∨ i.held < 100 → Machine.exec (.mainPowerUp i) s = .next s) ∧
        (inputsOk i = true → 100 ≤ i.held → i.lost = true → Machine.exec (.mainPowerUp i) s = .next s) ∧
        (inputsOk i = true → 100 ≤ i.held → i.lost = false → Answers (.mainPowerUp i) s fun t => t.mainOn = true ∧ t.foe.stage = .rom ∧
          t.clockStep = s.field .pwr GLB_STEP_LIMIT 0 2 ∧ t.blazeFired = false ∧ t.pwr = { Power.reset with warn := s.pwr.warn, powers := s.pwr.powers } ∧
          t.reg .fo FOR_CNT_MAIN_ON = (s.reg .fo FOR_CNT_MAIN_ON + 1) % 2 ^ 32)) ∧
      (∀ s : State, s.mainOn = true → Answers .mainDomainReset s fun t => t.mainOn = true ∧ t.foe.stage = .rom ∧ t.mem = [] ∧
        t.cores = [] ∧ t.clusters = [] ∧ t.foe.firmware = none ∧ t.foe.grants = [] ∧ t.foe.fence = s.foe.fence ∧ t.lko.forcing = s.lko.forcing ∧
        t.reg .fo FOR_FW_VERSION = 0 ∧ t.blazeFired = false ∧ t.flash = s.flash) ∧
      (∀ (s : State) (w : SupplyWatch) (f : SupplyFault), s.standbyOn = true →
        let low := w.main < 4200 ∧ 1000 ≤ w.mainFor
        let high := 6000 < w.main ∧ 100 ≤ w.mainFor
        let stand := (w.standby < 1080 ∨ 1320 < w.standby) ∧ 1000 ≤ w.standbyFor
        (¬low → ¬high → ¬stand → Machine.exec (.supplyTrip w) s = .next s) ∧
        (low ∨ high → stand → Answers (.supplyTrip w) s fun t => t.mainOn = false ∧ t.foe.heldOff = true ∧
          t.flag .pwr GLB_EVENTS (if w.main < 4200 then 0 else 1) = true ∧ t.flag .pwr GLB_EVENTS 2 = true) ∧
        (low ∧ ¬stand ∧ f = .undervolt ∨ high ∧ ¬stand ∧ f = .overvolt ∨ stand ∧ ¬low ∧ ¬high ∧ f = .standby →
          Answers (.supplyTrip w) s fun t => t.mainOn = false ∧
        t.foe.heldOff = true ∧ t.flag .pwr GLB_EVENTS (supplyEvent f) = true ∧ Logged .pwr (0x5003 + supplyEvent f) 4 [] s t ∧
        t.reg .pwr GLB_CNT_TRIPS = (s.reg .pwr GLB_CNT_TRIPS + 1) % 2 ^ 32 ∧ (s.mainOn = true → t.mem = [] ∧ t.cores = []))) ∧
      (∀ s : State, s.standbyOn = true → (s.tripDue = false → Machine.exec .thermalTrip s = .next s) ∧
        (s.tripDue = true → Answers .thermalTrip s fun t => t.mainOn = false ∧ t.foe.heldOff = true ∧
          t.flag .pwr GLB_EVENTS 3 = true ∧ Logged .pwr 0x5002 4 [] s t ∧ (s.mainOn = true → t.mem = [] ∧ t.cores = []) ∧
          t.reg .pwr GLB_CNT_TRIPS = (s.reg .pwr GLB_CNT_TRIPS + 1) % 2 ^ 32)) ∧
      (∀ (s : State) (r : Sensors), s.standbyOn = true → Answers (.sensorEvaluation r) s fun t =>
        let l := (r.mainPower.toNat :: s.pwr.powers).take 100
        let u := { s with pwr := s.pwr.addPower r.mainPower.toNat }
        t.reg .pwr GLB_POWER = (sumNat l / l.length + r.standbyPower.toNat * 2 ^ 16) % 2 ^ 32 ∧ t.pwr.powers = l ∧
        (∀ i : Fin 8, t.reg .pwr (GLB_TEMP_TILE i) =
          junction r.tiles[i] + stack r.tiles[i] * 2 ^ 8 + package r.tiles[i] * 2 ^ 16) ∧
        t.pwr.warn = coolantBad r ∧
        (coolantBad r = true → s.pwr.warn = false → Logged .pwr 0x5006 2 [] s t ∧ t.flag .pwr GLB_EVENTS 4 = true) ∧
        t.reg .pwr GLB_FLOW = r.topFlow.toNat + r.bottomFlow.toNat * 2 ^ 16 ∧
        t.reg .pwr GLB_VOLT = r.mainVolt.toNat + r.standbyVolt.toNat * 2 ^ 16 ∧ t.clockStep = s.clockStep ∧ t.mem = s.mem ∧
        t.jobs = s.jobs ∧ (s.mainOn = false → t.pwr = { s.pwr with warn := coolantBad r, powers := l }) ∧
        (s.mainOn = true → let n := (u.stepRequest r).1
          t.field .pwr GLB_PWR_STATE 3 2 = n ∧
          (s.clockStep < n → t.pwr.down = some (s.pwr.down.getD s.beat)) ∧ (n < s.clockStep → t.pwr.up = some (s.pwr.up.getD s.beat)))) ∧
      (∀ (s : State) (m : MemCtl) (a : BitVec 48), s.enabled (ctlBlk m) = true → s.flag (ctlBlk m) HBC_CFG 0 = true →
        memCtl a.toNat = some (ctlBlk m) → let b := ctlBlk m
        let x := a.toNat / 32 * 32
        (Answers (.patrolScrub m a .clean) s fun t => t.flag b HBC_STATE 2 = true ∧ RegsOnly [b.base + HBC_STATE] s t ∧
          t = { s with regs := t.regs }) ∧
        (∀ n, Answers (.patrolScrub m a (.corrected n)) s fun t => t.reg b HBC_CNT_CE = (s.reg b HBC_CNT_CE + n) % 2 ^ 32 ∧
          t.reg b HBC_CNT_SCRUB_FIX = (s.reg b HBC_CNT_SCRUB_FIX + 1) % 2 ^ 32 ∧ t = { s with regs := t.regs }) ∧
        (Answers (.patrolScrub m a .uncorrectable) s fun t => t.reg b HBC_CNT_UE = (s.reg b HBC_CNT_UE + 1) % 2 ^ 32 ∧
          t.reg b HBC_ERR_LO = x % 2 ^ 32 ∧ Logged b 0x4002 4 [1, x % 2 ^ 32, x / 2 ^ 32] s t ∧ t.mem = s.mem ∧ t.jobs = s.jobs)) ∧
      (∀ s : State, s.standbyOn = true → Answers .rngHealthFail s fun t => t.flag .rng RNG_STATE 1 = true ∧
        t.reg .rng RNG_CNT_FAIL = (s.reg .rng RNG_CNT_FAIL + 1) % 2 ^ 32 ∧ Logged .rng 0x0150 4 [] s t ∧ t.mem = s.mem ∧ t.lko = s.lko) ∧
      (∀ (s : State) (i : Image), s.foe.image = some i →
        (s.clock < i.at_ + 10000000000 → Machine.exec .imageBufferIdle s = .next s) ∧
        (i.at_ + 10000000000 ≤ s.clock → Answers .imageBufferIdle s fun t => t.foe.image = none ∧ t.flag .fo FOR_EVENTS 6 = true ∧
          Logged .fo 0x0113 2 [] s t ∧ t.mem = s.mem))

/-- With the link up, for every opcode of the table: a message that is not addressed to Lookout or is no request is dropped
and counted; one of another version or that repeats the last one is answered as such. So is an opcode that no row lists. The
reading commands answer with what the spec lists; any request that is not legal in the present state is answered WRONG_STATE.
Every privileged request is answered NOT_PERMITTED while the random source has failed, BUSY while a FORCE_STOP executes,
NOT_PERMITTED and counted where it is not authentic; otherwise it executes: FORCE_STOP latches the stops, POWER_OFF, POWER_ON
and POWER_CYCLE switch the main domain, FENCE sets the fence, and the firmware commands work on the image buffer. The nonce
of every response is the one now current. Solicitations for the port’s own address are answered; frames dropped are counted;
the link’s state shows in LKO_STATE. The model’s readings here: the order of those checks, and a message of more than 1,024
payload bytes is no request (log entry 80); POWER_ON and POWER_CYCLE answer OK though their inputs do not hold (81); the form
of the address, and a solicitation for another is counted as dropped (82); the power-up sequence is one step (100). (R378,
R403, R404, R405, R406, R407, R408, R409, R411, R445) -/
def Obligations.LookoutRequestsAreAnswered : Prop :=
  (∀ (s : State) (m : LkoMsg), s.LkoReady 0x0001 m → noPayload m = true → Answers (.lookoutStatus m) s fun t =>
        Responded 0x0001 m .ok 0 s.statusBytes t ∧ t.reg .lko LKO_CNT_RX = (s.reg .lko LKO_CNT_RX + 1) % 2 ^ 32 ∧ t.mem = s.mem ∧
        t.foe = s.foe ∧ t.tally = s.tally) ∧
      (∀ (s : State) (m : LkoMsg), s.LkoReady 0x0002 m → noPayload m = true → Answers (.lookoutIdentity m) s fun t =>
        Responded 0x0002 m .ok 0 s.identityBytes t ∧ t.mem = s.mem ∧ t.foe = s.foe) ∧
      (∀ (s : State) (m : LkoMsg), s.LkoReady 0x0010 m → let p := lkoReq m
        onlyNamed p [(0, 6)] = true → 1 ≤ fieldAt p 4 2 → fieldAt p 4 2 ≤ 31 → Answers (.lookoutLogRead m) s fun t =>
          Responded 0x0010 m .ok 0 (s.logBytes (fieldAt p 0 4) (fieldAt p 4 2)) t ∧ t.tally = s.tally) ∧
      (∀ (s : State) (m : LkoMsg), s.LkoReady 0x0011 m → let p := lkoReq m
        let n := fieldAt p 0 2
        let l := (upFrom 0 n).map fun i => fieldAt p (8 + 4 * i) 4
        (s.mainOn = false → Answers (.lookoutSnapRead m) s fun t => Responded 0x0011 m .wrongState 0 [] t) ∧
        (s.mainOn = true → 1 ≤ n → n ≤ 4 → onlyNamed p [(0, 2), (8, 4 * n)] = true → l.all isBase = true →
          Answers (.lookoutSnapRead m) s fun t => Responded 0x0011 m .ok 0 (snapRecords l (s.lkoTaken 0x0011 m)).1 t)) ∧
      (∀ (s : State) (m : LkoMsg), s.LkoReady 0x0012 m → let p := lkoReq m
        let n := fieldAt p 0 4
        let l := (upFrom 0 n).map fun i => fieldAt p (8 + 4 * i) 4
        s.mainOn = true ∨ namesMain p = false → 1 ≤ n → n ≤ 254 → onlyNamed p [(0, 4), (8, 4 * n)] = true →
        (∀ a ∈ l, (namedBlk a).isSome = true) → s.foe.debug = true ∨ (l.filterMap namedBlk).any isDbg = false →
        Answers (.lookoutRegRead m) s fun t =>
          Responded 0x0012 m .ok 0 ((readAll l (s.lkoTaken 0x0012 m)).1.flatMap (leBytes 4)) t ∧ t.mem = s.mem) ∧
      (∀ (s : State) (m : LkoMsg), s.LkoReady 0x0013 m → onlyNamed (lkoReq m) [(0, 0x22)] = true →
        (∀ l, s.quote (slice (lkoReq m) 0 32) (fieldAt (lkoReq m) 0x20 2) = some l →
          Answers (.lookoutAttest m) s fun t => Responded 0x0013 m .ok 0 l t) ∧
        (s.foe.idOk = false → Answers (.lookoutAttest m) s fun t => Responded 0x0013 m .verifyFailed 0x0104 [] t)) ∧
      (∀ (s : State) (m : LkoMsg), s.LkoReady 0x0020 m → s.LkoTrusted 0x0020 m → s.mainOn = true →
        onlyNamed (lkoReq m) [(0, 2)] = true → let l := s.runningOf (fieldAt (lkoReq m) 0 2)
        (l = [] → Answers (.forceStop m) s fun t => t.lko.forcing = none ∧ ∃ x, Responded 0x0020 m .ok 0 (leBytes 4 0 ++ leBytes 4 x) t) ∧
        (l ≠ [] → Answers (.forceStop m) s fun t => t.lko.forcing = some ⟨m.src.toNat, m.port.toNat, m.seq.toNat, l⟩ ∧
          (∀ j ∈ l, ∃ r ∈ (t.job j).stops, r.kind = .lookout ∧ r.at_ = s.beat) ∧
          (∀ j, j ∉ l → t.job j = { s.job j with stops := (t.job j).stops }) ∧
          (s.foe.waiting.all (·.committed) = true → ∀ j, j ∉ l → t.job j = s.job j) ∧ t.lko.nonce = s.lko.nonce ∧
          t.foe.waiting = s.foe.waiting.filter (·.committed))) ∧
      (∀ (s : State) (m : LkoMsg), s.LkoReady 0x0021 m → s.LkoTrusted 0x0021 m → noPayload m = true →
        (s.mainOn = false → Answers (.lookoutPowerOff m) s fun t => Responded 0x0021 m .wrongState 0 [] t ∧ t.mainOn = false) ∧
        (s.mainOn = true → Answers (.lookoutPowerOff m) s fun t => Responded 0x0021 m .ok 0 [] t ∧ t.mainOn = false ∧
          t.foe.heldOff = true ∧ t.mem = [])) ∧
      (∀ (s : State) (m : LkoMsg) (i : SupplyInputs), s.LkoReady 0x0022 m → s.LkoTrusted 0x0022 m → noPayload m = true →
        s.mainOn = false → Answers (.lookoutPowerOn m i) s fun t => Responded 0x0022 m .ok 0 [] t ∧ t.mainOn = (inputsOk i && !i.lost) ∧
          t.foe.heldOff = false ∧ (inputsOk i = true → i.lost = false → t.foe.stage = .rom)) ∧
      (∀ (s : State) (m : LkoMsg) (i : SupplyInputs), s.LkoReady 0x0023 m → s.LkoTrusted 0x0023 m → noPayload m = true →
        s.mainOn = true → Answers (.lookoutPowerCycle m i) s fun t => Responded 0x0023 m .ok 0 [] t ∧ t.mainOn = (inputsOk i && !i.lost) ∧
          t.mem = [] ∧ t.foe.heldOff = false ∧ t.foe.firmware = none) ∧
      (∀ (s : State) (op : Nat) (m : LkoMsg) (i : Instr), LkoRequest op m true i → s.LkoReady op m →
        (s.flag .rng RNG_STATE 1 = true → Answers i s fun t => Responded op m .notPermitted 0x0150 [] t ∧ LkoOnly s t ∧
          t.lko.nonce = s.lko.nonce ∧ t.tally = s.tally) ∧
        (s.flag .rng RNG_STATE 1 = false → s.lko.forcing.isSome = true → Answers i s fun t => Responded op m .busy 0 [] t ∧ LkoOnly s t ∧
          t.lko.forcing = s.lko.forcing ∧ t.reg .lko LKO_CNT_BUSY = (s.reg .lko LKO_CNT_BUSY + 1) % 2 ^ 32) ∧
        (s.flag .rng RNG_STATE 1 = false → s.lko.forcing = none → s.authentic op m = false → Answers i s fun t =>
          Responded op m .notPermitted 0x0110 [] t ∧ LkoOnly s t ∧ t.lko.nonce = s.lko.nonce ∧ Logged .lko 0x0110 2 [op] s t ∧
          t.reg .lko LKO_CNT_AUTH = (s.reg .lko LKO_CNT_AUTH + 1) % 2 ^ 32) ∧
        (s.LkoTrusted op m → s.lkoLegal op m = false → Answers i s fun t => Responded op m .wrongState 0 [] t ∧ LkoOnly s t ∧
          t.lko.nonce = s.lko.nonce ∧ t.tally = s.tally)) ∧
      (∀ (s : State) (op : Nat) (m : LkoMsg) (i : Instr), LkoRequest op m false i → s.LkoReady op m → s.lkoLegal op m = false →
        Answers i s fun t => Responded op m .wrongState 0 [] t ∧ LkoOnly s t ∧ t.tally = s.tally) ∧
      (∀ (s : State) (m : LkoMsg), s.LkoReady 0x0024 m →
        (s.LkoTrusted 0x0024 m → onlyNamed (lkoReq m) [(0, 1)] = true → fieldAt (lkoReq m) 0 1 ≤ 1 → Answers (.lookoutFence m) s fun t =>
          Responded 0x0024 m .ok 0 [] t ∧ t.foe.fence = (fieldAt (lkoReq m) 0 1 == 1) ∧ t.mem = s.mem ∧ t.jobs = s.jobs)) ∧
      (∀ (s : State) (m : LkoMsg), s.LkoReady 0x0030 m → s.LkoTrusted 0x0030 m → s.inRom = true →
        let n := fieldAt (lkoReq m) 0 4
        onlyNamed (lkoReq m) [(0, 4)] = true → 1 ≤ n → n ≤ 16777216 →
        ((∀ i, s.foe.image = some i → i.lookout = true) → Answers (.lookoutFwBegin m) s fun t => Responded 0x0030 m .ok 0 [] t ∧
          t.foe.image = some ⟨true, n, [], 0, s.clock⟩) ∧
        (∀ i, s.foe.image = some i → i.lookout = false → Answers (.lookoutFwBegin m) s fun t => Responded 0x0030 m .busy 0 [] t ∧
          t.foe.image = s.foe.image)) ∧
      (∀ (s : State) (m : LkoMsg), s.LkoReady 0x0031 m → s.LkoTrusted 0x0031 m → s.inRom = true →
        let p := lkoReq m
        let n := fieldAt p 4 4
        ∀ i, s.foe.image = some i → i.lookout = true → onlyNamed p [(0, 8 + n)] = true → 1 ≤ n → n ≤ 1016 → fieldAt p 0 4 + n ≤ i.bytes →
        Answers (.lookoutFwChunk m) s fun t => Responded 0x0031 m .ok 0 [] t ∧ ∃ x, t.foe.image = some x ∧ x.lookout = true ∧
          x.bytes = i.bytes ∧ sgetMany payloadZero x.data (fieldAt p 0 4) n = slice p 8 n ∧ x.at_ = s.clock) ∧
      (∀ (s : State) (m : LkoMsg) (flashOk : Bool), s.LkoReady 0x0032 m → s.LkoTrusted 0x0032 m → s.inRom = true → noPayload m = true →
        let r := (s.lkoTaken 0x0032 m).commitImage true flashOk
        Answers (.lookoutFwCommit m flashOk) s fun t =>
          Responded 0x0032 m r.2.1 r.2.2.1 (if r.2.1 = .ok then leBytes 4 r.2.2.2 else []) t ∧ t.foe.firmware = r.1.foe.firmware ∧
          (r.2.1 = .ok → t.foe.stage = .loaded ∧ t.foe.image = none)) ∧
      (∀ (s : State) (op : W16) (m : LkoMsg), s.LkoReady op.toNat m → op.toNat ∉ lkoOpcodes → Answers (.lookoutUnlistedOpcode op m) s fun t =>
        Responded op.toNat m .unknownOpcode 0 [] t ∧ t.foe = s.foe) ∧
      (∀ (s : State) (op : Nat) (m : LkoMsg) (priv : Bool) (i : Instr), LkoRequest op m priv i → s.lkoUp = true →
        (s.lkoHears m && isRequest m) = false → Answers i s fun t =>
        t.reg .lko LKO_CNT_DROP = (s.reg .lko LKO_CNT_DROP + 1) % 2 ^ 32 ∧ RegsOnly [Blk.lko.base + LKO_CNT_DROP] s t ∧
          t = { s with regs := t.regs }) ∧
      (∀ (s : State) (op : Nat) (m : LkoMsg) (priv : Bool) (i : Instr), LkoRequest op m priv i → s.lkoUp = true →
        s.lkoHears m = true → isRequest m = true →
        (m.version ≠ 1 → Answers i s fun t => Responded op m .versionMismatch 0 [] t ∧ LkoOnly s t ∧ t.lko.nonce = s.lko.nonce) ∧
        (m.version = 1 → ∀ k, s.lko.kept = some k → k.isFor op m = true → Answers i s fun t =>
          t.out = s.out ++ [.lookout k.src k.port op k.seq k.status k.detail s.lko.nonce k.payload] ∧ t.lko.kept = some k ∧
          LkoOnly s t ∧ t.lko.nonce = s.lko.nonce ∧ t.lko.forcing = s.lko.forcing ∧ t.tally = s.tally ∧
          t.reg .lko LKO_CNT_REPLAY = (s.reg .lko LKO_CNT_REPLAY + 1) % 2 ^ 32)) ∧
      (∀ (s : State) (src target : BitVec 128), s.lkoUp = true →
        (target.toNat = s.lkoAddress → Answers (.neighbourSolicitation src target) s fun t =>
          t = { s with out := s.out ++ [.neighbour src.toNat target.toNat s.lkoMac] }) ∧
        (target.toNat ≠ s.lkoAddress → Answers (.neighbourSolicitation src target) s fun t =>
          t.reg .lko LKO_CNT_DROP = (s.reg .lko LKO_CNT_DROP + 1) % 2 ^ 32 ∧ t = { s with regs := t.regs })) ∧
      (∀ s : State, s.lkoUp = true → Answers .lookoutFrameDropped s fun t =>
        t.reg .lko LKO_CNT_DROP = (s.reg .lko LKO_CNT_DROP + 1) % 2 ^ 32 ∧ RegsOnly [Blk.lko.base + LKO_CNT_DROP] s t ∧ t = { s with regs := t.regs }) ∧
      (∀ (s : State) (up : Bool), s.standbyOn = true → Answers (.lookoutLinkChange up) s fun t => t.flag .lko LKO_STATE 0 = up ∧
        RegsOnly [Blk.lko.base + LKO_STATE] s t ∧ t = { s with regs := t.regs })

/-- A write to an address that is not aligned or in no block, or of a size other than 4 bytes, makes no access. A block takes
a write to its own register at once; a posted block keeps it until it takes effect and ignores a second one; a configuration
register of an enabled block ignores it, and so do a DBG register outside debug mode, a register that only the Forester
writes, a GLB_THROTTLE whose limits cross and VEC_REG_DATA of an enabled core; a read-only register is left as it is. A field
with a range stores the value that its description gives for a write outside it. BLK_ENABLE, BLK_DISABLE and SNAP_ARM_WRITE
write BLK_CTRL. A running compare that fails halts its block with code and status bit and stops every running job; the power
block trips instead. A pending match fires Blaze at its beat, and every armed block latches its window. Tally accepts the
entries of its queue in order, merges those whose rule permits it, and reports what it discarded once its queue is empty.
Every 1,048,576 beats the roll-up adds what its counters advanced. (R413, R414, R418, R422, R423, R425, R429, R431, R432,
R433, R434, R435) -/
def Obligations.RegistersAreWrittenAndObserved : Prop :=
  (∀ (s : State) (a : W32) (v : RegData), a.toNat % 4 ≠ 0 ∨ v.bytes ≠ 4 ∨ blkOfAddr a.toNat = none → Machine.exec (.registerWrite a v) s = .next s) ∧
      (∀ (s : State) (a : W32) (v : RegData) (b : Blk) (o : Nat) (r : RegRow), a.toNat % 4 = 0 → v.bytes = 4 → blkOfAddr a.toNat = some (b, o) → s.powered b = true →
        b ≠ .mbx → 0x100 ≤ o → b.row? o = some r → r.acc = .rw → foresterOnly b o = false →
        (b.posted = false → r.cfg = true → s.enabled b = true → Answers (.registerWrite a v) s fun t => t.flag b BLK_STATUS 0 = true ∧
          RegsOnly [b.base + BLK_STATUS] s t ∧ t = { s with regs := t.regs }) ∧
        (b.posted = false → r.cfg = false ∨ s.enabled b = false ∧ s.unitBusy b = false →
          Machine.exec (.registerWrite a v) s = .next (s.storeReg b o (Nat.land v.value.toNat r.mask)))) ∧
      (∀ (s : State) (a : W32) (v : RegData) (b : Blk) (o : Nat) (r : RegRow), s.WriteReaches a v b o → b ≠ .mbx → 0x100 ≤ o →
        b.row? o = some r →
        (foresterOnly b o = true → Answers (.registerWrite a v) s fun t => t.flag b BLK_STATUS 0 = true ∧
          RegsOnly [b.base + BLK_STATUS] s t ∧ t = { s with regs := t.regs }) ∧
        (foresterOnly b o = false → r.acc = .ro ∨ r.acc = .rc → Machine.exec (.registerWrite a v) s = .next s) ∧
        (foresterOnly b o = false → r.acc = .dbg → s.foe.debug = false → Answers (.registerWrite a v) s fun t =>
          t.flag b BLK_STATUS 0 = true ∧ RegsOnly [b.base + BLK_STATUS] s t ∧ t = { s with regs := t.regs })) ∧
      (∀ (s : State) (a : W32) (v : RegData) (b : Blk) (o n lo hi dflt : Nat), RangedReg b o n lo hi dflt → s.WriteReaches a v b o →
        s.enabled b = false ∧ s.unitBusy b = false ∨ b = .pwr →
        let x := v.value.toNat % 2 ^ n
        Answers (.registerWrite a v) s fun t => t.reg b o = (if lo ≤ x ∧ x ≤ hi then x else dflt) ∧ RegsOnly [b.base + o] s t ∧
          t = { s with regs := t.regs }) ∧
      (∀ (s : State) (a : W32) (v : RegData) (k : CoreId), s.WriteReaches a v (.cor k) COR_SLOT_CFG → s.enabled (.cor k) = false →
        let cap := bits v.value.toNat 0 4
        let kept := bits v.value.toNat 8 5
        Answers (.registerWrite a v) s fun t => t.field (.cor k) COR_SLOT_CFG 0 4 = (if 3 ≤ cap ∧ cap ≤ 12 then cap else 12) ∧
          t.field (.cor k) COR_SLOT_CFG 8 5 = (if kept ≤ 24 then kept else 8) ∧ RegsOnly (corRegs k [COR_SLOT_CFG]) s t ∧
          t = { s with regs := t.regs }) ∧
      (∀ (s : State) (a : W32) (v : RegData) (c : ClusterId), s.WriteReaches a v (.cch c) CCH_PF_CFG → s.enabled (.cch c) = false →
        s.unitBusy (.cch c) = false → let depth := bits v.value.toNat 0 8
        Answers (.registerWrite a v) s fun t => t.field (.cch c) CCH_PF_CFG 0 8 = (if 4 ≤ depth ∧ depth ≤ 128 then depth else 32) ∧
          t.field (.cch c) CCH_PF_CFG 8 1 = bits v.value.toNat 8 1 ∧ RegsOnly [(Blk.cch c).base + CCH_PF_CFG] s t ∧
          t = { s with regs := t.regs }) ∧
      (∀ (s : State) (a : W32) (v : RegData), s.WriteReaches a v .pwr GLB_THROTTLE → let w := v.value.toNat
        let ok := bits w 8 8 < bits w 0 8 ∧ bits w 24 8 < bits w 16 8 ∧ bits w 0 8 ≤ s.field .pwr GLB_TRIP 0 8 ∧
          bits w 16 8 ≤ s.field .pwr GLB_TRIP 8 8
        (ok → Answers (.registerWrite a v) s fun t => t.reg .pwr GLB_THROTTLE = w ∧ RegsOnly [Blk.pwr.base + GLB_THROTTLE] s t ∧
          t = { s with regs := t.regs }) ∧
        (¬ok → Answers (.registerWrite a v) s fun t => t.flag .pwr BLK_STATUS 0 = true ∧ RegsOnly [Blk.pwr.base + BLK_STATUS] s t ∧
          t = { s with regs := t.regs })) ∧
      (∀ (s : State) (a : W32) (v : RegData) (k : CoreId), s.WriteReaches a v (.cor k) VEC_REG_DATA → s.foe.debug = true →
        (s.enabled (.cor k) = true → Answers (.registerWrite a v) s fun t => t.flag (.cor k) BLK_STATUS 0 = true ∧
          RegsOnly (corRegs k [BLK_STATUS]) s t ∧ t = { s with regs := t.regs }) ∧
        (s.enabled (.cor k) = false → Answers (.registerWrite a v) s fun t => t = s.setCore k { s.core k with vreg := (t.core k).vreg } ∧
          ∀ i, sget (fun _ => 0) (t.core k).vreg i = if i = s.vecSel k then v.value else sget (fun _ => 0) (s.core k).vreg i)) ∧
      (∀ (s : State) (a : W32) (v : RegData) (b : Blk) (o : Nat), a.toNat % 4 = 0 → v.bytes = 4 → blkOfAddr a.toNat = some (b, o) → s.powered b = true →
        b.posted = true →
        (s.pendingWrite b = none → Answers (.registerWrite a v) s fun t => t.pendingWrite b = some (o, v.value.toNat) ∧
          t = { s with posted := t.posted }) ∧
        (∀ w, s.pendingWrite b = some w → Answers (.registerWrite a v) s fun t => t.flag b BLK_STATUS 0 = true ∧ t.posted = s.posted ∧
          RegsOnly [b.base + BLK_STATUS] s t ∧ t = { s with regs := t.regs })) ∧
      (∀ (s : State) (a : W32) (b : Blk) (o : Nat), blkOfAddr a.toNat = some (b, o) →
        (s.pendingWrite b = none → Machine.exec (.postedWriteEffect a) s = .next s) ∧
        (∀ p v, s.pendingWrite b = some (p, v) →
          Machine.exec (.postedWriteEffect a) s = .next ((s.setPending b none).writeEffect b p v))) ∧
      (∀ (s : State) (a : W32) (b : Blk) (o : Nat), blkOfAddr a.toNat = some (b, o) → s.powered b = true → b.posted = false →
        Machine.exec (.blkEnable a) s = .next ((s.writeArm b (s.flag b BLK_CTRL 1)).enableBlk b) ∧
        Machine.exec (.blkDisable a) s = .next ((s.writeArm b (s.flag b BLK_CTRL 1)).disableBlk b) ∧
        (∀ on, Answers (.snapArmWrite a on) s fun t => t.flag b BLK_CTRL 1 = on ∧ RegsOnly [b.base + BLK_CTRL] s t ∧
          t.enabled b = s.enabled b ∧ t = { s with regs := t.regs })) ∧
      (∀ (s : State) (a : W32) (c : ClusterId) (o : Nat), blkOfAddr a.toNat = some (.clu c, o) → s.powered (.clu c) = true →
        (s.enabled (.clu c) = false → s.crcNow (.clu c) = s.reg (.clu c) BLK_CFG_CRC_REF → Answers (.blkEnable a) s fun t =>
          t.enabled (.clu c) = true ∧ t.mem = s.mem ∧ t.tally = s.tally) ∧
        (Answers (.blkDisable a) s fun t => t.enabled (.clu c) = false ∧ RegsOnly [(Blk.clu c).base + BLK_CTRL] s t ∧
          t = { s with regs := t.regs })) ∧
      (∀ (s : State) (a : W32) (b : Blk) (o : Nat), blkOfAddr a.toNat = some (b, o) →
        ∀ d, let u := s.damageCfg b d
        (s.enabled b = false ∨ u.crcNow b = u.reg b BLK_CFG_CRC_REF → Machine.exec (.cfgCrcCompare a d) s = .next u) ∧
        (s.enabled b = true → u.crcNow b ≠ u.reg b BLK_CFG_CRC_REF → b.alwaysOn = false → Answers (.cfgCrcCompare a d) s fun t =>
          t.enabled b = false ∧ t.flag b BLK_STATUS 1 = true ∧ Logged b b.crcCode 3 [1] s t ∧
          ∀ j < 16, (s.job j).running = true → (t.job j).stops.any (·.kind == .fault) = true) ∧
        (b = .pwr → s.enabled b = true → u.crcNow b ≠ u.reg b BLK_CFG_CRC_REF → Answers (.cfgCrcCompare a d) s fun t =>
          t.mainOn = false ∧ t.foe.heldOff = true ∧ t.flag .pwr BLK_STATUS 1 = true ∧ t.flag .pwr GLB_EVENTS 3 = true)) ∧
      (∀ s : State, s.flag .blz BLZ_STATE 1 = true → let w := s.pair .blz BLZ_MATCH_LO BLZ_MATCH_HI
        let z := s.fireBlaze 1 w 0 0
        (s.beat < w → Machine.exec .blazeMatch s = .next s) ∧
        (w ≤ s.beat → s.blazeFired = false → Answers .blazeMatch s fun t => t.blazeFired = true ∧ t.flag .blz BLZ_STATE 1 = false ∧
          t.flag .blz BLZ_CAUSE 1 = true ∧ t.pair .blz BLZ_BEAT_LO BLZ_BEAT_HI = w ∧ t.blaze = ⟨s.beat, none⟩ ∧ t.mem = s.mem ∧
          ∀ b ∈ allBlocks, s.powered b = true → s.flag b BLK_CTRL 1 = true → t.flag b BLK_CTRL 1 = false ∧
            t.flag b BLK_STATUS 2 = true ∧ sget (fun _ => []) t.snaps b.base = z.window b)) ∧
      (∀ (s : State) (e : TallyEntry) (l : List TallyEntry), s.tally.queue = e :: l →
        (s.mergeAt e = none → Answers .tallyEntryAccept s fun t => t.tally.queue = l ∧
          t.tally.ring = (s.tally.ring ++ [e]).drop (s.tally.ring.length + 1 - tallySlots) ∧
          t.reg .tly TLY_HEAD = (s.reg .tly TLY_HEAD + 1) % 2 ^ 32 ∧ t.mem = s.mem) ∧
        (∀ i x, s.mergeAt e = some i → s.tally.ring[i]? = some x → Answers .tallyEntryAccept s fun t => t.tally.queue = l ∧
          t.tally.ring = s.tally.ring.set i { x with repeats := min 255 (x.repeats + 1) } ∧
          t.reg .tly TLY_CNT_MERGED = (s.reg .tly TLY_CNT_MERGED + 1) % 2 ^ 32 ∧ t.reg .tly TLY_HEAD = s.reg .tly TLY_HEAD)) ∧
      (∀ s : State, s.tally.queue = [] → s.tally.lostSince ≠ 0 → Answers .tallyDiscardReport s fun t => t.tally.lostSince = 0 ∧
        t.reg .tly TLY_HEAD = (s.reg .tly TLY_HEAD + 1) % 2 ^ 32 ∧ ∃ e, t.tally.ring.getLast? = some e ∧ e.code = 0x0120 ∧ e.level = 2 ∧
          e.source = Blk.tly.base ∧ e.args = [s.tally.lostSince % 2 ^ 32, 0, 0]) ∧
      (∀ s : State, s.mainOn = true →
        (s.clock < s.tally.rollAt + 1048576 → Machine.exec .rollupRefresh s = .next s) ∧
        (s.tally.rollAt + 1048576 ≤ s.clock → Answers .rollupRefresh s fun t => t.tally.rollAt = s.tally.rollAt + 1048576 ∧
          (∀ e < 12, t.tally.rollTotal.getD e 0 = (s.tally.rollTotal.getD e 0 + s.rollDelta e) % 2 ^ 64) ∧
          t.reg .tly TLY_ROLL_BEAT = s.beat % 2 ^ 32 ∧ t.tally.ring = s.tally.ring ∧ t.mem = s.mem))
end

