-- ==== Sys2Proof/Laws/Store.lean ====
section
/-! SUPPORT. Sparse maps: a read after a write, reads elsewhere, and the canonical form that every write keeps. -/
namespace Sys2Proof.Machine

variable {V : Type}

/-! ## Reads after writes -/

theorem sget_serase_same (d : Nat → V) (m : SMap V) (k : Nat) : sget d (serase m k) k = d k := by
  induction m with
  | nil => rfl
  | cons p t ih =>
    obtain ⟨a, v⟩ := p
    by_cases h : a = k <;> simp [serase, sget, h, ih]

theorem sget_serase_other (d : Nat → V) (m : SMap V) {k j : Nat} (hj : j ≠ k) : sget d (serase m k) j = sget d m j := by
  induction m with
  | nil => rfl
  | cons p t ih =>
    obtain ⟨a, v⟩ := p
    by_cases h : a = k
    · subst h
      simp [serase, sget, ih, Ne.symm hj]
    · simp [serase, sget, h, ih]

theorem sget_sinsert_other (d : Nat → V) (m : SMap V) {k j : Nat} (v : V) (hj : j ≠ k) : sget d (sinsert m k v) j = sget d m j := by
  induction m with
  | nil => simp [sinsert, sget, Ne.symm hj]
  | cons p t ih =>
    obtain ⟨a, w⟩ := p
    by_cases h : k < a
    · simp [sinsert, sget, h, Ne.symm hj]
    · simp [sinsert, sget, h, ih]

/-- A key that no entry of a map has. -/
def Fresh (m : SMap V) (k : Nat) : Prop := ∀ p ∈ m, p.1 ≠ k

theorem fresh_serase (m : SMap V) (k : Nat) : Fresh (serase m k) k := by
  induction m with
  | nil => simp [serase, Fresh]
  | cons p t ih =>
    obtain ⟨a, v⟩ := p
    by_cases h : a = k
    · simpa [serase, h] using ih
    · simp only [serase, h, if_false]
      intro q hq
      rcases List.mem_cons.mp hq with rfl | hq
      · exact h
      · exact ih q hq

theorem sget_sinsert_same (d : Nat → V) (m : SMap V) (k : Nat) (v : V) (hf : Fresh m k) : sget d (sinsert m k v) k = v := by
  induction m with
  | nil => simp [sinsert, sget]
  | cons p t ih =>
    obtain ⟨a, w⟩ := p
    have ha : a ≠ k := hf (a, w) (by simp)
    by_cases h : k < a
    · simp [sinsert, sget, h]
    · simp [sinsert, sget, h, ha, ih fun q hq => hf q (by simp [hq])]

variable [DecidableEq V]

/-- A read after a write to the same key gives the value written. -/
@[simp] theorem sget_sset_same (d : Nat → V) (m : SMap V) (k : Nat) (v : V) : sget d (sset d m k v) k = v := by
  unfold sset
  split
  · rename_i h
    rw [sget_serase_same, h]
  · exact sget_sinsert_same d _ k v (fresh_serase m k)

/-- A write leaves every other key alone. -/
theorem sget_sset_other (d : Nat → V) (m : SMap V) {k j : Nat} (v : V) (hj : j ≠ k) : sget d (sset d m k v) j = sget d m j := by
  unfold sset
  split
  · exact sget_serase_other d m hj
  · rw [sget_sinsert_other d _ v hj, sget_serase_other d m hj]

theorem sget_sset (d : Nat → V) (m : SMap V) (k j : Nat) (v : V) : sget d (sset d m k v) j = if j = k then v else sget d m j := by
  by_cases h : j = k
  · simp [h]
  · simp [h, sget_sset_other d m v h]

/-- Consecutive writes leave every key outside them alone. -/
theorem sget_ssetMany_other (d : Nat → V) (l : List V) (m : SMap V) {k j : Nat} (hj : j < k ∨ k + l.length ≤ j) :
    sget d (ssetMany d m k l) j = sget d m j := by
  induction l generalizing m k with
  | nil => rfl
  | cons v t ih =>
    simp only [List.length_cons] at hj
    rw [ssetMany, ih _ (by omega), sget_sset_other d m v (by omega)]

/-- Consecutive writes give each key its value. -/
theorem sget_ssetMany_mem (d : Nat → V) (l : List V) (m : SMap V) {k i : Nat} (hi : i < l.length) :
    sget d (ssetMany d m k l) (k + i) = l[i] := by
  induction l generalizing m k i with
  | nil => simp at hi
  | cons v t ih =>
    cases i with
    | zero =>
      rw [ssetMany, sget_ssetMany_other d t _ (by omega)]
      simp
    | succ i =>
      rw [ssetMany, show k + (i + 1) = k + 1 + i by omega, ih _ (by simpa using hi)]
      simp

@[simp] theorem sgetMany_length {W : Type} (d : Nat → W) (m : SMap W) (k n : Nat) : (sgetMany d m k n).length = n := by
  induction n generalizing k with
  | zero => rfl
  | succ n ih => simp [sgetMany, ih]

theorem sgetMany_getElem {W : Type} (d : Nat → W) (m : SMap W) (k n i : Nat) (hi : i < (sgetMany d m k n).length) :
    (sgetMany d m k n)[i] = sget d m (k + i) := by
  induction n generalizing k i with
  | zero => simp [sgetMany] at hi
  | succ n ih =>
    cases i with
    | zero => simp [sgetMany]
    | succ i =>
      simp only [sgetMany, List.getElem_cons_succ]
      rw [ih (k + 1) i (by simpa [sgetMany] using hi)]
      congr 1
      omega

/-- Reading back what was written gives the bytes written. -/
theorem sgetMany_ssetMany (d : Nat → V) (l : List V) (m : SMap V) (k : Nat) : sgetMany d (ssetMany d m k l) k l.length = l := by
  apply List.ext_getElem (by simp)
  intro i h1 h2
  rw [sgetMany_getElem, sget_ssetMany_mem d l m h2]

/-- A read of other keys is unchanged by consecutive writes. -/
theorem sgetMany_ssetMany_other (d : Nat → V) (l : List V) (m : SMap V) {k j n : Nat} (h : j + n ≤ k ∨ k + l.length ≤ j) :
    sgetMany d (ssetMany d m k l) j n = sgetMany d m j n := by
  apply List.ext_getElem (by simp)
  intro i h1 h2
  simp only [sgetMany_length] at h1
  rw [sgetMany_getElem, sgetMany_getElem, sget_ssetMany_other d l m (by omega)]

/-! ## The canonical form -/

theorem swf_cons (d : Nat → V) (a : Nat) (v : V) (t : SMap V) :
    swf d ((a, v) :: t) = true ↔ v ≠ d a ∧ (∀ p ∈ t, a < p.1) ∧ swf d t = true := by
  simp [swf, List.all_eq_true, and_assoc]

omit [DecidableEq V] in
theorem mem_serase {m : SMap V} {k : Nat} {p : Nat × V} (h : p ∈ serase m k) : p ∈ m := by
  induction m with
  | nil => simp [serase] at h
  | cons q t ih =>
    obtain ⟨a, v⟩ := q
    by_cases hk : a = k
    · simp only [serase, hk, if_true] at h
      exact List.mem_cons_of_mem _ (ih h)
    · simp only [serase, hk, if_false] at h
      rcases List.mem_cons.mp h with rfl | h
      · simp
      · exact List.mem_cons_of_mem _ (ih h)

omit [DecidableEq V] in
theorem mem_sinsert {m : SMap V} {k : Nat} {v : V} {p : Nat × V} (h : p ∈ sinsert m k v) : p = (k, v) ∨ p ∈ m := by
  induction m with
  | nil => simpa [sinsert] using h
  | cons q t ih =>
    obtain ⟨a, w⟩ := q
    by_cases hk : k < a
    · simpa [sinsert, hk] using h
    · simp only [sinsert, hk, if_false] at h
      rcases List.mem_cons.mp h with rfl | h
      · simp
      · rcases ih h with rfl | h
        · simp
        · exact Or.inr (List.mem_cons_of_mem _ h)

theorem swf_serase (d : Nat → V) {m : SMap V} (k : Nat) (h : swf d m = true) : swf d (serase m k) = true := by
  induction m with
  | nil => rfl
  | cons q t ih =>
    obtain ⟨a, v⟩ := q
    obtain ⟨h1, h2, h3⟩ := (swf_cons d a v t).mp h
    by_cases hk : a = k
    · simpa [serase, hk] using ih h3
    · simp only [serase, hk, if_false]
      exact (swf_cons ..).mpr ⟨h1, fun p hp => h2 p (mem_serase hp), ih h3⟩

theorem swf_sinsert (d : Nat → V) {m : SMap V} {k : Nat} {v : V} (hv : v ≠ d k) (hf : Fresh m k) (h : swf d m = true) :
    swf d (sinsert m k v) = true := by
  induction m with
  | nil => simp [sinsert, swf, hv]
  | cons q t ih =>
    obtain ⟨a, w⟩ := q
    obtain ⟨h1, h2, h3⟩ := (swf_cons d a w t).mp h
    have ha : a ≠ k := hf (a, w) (by simp)
    by_cases hk : k < a
    · simp only [sinsert, hk, if_true]
      refine (swf_cons ..).mpr ⟨hv, fun p hp => ?_, h⟩
      rcases List.mem_cons.mp hp with rfl | hp
      · exact hk
      · exact Nat.lt_trans hk (h2 p hp)
    · simp only [sinsert, hk, if_false]
      refine (swf_cons ..).mpr ⟨h1, fun p hp => ?_, ih (fun q hq => hf q (by simp [hq])) h3⟩
      rcases mem_sinsert hp with rfl | hp
      · show a < k
        omega
      · exact h2 p hp

/-- A write keeps the canonical form. -/
theorem swf_sset (d : Nat → V) {m : SMap V} (k : Nat) (v : V) (h : swf d m = true) : swf d (sset d m k v) = true := by
  unfold sset
  split
  · exact swf_serase d k h
  · rename_i hv
    exact swf_sinsert d hv (fresh_serase m k) (swf_serase d k h)

theorem swf_ssetMany (d : Nat → V) (l : List V) {m : SMap V} (k : Nat) (h : swf d m = true) : swf d (ssetMany d m k l) = true := by
  induction l generalizing m k with
  | nil => exact h
  | cons v t ih => exact ih (k + 1) (swf_sset d k v h)

theorem swf_filter (d : Nat → V) (q : Nat × V → Bool) {m : SMap V} (h : swf d m = true) : swf d (m.filter q) = true := by
  induction m with
  | nil => rfl
  | cons p t ih =>
    obtain ⟨a, v⟩ := p
    obtain ⟨h1, h2, h3⟩ := (swf_cons d a v t).mp h
    by_cases hq : q (a, v)
    · rw [List.filter_cons_of_pos hq]
      exact (swf_cons ..).mpr ⟨h1, fun p hp => h2 p (List.mem_filter.mp hp).1, ih h3⟩
    · rw [List.filter_cons_of_neg hq]
      exact ih h3

end Sys2Proof.Machine
end

