-- ==== Sys2Proof/Laws/State.lean ====
section
/-! SUPPORT. Each update of the state, field by field: what it leaves alone, and what its reader sees after it. -/
namespace Sys2Proof.Machine
variable (s : State)

/-! ## Fields that an update leaves alone -/

@[simp] theorem State.setReg_pending (b : Blk) (o v : Nat) : (s.setReg b o v).pending = s.pending := rfl
@[simp] theorem State.setReg_clock (b : Blk) (o v : Nat) : (s.setReg b o v).clock = s.clock := rfl
@[simp] theorem State.setReg_freeCount (b : Blk) (o v : Nat) : (s.setReg b o v).freeCount = s.freeCount := rfl
@[simp] theorem State.setReg_out (b : Blk) (o v : Nat) : (s.setReg b o v).out = s.out := rfl
@[simp] theorem State.setReg_beat (b : Blk) (o v : Nat) : (s.setReg b o v).beat = s.beat := rfl
@[simp] theorem State.setReg_standbyOn (b : Blk) (o v : Nat) : (s.setReg b o v).standbyOn = s.standbyOn := rfl
@[simp] theorem State.setReg_mainOn (b : Blk) (o v : Nat) : (s.setReg b o v).mainOn = s.mainOn := rfl
@[simp] theorem State.setReg_mem (b : Blk) (o v : Nat) : (s.setReg b o v).mem = s.mem := rfl
@[simp] theorem State.setReg_cores (b : Blk) (o v : Nat) : (s.setReg b o v).cores = s.cores := rfl
@[simp] theorem State.setReg_clusters (b : Blk) (o v : Nat) : (s.setReg b o v).clusters = s.clusters := rfl
@[simp] theorem State.setReg_time (b : Blk) (o v : Nat) : (s.setReg b o v).time = s.time := rfl
@[simp] theorem State.setReg_jobs (b : Blk) (o v : Nat) : (s.setReg b o v).jobs = s.jobs := rfl
@[simp] theorem State.setReg_tally (b : Blk) (o v : Nat) : (s.setReg b o v).tally = s.tally := rfl
@[simp] theorem State.setReg_blaze (b : Blk) (o v : Nat) : (s.setReg b o v).blaze = s.blaze := rfl
@[simp] theorem State.setReg_fabrics (b : Blk) (o v : Nat) : (s.setReg b o v).fabrics = s.fabrics := rfl
@[simp] theorem State.setReg_routes (b : Blk) (o v : Nat) : (s.setReg b o v).routes = s.routes := rfl
@[simp] theorem State.setReg_ports (b : Blk) (o v : Nat) : (s.setReg b o v).ports = s.ports := rfl
@[simp] theorem State.setReg_loopback (b : Blk) (o v : Nat) : (s.setReg b o v).loopback = s.loopback := rfl
@[simp] theorem State.setReg_mailrooms (b : Blk) (o v : Nat) : (s.setReg b o v).mailrooms = s.mailrooms := rfl
@[simp] theorem State.setReg_shape (b : Blk) (o v : Nat) : (s.setReg b o v).shape = s.shape := rfl
@[simp] theorem State.setReg_cruisers (b : Blk) (o v : Nat) : (s.setReg b o v).cruisers = s.cruisers := rfl
@[simp] theorem State.setReg_skidders (b : Blk) (o v : Nat) : (s.setReg b o v).skidders = s.skidders := rfl
@[simp] theorem State.setReg_sillages (b : Blk) (o v : Nat) : (s.setReg b o v).sillages = s.sillages := rfl
@[simp] theorem State.setReg_landings (b : Blk) (o v : Nat) : (s.setReg b o v).landings = s.landings := rfl
@[simp] theorem State.setReg_opts (b : Blk) (o v : Nat) : (s.setReg b o v).opts = s.opts := rfl
@[simp] theorem State.setReg_foe (b : Blk) (o v : Nat) : (s.setReg b o v).foe = s.foe := rfl
@[simp] theorem State.setReg_lko (b : Blk) (o v : Nat) : (s.setReg b o v).lko = s.lko := rfl
@[simp] theorem State.setReg_pwr (b : Blk) (o v : Nat) : (s.setReg b o v).pwr = s.pwr := rfl
@[simp] theorem State.setReg_snaps (b : Blk) (o v : Nat) : (s.setReg b o v).snaps = s.snaps := rfl
@[simp] theorem State.setReg_posted (b : Blk) (o v : Nat) : (s.setReg b o v).posted = s.posted := rfl
@[simp] theorem State.setReg_flash (b : Blk) (o v : Nat) : (s.setReg b o v).flash = s.flash := rfl

@[simp] theorem State.writeBytes_pending (a : Nat) (l : List Byte) : (s.writeBytes a l).pending = s.pending := rfl
@[simp] theorem State.writeBytes_clock (a : Nat) (l : List Byte) : (s.writeBytes a l).clock = s.clock := rfl
@[simp] theorem State.writeBytes_freeCount (a : Nat) (l : List Byte) : (s.writeBytes a l).freeCount = s.freeCount := rfl
@[simp] theorem State.writeBytes_out (a : Nat) (l : List Byte) : (s.writeBytes a l).out = s.out := rfl
@[simp] theorem State.writeBytes_beat (a : Nat) (l : List Byte) : (s.writeBytes a l).beat = s.beat := rfl
@[simp] theorem State.writeBytes_standbyOn (a : Nat) (l : List Byte) : (s.writeBytes a l).standbyOn = s.standbyOn := rfl
@[simp] theorem State.writeBytes_mainOn (a : Nat) (l : List Byte) : (s.writeBytes a l).mainOn = s.mainOn := rfl
@[simp] theorem State.writeBytes_regs (a : Nat) (l : List Byte) : (s.writeBytes a l).regs = s.regs := rfl
@[simp] theorem State.writeBytes_cores (a : Nat) (l : List Byte) : (s.writeBytes a l).cores = s.cores := rfl
@[simp] theorem State.writeBytes_clusters (a : Nat) (l : List Byte) : (s.writeBytes a l).clusters = s.clusters := rfl
@[simp] theorem State.writeBytes_time (a : Nat) (l : List Byte) : (s.writeBytes a l).time = s.time := rfl
@[simp] theorem State.writeBytes_jobs (a : Nat) (l : List Byte) : (s.writeBytes a l).jobs = s.jobs := rfl
@[simp] theorem State.writeBytes_tally (a : Nat) (l : List Byte) : (s.writeBytes a l).tally = s.tally := rfl
@[simp] theorem State.writeBytes_blaze (a : Nat) (l : List Byte) : (s.writeBytes a l).blaze = s.blaze := rfl
@[simp] theorem State.writeBytes_fabrics (a : Nat) (l : List Byte) : (s.writeBytes a l).fabrics = s.fabrics := rfl
@[simp] theorem State.writeBytes_routes (a : Nat) (l : List Byte) : (s.writeBytes a l).routes = s.routes := rfl
@[simp] theorem State.writeBytes_ports (a : Nat) (l : List Byte) : (s.writeBytes a l).ports = s.ports := rfl
@[simp] theorem State.writeBytes_loopback (a : Nat) (l : List Byte) : (s.writeBytes a l).loopback = s.loopback := rfl
@[simp] theorem State.writeBytes_mailrooms (a : Nat) (l : List Byte) : (s.writeBytes a l).mailrooms = s.mailrooms := rfl
@[simp] theorem State.writeBytes_shape (a : Nat) (l : List Byte) : (s.writeBytes a l).shape = s.shape := rfl
@[simp] theorem State.writeBytes_cruisers (a : Nat) (l : List Byte) : (s.writeBytes a l).cruisers = s.cruisers := rfl
@[simp] theorem State.writeBytes_skidders (a : Nat) (l : List Byte) : (s.writeBytes a l).skidders = s.skidders := rfl
@[simp] theorem State.writeBytes_sillages (a : Nat) (l : List Byte) : (s.writeBytes a l).sillages = s.sillages := rfl
@[simp] theorem State.writeBytes_landings (a : Nat) (l : List Byte) : (s.writeBytes a l).landings = s.landings := rfl
@[simp] theorem State.writeBytes_opts (a : Nat) (l : List Byte) : (s.writeBytes a l).opts = s.opts := rfl
@[simp] theorem State.writeBytes_foe (a : Nat) (l : List Byte) : (s.writeBytes a l).foe = s.foe := rfl
@[simp] theorem State.writeBytes_lko (a : Nat) (l : List Byte) : (s.writeBytes a l).lko = s.lko := rfl
@[simp] theorem State.writeBytes_pwr (a : Nat) (l : List Byte) : (s.writeBytes a l).pwr = s.pwr := rfl
@[simp] theorem State.writeBytes_snaps (a : Nat) (l : List Byte) : (s.writeBytes a l).snaps = s.snaps := rfl
@[simp] theorem State.writeBytes_posted (a : Nat) (l : List Byte) : (s.writeBytes a l).posted = s.posted := rfl
@[simp] theorem State.writeBytes_flash (a : Nat) (l : List Byte) : (s.writeBytes a l).flash = s.flash := rfl

@[simp] theorem State.setCore_pending (k : CoreId) (v : Core) : (s.setCore k v).pending = s.pending := rfl
@[simp] theorem State.setCore_clock (k : CoreId) (v : Core) : (s.setCore k v).clock = s.clock := rfl
@[simp] theorem State.setCore_freeCount (k : CoreId) (v : Core) : (s.setCore k v).freeCount = s.freeCount := rfl
@[simp] theorem State.setCore_out (k : CoreId) (v : Core) : (s.setCore k v).out = s.out := rfl
@[simp] theorem State.setCore_beat (k : CoreId) (v : Core) : (s.setCore k v).beat = s.beat := rfl
@[simp] theorem State.setCore_standbyOn (k : CoreId) (v : Core) : (s.setCore k v).standbyOn = s.standbyOn := rfl
@[simp] theorem State.setCore_mainOn (k : CoreId) (v : Core) : (s.setCore k v).mainOn = s.mainOn := rfl
@[simp] theorem State.setCore_mem (k : CoreId) (v : Core) : (s.setCore k v).mem = s.mem := rfl
@[simp] theorem State.setCore_regs (k : CoreId) (v : Core) : (s.setCore k v).regs = s.regs := rfl
@[simp] theorem State.setCore_clusters (k : CoreId) (v : Core) : (s.setCore k v).clusters = s.clusters := rfl
@[simp] theorem State.setCore_time (k : CoreId) (v : Core) : (s.setCore k v).time = s.time := rfl
@[simp] theorem State.setCore_jobs (k : CoreId) (v : Core) : (s.setCore k v).jobs = s.jobs := rfl
@[simp] theorem State.setCore_tally (k : CoreId) (v : Core) : (s.setCore k v).tally = s.tally := rfl
@[simp] theorem State.setCore_blaze (k : CoreId) (v : Core) : (s.setCore k v).blaze = s.blaze := rfl
@[simp] theorem State.setCore_fabrics (k : CoreId) (v : Core) : (s.setCore k v).fabrics = s.fabrics := rfl
@[simp] theorem State.setCore_routes (k : CoreId) (v : Core) : (s.setCore k v).routes = s.routes := rfl
@[simp] theorem State.setCore_ports (k : CoreId) (v : Core) : (s.setCore k v).ports = s.ports := rfl
@[simp] theorem State.setCore_loopback (k : CoreId) (v : Core) : (s.setCore k v).loopback = s.loopback := rfl
@[simp] theorem State.setCore_mailrooms (k : CoreId) (v : Core) : (s.setCore k v).mailrooms = s.mailrooms := rfl
@[simp] theorem State.setCore_shape (k : CoreId) (v : Core) : (s.setCore k v).shape = s.shape := rfl
@[simp] theorem State.setCore_cruisers (k : CoreId) (v : Core) : (s.setCore k v).cruisers = s.cruisers := rfl
@[simp] theorem State.setCore_skidders (k : CoreId) (v : Core) : (s.setCore k v).skidders = s.skidders := rfl
@[simp] theorem State.setCore_sillages (k : CoreId) (v : Core) : (s.setCore k v).sillages = s.sillages := rfl
@[simp] theorem State.setCore_landings (k : CoreId) (v : Core) : (s.setCore k v).landings = s.landings := rfl
@[simp] theorem State.setCore_opts (k : CoreId) (v : Core) : (s.setCore k v).opts = s.opts := rfl
@[simp] theorem State.setCore_foe (k : CoreId) (v : Core) : (s.setCore k v).foe = s.foe := rfl
@[simp] theorem State.setCore_lko (k : CoreId) (v : Core) : (s.setCore k v).lko = s.lko := rfl
@[simp] theorem State.setCore_pwr (k : CoreId) (v : Core) : (s.setCore k v).pwr = s.pwr := rfl
@[simp] theorem State.setCore_snaps (k : CoreId) (v : Core) : (s.setCore k v).snaps = s.snaps := rfl
@[simp] theorem State.setCore_posted (k : CoreId) (v : Core) : (s.setCore k v).posted = s.posted := rfl
@[simp] theorem State.setCore_flash (k : CoreId) (v : Core) : (s.setCore k v).flash = s.flash := rfl

@[simp] theorem State.setCluster_pending (c : ClusterId) (v : Cluster) : (s.setCluster c v).pending = s.pending := rfl
@[simp] theorem State.setCluster_clock (c : ClusterId) (v : Cluster) : (s.setCluster c v).clock = s.clock := rfl
@[simp] theorem State.setCluster_freeCount (c : ClusterId) (v : Cluster) : (s.setCluster c v).freeCount = s.freeCount := rfl
@[simp] theorem State.setCluster_out (c : ClusterId) (v : Cluster) : (s.setCluster c v).out = s.out := rfl
@[simp] theorem State.setCluster_beat (c : ClusterId) (v : Cluster) : (s.setCluster c v).beat = s.beat := rfl
@[simp] theorem State.setCluster_standbyOn (c : ClusterId) (v : Cluster) : (s.setCluster c v).standbyOn = s.standbyOn := rfl
@[simp] theorem State.setCluster_mainOn (c : ClusterId) (v : Cluster) : (s.setCluster c v).mainOn = s.mainOn := rfl
@[simp] theorem State.setCluster_mem (c : ClusterId) (v : Cluster) : (s.setCluster c v).mem = s.mem := rfl
@[simp] theorem State.setCluster_regs (c : ClusterId) (v : Cluster) : (s.setCluster c v).regs = s.regs := rfl
@[simp] theorem State.setCluster_cores (c : ClusterId) (v : Cluster) : (s.setCluster c v).cores = s.cores := rfl
@[simp] theorem State.setCluster_time (c : ClusterId) (v : Cluster) : (s.setCluster c v).time = s.time := rfl
@[simp] theorem State.setCluster_jobs (c : ClusterId) (v : Cluster) : (s.setCluster c v).jobs = s.jobs := rfl
@[simp] theorem State.setCluster_tally (c : ClusterId) (v : Cluster) : (s.setCluster c v).tally = s.tally := rfl
@[simp] theorem State.setCluster_blaze (c : ClusterId) (v : Cluster) : (s.setCluster c v).blaze = s.blaze := rfl
@[simp] theorem State.setCluster_fabrics (c : ClusterId) (v : Cluster) : (s.setCluster c v).fabrics = s.fabrics := rfl
@[simp] theorem State.setCluster_routes (c : ClusterId) (v : Cluster) : (s.setCluster c v).routes = s.routes := rfl
@[simp] theorem State.setCluster_ports (c : ClusterId) (v : Cluster) : (s.setCluster c v).ports = s.ports := rfl
@[simp] theorem State.setCluster_loopback (c : ClusterId) (v : Cluster) : (s.setCluster c v).loopback = s.loopback := rfl
@[simp] theorem State.setCluster_mailrooms (c : ClusterId) (v : Cluster) : (s.setCluster c v).mailrooms = s.mailrooms := rfl
@[simp] theorem State.setCluster_shape (c : ClusterId) (v : Cluster) : (s.setCluster c v).shape = s.shape := rfl
@[simp] theorem State.setCluster_cruisers (c : ClusterId) (v : Cluster) : (s.setCluster c v).cruisers = s.cruisers := rfl
@[simp] theorem State.setCluster_skidders (c : ClusterId) (v : Cluster) : (s.setCluster c v).skidders = s.skidders := rfl
@[simp] theorem State.setCluster_sillages (c : ClusterId) (v : Cluster) : (s.setCluster c v).sillages = s.sillages := rfl
@[simp] theorem State.setCluster_landings (c : ClusterId) (v : Cluster) : (s.setCluster c v).landings = s.landings := rfl
@[simp] theorem State.setCluster_opts (c : ClusterId) (v : Cluster) : (s.setCluster c v).opts = s.opts := rfl
@[simp] theorem State.setCluster_foe (c : ClusterId) (v : Cluster) : (s.setCluster c v).foe = s.foe := rfl
@[simp] theorem State.setCluster_lko (c : ClusterId) (v : Cluster) : (s.setCluster c v).lko = s.lko := rfl
@[simp] theorem State.setCluster_pwr (c : ClusterId) (v : Cluster) : (s.setCluster c v).pwr = s.pwr := rfl
@[simp] theorem State.setCluster_snaps (c : ClusterId) (v : Cluster) : (s.setCluster c v).snaps = s.snaps := rfl
@[simp] theorem State.setCluster_posted (c : ClusterId) (v : Cluster) : (s.setCluster c v).posted = s.posted := rfl
@[simp] theorem State.setCluster_flash (c : ClusterId) (v : Cluster) : (s.setCluster c v).flash = s.flash := rfl

@[simp] theorem State.setJob_pending (j : Nat) (v : JobSlot) : (s.setJob j v).pending = s.pending := rfl
@[simp] theorem State.setJob_clock (j : Nat) (v : JobSlot) : (s.setJob j v).clock = s.clock := rfl
@[simp] theorem State.setJob_freeCount (j : Nat) (v : JobSlot) : (s.setJob j v).freeCount = s.freeCount := rfl
@[simp] theorem State.setJob_out (j : Nat) (v : JobSlot) : (s.setJob j v).out = s.out := rfl
@[simp] theorem State.setJob_beat (j : Nat) (v : JobSlot) : (s.setJob j v).beat = s.beat := rfl
@[simp] theorem State.setJob_standbyOn (j : Nat) (v : JobSlot) : (s.setJob j v).standbyOn = s.standbyOn := rfl
@[simp] theorem State.setJob_mainOn (j : Nat) (v : JobSlot) : (s.setJob j v).mainOn = s.mainOn := rfl
@[simp] theorem State.setJob_mem (j : Nat) (v : JobSlot) : (s.setJob j v).mem = s.mem := rfl
@[simp] theorem State.setJob_regs (j : Nat) (v : JobSlot) : (s.setJob j v).regs = s.regs := rfl
@[simp] theorem State.setJob_cores (j : Nat) (v : JobSlot) : (s.setJob j v).cores = s.cores := rfl
@[simp] theorem State.setJob_clusters (j : Nat) (v : JobSlot) : (s.setJob j v).clusters = s.clusters := rfl
@[simp] theorem State.setJob_time (j : Nat) (v : JobSlot) : (s.setJob j v).time = s.time := rfl
@[simp] theorem State.setJob_tally (j : Nat) (v : JobSlot) : (s.setJob j v).tally = s.tally := rfl
@[simp] theorem State.setJob_blaze (j : Nat) (v : JobSlot) : (s.setJob j v).blaze = s.blaze := rfl
@[simp] theorem State.setJob_fabrics (j : Nat) (v : JobSlot) : (s.setJob j v).fabrics = s.fabrics := rfl
@[simp] theorem State.setJob_routes (j : Nat) (v : JobSlot) : (s.setJob j v).routes = s.routes := rfl
@[simp] theorem State.setJob_ports (j : Nat) (v : JobSlot) : (s.setJob j v).ports = s.ports := rfl
@[simp] theorem State.setJob_loopback (j : Nat) (v : JobSlot) : (s.setJob j v).loopback = s.loopback := rfl
@[simp] theorem State.setJob_mailrooms (j : Nat) (v : JobSlot) : (s.setJob j v).mailrooms = s.mailrooms := rfl
@[simp] theorem State.setJob_shape (j : Nat) (v : JobSlot) : (s.setJob j v).shape = s.shape := rfl
@[simp] theorem State.setJob_cruisers (j : Nat) (v : JobSlot) : (s.setJob j v).cruisers = s.cruisers := rfl
@[simp] theorem State.setJob_skidders (j : Nat) (v : JobSlot) : (s.setJob j v).skidders = s.skidders := rfl
@[simp] theorem State.setJob_sillages (j : Nat) (v : JobSlot) : (s.setJob j v).sillages = s.sillages := rfl
@[simp] theorem State.setJob_landings (j : Nat) (v : JobSlot) : (s.setJob j v).landings = s.landings := rfl
@[simp] theorem State.setJob_opts (j : Nat) (v : JobSlot) : (s.setJob j v).opts = s.opts := rfl
@[simp] theorem State.setJob_foe (j : Nat) (v : JobSlot) : (s.setJob j v).foe = s.foe := rfl
@[simp] theorem State.setJob_lko (j : Nat) (v : JobSlot) : (s.setJob j v).lko = s.lko := rfl
@[simp] theorem State.setJob_pwr (j : Nat) (v : JobSlot) : (s.setJob j v).pwr = s.pwr := rfl
@[simp] theorem State.setJob_snaps (j : Nat) (v : JobSlot) : (s.setJob j v).snaps = s.snaps := rfl
@[simp] theorem State.setJob_posted (j : Nat) (v : JobSlot) : (s.setJob j v).posted = s.posted := rfl
@[simp] theorem State.setJob_flash (j : Nat) (v : JobSlot) : (s.setJob j v).flash = s.flash := rfl

@[simp] theorem State.setFabric_pending (i : Fin 8) (v : Fabric) : (s.setFabric i v).pending = s.pending := rfl
@[simp] theorem State.setFabric_clock (i : Fin 8) (v : Fabric) : (s.setFabric i v).clock = s.clock := rfl
@[simp] theorem State.setFabric_freeCount (i : Fin 8) (v : Fabric) : (s.setFabric i v).freeCount = s.freeCount := rfl
@[simp] theorem State.setFabric_out (i : Fin 8) (v : Fabric) : (s.setFabric i v).out = s.out := rfl
@[simp] theorem State.setFabric_beat (i : Fin 8) (v : Fabric) : (s.setFabric i v).beat = s.beat := rfl
@[simp] theorem State.setFabric_standbyOn (i : Fin 8) (v : Fabric) : (s.setFabric i v).standbyOn = s.standbyOn := rfl
@[simp] theorem State.setFabric_mainOn (i : Fin 8) (v : Fabric) : (s.setFabric i v).mainOn = s.mainOn := rfl
@[simp] theorem State.setFabric_mem (i : Fin 8) (v : Fabric) : (s.setFabric i v).mem = s.mem := rfl
@[simp] theorem State.setFabric_regs (i : Fin 8) (v : Fabric) : (s.setFabric i v).regs = s.regs := rfl
@[simp] theorem State.setFabric_cores (i : Fin 8) (v : Fabric) : (s.setFabric i v).cores = s.cores := rfl
@[simp] theorem State.setFabric_clusters (i : Fin 8) (v : Fabric) : (s.setFabric i v).clusters = s.clusters := rfl
@[simp] theorem State.setFabric_time (i : Fin 8) (v : Fabric) : (s.setFabric i v).time = s.time := rfl
@[simp] theorem State.setFabric_jobs (i : Fin 8) (v : Fabric) : (s.setFabric i v).jobs = s.jobs := rfl
@[simp] theorem State.setFabric_tally (i : Fin 8) (v : Fabric) : (s.setFabric i v).tally = s.tally := rfl
@[simp] theorem State.setFabric_blaze (i : Fin 8) (v : Fabric) : (s.setFabric i v).blaze = s.blaze := rfl
@[simp] theorem State.setFabric_routes (i : Fin 8) (v : Fabric) : (s.setFabric i v).routes = s.routes := rfl
@[simp] theorem State.setFabric_ports (i : Fin 8) (v : Fabric) : (s.setFabric i v).ports = s.ports := rfl
@[simp] theorem State.setFabric_loopback (i : Fin 8) (v : Fabric) : (s.setFabric i v).loopback = s.loopback := rfl
@[simp] theorem State.setFabric_mailrooms (i : Fin 8) (v : Fabric) : (s.setFabric i v).mailrooms = s.mailrooms := rfl
@[simp] theorem State.setFabric_shape (i : Fin 8) (v : Fabric) : (s.setFabric i v).shape = s.shape := rfl
@[simp] theorem State.setFabric_cruisers (i : Fin 8) (v : Fabric) : (s.setFabric i v).cruisers = s.cruisers := rfl
@[simp] theorem State.setFabric_skidders (i : Fin 8) (v : Fabric) : (s.setFabric i v).skidders = s.skidders := rfl
@[simp] theorem State.setFabric_sillages (i : Fin 8) (v : Fabric) : (s.setFabric i v).sillages = s.sillages := rfl
@[simp] theorem State.setFabric_landings (i : Fin 8) (v : Fabric) : (s.setFabric i v).landings = s.landings := rfl
@[simp] theorem State.setFabric_opts (i : Fin 8) (v : Fabric) : (s.setFabric i v).opts = s.opts := rfl
@[simp] theorem State.setFabric_foe (i : Fin 8) (v : Fabric) : (s.setFabric i v).foe = s.foe := rfl
@[simp] theorem State.setFabric_lko (i : Fin 8) (v : Fabric) : (s.setFabric i v).lko = s.lko := rfl
@[simp] theorem State.setFabric_pwr (i : Fin 8) (v : Fabric) : (s.setFabric i v).pwr = s.pwr := rfl
@[simp] theorem State.setFabric_snaps (i : Fin 8) (v : Fabric) : (s.setFabric i v).snaps = s.snaps := rfl
@[simp] theorem State.setFabric_posted (i : Fin 8) (v : Fabric) : (s.setFabric i v).posted = s.posted := rfl
@[simp] theorem State.setFabric_flash (i : Fin 8) (v : Fabric) : (s.setFabric i v).flash = s.flash := rfl

@[simp] theorem State.setRouteWord_pending (i : Fin 8) (n v : Nat) : (s.setRouteWord i n v).pending = s.pending := rfl
@[simp] theorem State.setRouteWord_clock (i : Fin 8) (n v : Nat) : (s.setRouteWord i n v).clock = s.clock := rfl
@[simp] theorem State.setRouteWord_freeCount (i : Fin 8) (n v : Nat) : (s.setRouteWord i n v).freeCount = s.freeCount := rfl
@[simp] theorem State.setRouteWord_out (i : Fin 8) (n v : Nat) : (s.setRouteWord i n v).out = s.out := rfl
@[simp] theorem State.setRouteWord_beat (i : Fin 8) (n v : Nat) : (s.setRouteWord i n v).beat = s.beat := rfl
@[simp] theorem State.setRouteWord_standbyOn (i : Fin 8) (n v : Nat) : (s.setRouteWord i n v).standbyOn = s.standbyOn := rfl
@[simp] theorem State.setRouteWord_mainOn (i : Fin 8) (n v : Nat) : (s.setRouteWord i n v).mainOn = s.mainOn := rfl
@[simp] theorem State.setRouteWord_mem (i : Fin 8) (n v : Nat) : (s.setRouteWord i n v).mem = s.mem := rfl
@[simp] theorem State.setRouteWord_regs (i : Fin 8) (n v : Nat) : (s.setRouteWord i n v).regs = s.regs := rfl
@[simp] theorem State.setRouteWord_cores (i : Fin 8) (n v : Nat) : (s.setRouteWord i n v).cores = s.cores := rfl
@[simp] theorem State.setRouteWord_clusters (i : Fin 8) (n v : Nat) : (s.setRouteWord i n v).clusters = s.clusters := rfl
@[simp] theorem State.setRouteWord_time (i : Fin 8) (n v : Nat) : (s.setRouteWord i n v).time = s.time := rfl
@[simp] theorem State.setRouteWord_jobs (i : Fin 8) (n v : Nat) : (s.setRouteWord i n v).jobs = s.jobs := rfl
@[simp] theorem State.setRouteWord_tally (i : Fin 8) (n v : Nat) : (s.setRouteWord i n v).tally = s.tally := rfl
@[simp] theorem State.setRouteWord_blaze (i : Fin 8) (n v : Nat) : (s.setRouteWord i n v).blaze = s.blaze := rfl
@[simp] theorem State.setRouteWord_fabrics (i : Fin 8) (n v : Nat) : (s.setRouteWord i n v).fabrics = s.fabrics := rfl
@[simp] theorem State.setRouteWord_ports (i : Fin 8) (n v : Nat) : (s.setRouteWord i n v).ports = s.ports := rfl
@[simp] theorem State.setRouteWord_loopback (i : Fin 8) (n v : Nat) : (s.setRouteWord i n v).loopback = s.loopback := rfl
@[simp] theorem State.setRouteWord_mailrooms (i : Fin 8) (n v : Nat) : (s.setRouteWord i n v).mailrooms = s.mailrooms := rfl
@[simp] theorem State.setRouteWord_shape (i : Fin 8) (n v : Nat) : (s.setRouteWord i n v).shape = s.shape := rfl
@[simp] theorem State.setRouteWord_cruisers (i : Fin 8) (n v : Nat) : (s.setRouteWord i n v).cruisers = s.cruisers := rfl
@[simp] theorem State.setRouteWord_skidders (i : Fin 8) (n v : Nat) : (s.setRouteWord i n v).skidders = s.skidders := rfl
@[simp] theorem State.setRouteWord_sillages (i : Fin 8) (n v : Nat) : (s.setRouteWord i n v).sillages = s.sillages := rfl
@[simp] theorem State.setRouteWord_landings (i : Fin 8) (n v : Nat) : (s.setRouteWord i n v).landings = s.landings := rfl
@[simp] theorem State.setRouteWord_opts (i : Fin 8) (n v : Nat) : (s.setRouteWord i n v).opts = s.opts := rfl
@[simp] theorem State.setRouteWord_foe (i : Fin 8) (n v : Nat) : (s.setRouteWord i n v).foe = s.foe := rfl
@[simp] theorem State.setRouteWord_lko (i : Fin 8) (n v : Nat) : (s.setRouteWord i n v).lko = s.lko := rfl
@[simp] theorem State.setRouteWord_pwr (i : Fin 8) (n v : Nat) : (s.setRouteWord i n v).pwr = s.pwr := rfl
@[simp] theorem State.setRouteWord_snaps (i : Fin 8) (n v : Nat) : (s.setRouteWord i n v).snaps = s.snaps := rfl
@[simp] theorem State.setRouteWord_posted (i : Fin 8) (n v : Nat) : (s.setRouteWord i n v).posted = s.posted := rfl
@[simp] theorem State.setRouteWord_flash (i : Fin 8) (n v : Nat) : (s.setRouteWord i n v).flash = s.flash := rfl

@[simp] theorem State.setPortQ_pending (n : Nat) (v : PortQ) : (s.setPortQ n v).pending = s.pending := rfl
@[simp] theorem State.setPortQ_clock (n : Nat) (v : PortQ) : (s.setPortQ n v).clock = s.clock := rfl
@[simp] theorem State.setPortQ_freeCount (n : Nat) (v : PortQ) : (s.setPortQ n v).freeCount = s.freeCount := rfl
@[simp] theorem State.setPortQ_out (n : Nat) (v : PortQ) : (s.setPortQ n v).out = s.out := rfl
@[simp] theorem State.setPortQ_beat (n : Nat) (v : PortQ) : (s.setPortQ n v).beat = s.beat := rfl
@[simp] theorem State.setPortQ_standbyOn (n : Nat) (v : PortQ) : (s.setPortQ n v).standbyOn = s.standbyOn := rfl
@[simp] theorem State.setPortQ_mainOn (n : Nat) (v : PortQ) : (s.setPortQ n v).mainOn = s.mainOn := rfl
@[simp] theorem State.setPortQ_mem (n : Nat) (v : PortQ) : (s.setPortQ n v).mem = s.mem := rfl
@[simp] theorem State.setPortQ_regs (n : Nat) (v : PortQ) : (s.setPortQ n v).regs = s.regs := rfl
@[simp] theorem State.setPortQ_cores (n : Nat) (v : PortQ) : (s.setPortQ n v).cores = s.cores := rfl
@[simp] theorem State.setPortQ_clusters (n : Nat) (v : PortQ) : (s.setPortQ n v).clusters = s.clusters := rfl
@[simp] theorem State.setPortQ_time (n : Nat) (v : PortQ) : (s.setPortQ n v).time = s.time := rfl
@[simp] theorem State.setPortQ_jobs (n : Nat) (v : PortQ) : (s.setPortQ n v).jobs = s.jobs := rfl
@[simp] theorem State.setPortQ_tally (n : Nat) (v : PortQ) : (s.setPortQ n v).tally = s.tally := rfl
@[simp] theorem State.setPortQ_blaze (n : Nat) (v : PortQ) : (s.setPortQ n v).blaze = s.blaze := rfl
@[simp] theorem State.setPortQ_fabrics (n : Nat) (v : PortQ) : (s.setPortQ n v).fabrics = s.fabrics := rfl
@[simp] theorem State.setPortQ_routes (n : Nat) (v : PortQ) : (s.setPortQ n v).routes = s.routes := rfl
@[simp] theorem State.setPortQ_loopback (n : Nat) (v : PortQ) : (s.setPortQ n v).loopback = s.loopback := rfl
@[simp] theorem State.setPortQ_mailrooms (n : Nat) (v : PortQ) : (s.setPortQ n v).mailrooms = s.mailrooms := rfl
@[simp] theorem State.setPortQ_shape (n : Nat) (v : PortQ) : (s.setPortQ n v).shape = s.shape := rfl
@[simp] theorem State.setPortQ_cruisers (n : Nat) (v : PortQ) : (s.setPortQ n v).cruisers = s.cruisers := rfl
@[simp] theorem State.setPortQ_skidders (n : Nat) (v : PortQ) : (s.setPortQ n v).skidders = s.skidders := rfl
@[simp] theorem State.setPortQ_sillages (n : Nat) (v : PortQ) : (s.setPortQ n v).sillages = s.sillages := rfl
@[simp] theorem State.setPortQ_landings (n : Nat) (v : PortQ) : (s.setPortQ n v).landings = s.landings := rfl
@[simp] theorem State.setPortQ_opts (n : Nat) (v : PortQ) : (s.setPortQ n v).opts = s.opts := rfl
@[simp] theorem State.setPortQ_foe (n : Nat) (v : PortQ) : (s.setPortQ n v).foe = s.foe := rfl
@[simp] theorem State.setPortQ_lko (n : Nat) (v : PortQ) : (s.setPortQ n v).lko = s.lko := rfl
@[simp] theorem State.setPortQ_pwr (n : Nat) (v : PortQ) : (s.setPortQ n v).pwr = s.pwr := rfl
@[simp] theorem State.setPortQ_snaps (n : Nat) (v : PortQ) : (s.setPortQ n v).snaps = s.snaps := rfl
@[simp] theorem State.setPortQ_posted (n : Nat) (v : PortQ) : (s.setPortQ n v).posted = s.posted := rfl
@[simp] theorem State.setPortQ_flash (n : Nat) (v : PortQ) : (s.setPortQ n v).flash = s.flash := rfl

@[simp] theorem State.setMailroom_pending (c : ClusterId) (v : Mailroom) : (s.setMailroom c v).pending = s.pending := rfl
@[simp] theorem State.setMailroom_clock (c : ClusterId) (v : Mailroom) : (s.setMailroom c v).clock = s.clock := rfl
@[simp] theorem State.setMailroom_freeCount (c : ClusterId) (v : Mailroom) : (s.setMailroom c v).freeCount = s.freeCount := rfl
@[simp] theorem State.setMailroom_out (c : ClusterId) (v : Mailroom) : (s.setMailroom c v).out = s.out := rfl
@[simp] theorem State.setMailroom_beat (c : ClusterId) (v : Mailroom) : (s.setMailroom c v).beat = s.beat := rfl
@[simp] theorem State.setMailroom_standbyOn (c : ClusterId) (v : Mailroom) : (s.setMailroom c v).standbyOn = s.standbyOn := rfl
@[simp] theorem State.setMailroom_mainOn (c : ClusterId) (v : Mailroom) : (s.setMailroom c v).mainOn = s.mainOn := rfl
@[simp] theorem State.setMailroom_mem (c : ClusterId) (v : Mailroom) : (s.setMailroom c v).mem = s.mem := rfl
@[simp] theorem State.setMailroom_regs (c : ClusterId) (v : Mailroom) : (s.setMailroom c v).regs = s.regs := rfl
@[simp] theorem State.setMailroom_cores (c : ClusterId) (v : Mailroom) : (s.setMailroom c v).cores = s.cores := rfl
@[simp] theorem State.setMailroom_clusters (c : ClusterId) (v : Mailroom) : (s.setMailroom c v).clusters = s.clusters := rfl
@[simp] theorem State.setMailroom_time (c : ClusterId) (v : Mailroom) : (s.setMailroom c v).time = s.time := rfl
@[simp] theorem State.setMailroom_jobs (c : ClusterId) (v : Mailroom) : (s.setMailroom c v).jobs = s.jobs := rfl
@[simp] theorem State.setMailroom_tally (c : ClusterId) (v : Mailroom) : (s.setMailroom c v).tally = s.tally := rfl
@[simp] theorem State.setMailroom_blaze (c : ClusterId) (v : Mailroom) : (s.setMailroom c v).blaze = s.blaze := rfl
@[simp] theorem State.setMailroom_fabrics (c : ClusterId) (v : Mailroom) : (s.setMailroom c v).fabrics = s.fabrics := rfl
@[simp] theorem State.setMailroom_routes (c : ClusterId) (v : Mailroom) : (s.setMailroom c v).routes = s.routes := rfl
@[simp] theorem State.setMailroom_ports (c : ClusterId) (v : Mailroom) : (s.setMailroom c v).ports = s.ports := rfl
@[simp] theorem State.setMailroom_loopback (c : ClusterId) (v : Mailroom) : (s.setMailroom c v).loopback = s.loopback := rfl
@[simp] theorem State.setMailroom_shape (c : ClusterId) (v : Mailroom) : (s.setMailroom c v).shape = s.shape := rfl
@[simp] theorem State.setMailroom_cruisers (c : ClusterId) (v : Mailroom) : (s.setMailroom c v).cruisers = s.cruisers := rfl
@[simp] theorem State.setMailroom_skidders (c : ClusterId) (v : Mailroom) : (s.setMailroom c v).skidders = s.skidders := rfl
@[simp] theorem State.setMailroom_sillages (c : ClusterId) (v : Mailroom) : (s.setMailroom c v).sillages = s.sillages := rfl
@[simp] theorem State.setMailroom_landings (c : ClusterId) (v : Mailroom) : (s.setMailroom c v).landings = s.landings := rfl
@[simp] theorem State.setMailroom_opts (c : ClusterId) (v : Mailroom) : (s.setMailroom c v).opts = s.opts := rfl
@[simp] theorem State.setMailroom_foe (c : ClusterId) (v : Mailroom) : (s.setMailroom c v).foe = s.foe := rfl
@[simp] theorem State.setMailroom_lko (c : ClusterId) (v : Mailroom) : (s.setMailroom c v).lko = s.lko := rfl
@[simp] theorem State.setMailroom_pwr (c : ClusterId) (v : Mailroom) : (s.setMailroom c v).pwr = s.pwr := rfl
@[simp] theorem State.setMailroom_snaps (c : ClusterId) (v : Mailroom) : (s.setMailroom c v).snaps = s.snaps := rfl
@[simp] theorem State.setMailroom_posted (c : ClusterId) (v : Mailroom) : (s.setMailroom c v).posted = s.posted := rfl
@[simp] theorem State.setMailroom_flash (c : ClusterId) (v : Mailroom) : (s.setMailroom c v).flash = s.flash := rfl

@[simp] theorem State.setCruiser_pending (c : ClusterId) (v : Cruiser) : (s.setCruiser c v).pending = s.pending := rfl
@[simp] theorem State.setCruiser_clock (c : ClusterId) (v : Cruiser) : (s.setCruiser c v).clock = s.clock := rfl
@[simp] theorem State.setCruiser_freeCount (c : ClusterId) (v : Cruiser) : (s.setCruiser c v).freeCount = s.freeCount := rfl
@[simp] theorem State.setCruiser_out (c : ClusterId) (v : Cruiser) : (s.setCruiser c v).out = s.out := rfl
@[simp] theorem State.setCruiser_beat (c : ClusterId) (v : Cruiser) : (s.setCruiser c v).beat = s.beat := rfl
@[simp] theorem State.setCruiser_standbyOn (c : ClusterId) (v : Cruiser) : (s.setCruiser c v).standbyOn = s.standbyOn := rfl
@[simp] theorem State.setCruiser_mainOn (c : ClusterId) (v : Cruiser) : (s.setCruiser c v).mainOn = s.mainOn := rfl
@[simp] theorem State.setCruiser_mem (c : ClusterId) (v : Cruiser) : (s.setCruiser c v).mem = s.mem := rfl
@[simp] theorem State.setCruiser_regs (c : ClusterId) (v : Cruiser) : (s.setCruiser c v).regs = s.regs := rfl
@[simp] theorem State.setCruiser_cores (c : ClusterId) (v : Cruiser) : (s.setCruiser c v).cores = s.cores := rfl
@[simp] theorem State.setCruiser_clusters (c : ClusterId) (v : Cruiser) : (s.setCruiser c v).clusters = s.clusters := rfl
@[simp] theorem State.setCruiser_time (c : ClusterId) (v : Cruiser) : (s.setCruiser c v).time = s.time := rfl
@[simp] theorem State.setCruiser_jobs (c : ClusterId) (v : Cruiser) : (s.setCruiser c v).jobs = s.jobs := rfl
@[simp] theorem State.setCruiser_tally (c : ClusterId) (v : Cruiser) : (s.setCruiser c v).tally = s.tally := rfl
@[simp] theorem State.setCruiser_blaze (c : ClusterId) (v : Cruiser) : (s.setCruiser c v).blaze = s.blaze := rfl
@[simp] theorem State.setCruiser_fabrics (c : ClusterId) (v : Cruiser) : (s.setCruiser c v).fabrics = s.fabrics := rfl
@[simp] theorem State.setCruiser_routes (c : ClusterId) (v : Cruiser) : (s.setCruiser c v).routes = s.routes := rfl
@[simp] theorem State.setCruiser_ports (c : ClusterId) (v : Cruiser) : (s.setCruiser c v).ports = s.ports := rfl
@[simp] theorem State.setCruiser_loopback (c : ClusterId) (v : Cruiser) : (s.setCruiser c v).loopback = s.loopback := rfl
@[simp] theorem State.setCruiser_mailrooms (c : ClusterId) (v : Cruiser) : (s.setCruiser c v).mailrooms = s.mailrooms := rfl
@[simp] theorem State.setCruiser_shape (c : ClusterId) (v : Cruiser) : (s.setCruiser c v).shape = s.shape := rfl
@[simp] theorem State.setCruiser_skidders (c : ClusterId) (v : Cruiser) : (s.setCruiser c v).skidders = s.skidders := rfl
@[simp] theorem State.setCruiser_sillages (c : ClusterId) (v : Cruiser) : (s.setCruiser c v).sillages = s.sillages := rfl
@[simp] theorem State.setCruiser_landings (c : ClusterId) (v : Cruiser) : (s.setCruiser c v).landings = s.landings := rfl
@[simp] theorem State.setCruiser_opts (c : ClusterId) (v : Cruiser) : (s.setCruiser c v).opts = s.opts := rfl
@[simp] theorem State.setCruiser_foe (c : ClusterId) (v : Cruiser) : (s.setCruiser c v).foe = s.foe := rfl
@[simp] theorem State.setCruiser_lko (c : ClusterId) (v : Cruiser) : (s.setCruiser c v).lko = s.lko := rfl
@[simp] theorem State.setCruiser_pwr (c : ClusterId) (v : Cruiser) : (s.setCruiser c v).pwr = s.pwr := rfl
@[simp] theorem State.setCruiser_snaps (c : ClusterId) (v : Cruiser) : (s.setCruiser c v).snaps = s.snaps := rfl
@[simp] theorem State.setCruiser_posted (c : ClusterId) (v : Cruiser) : (s.setCruiser c v).posted = s.posted := rfl
@[simp] theorem State.setCruiser_flash (c : ClusterId) (v : Cruiser) : (s.setCruiser c v).flash = s.flash := rfl

@[simp] theorem State.setSkidder_pending (c : ClusterId) (v : Skidder) : (s.setSkidder c v).pending = s.pending := rfl
@[simp] theorem State.setSkidder_clock (c : ClusterId) (v : Skidder) : (s.setSkidder c v).clock = s.clock := rfl
@[simp] theorem State.setSkidder_freeCount (c : ClusterId) (v : Skidder) : (s.setSkidder c v).freeCount = s.freeCount := rfl
@[simp] theorem State.setSkidder_out (c : ClusterId) (v : Skidder) : (s.setSkidder c v).out = s.out := rfl
@[simp] theorem State.setSkidder_beat (c : ClusterId) (v : Skidder) : (s.setSkidder c v).beat = s.beat := rfl
@[simp] theorem State.setSkidder_standbyOn (c : ClusterId) (v : Skidder) : (s.setSkidder c v).standbyOn = s.standbyOn := rfl
@[simp] theorem State.setSkidder_mainOn (c : ClusterId) (v : Skidder) : (s.setSkidder c v).mainOn = s.mainOn := rfl
@[simp] theorem State.setSkidder_mem (c : ClusterId) (v : Skidder) : (s.setSkidder c v).mem = s.mem := rfl
@[simp] theorem State.setSkidder_regs (c : ClusterId) (v : Skidder) : (s.setSkidder c v).regs = s.regs := rfl
@[simp] theorem State.setSkidder_cores (c : ClusterId) (v : Skidder) : (s.setSkidder c v).cores = s.cores := rfl
@[simp] theorem State.setSkidder_clusters (c : ClusterId) (v : Skidder) : (s.setSkidder c v).clusters = s.clusters := rfl
@[simp] theorem State.setSkidder_time (c : ClusterId) (v : Skidder) : (s.setSkidder c v).time = s.time := rfl
@[simp] theorem State.setSkidder_jobs (c : ClusterId) (v : Skidder) : (s.setSkidder c v).jobs = s.jobs := rfl
@[simp] theorem State.setSkidder_tally (c : ClusterId) (v : Skidder) : (s.setSkidder c v).tally = s.tally := rfl
@[simp] theorem State.setSkidder_blaze (c : ClusterId) (v : Skidder) : (s.setSkidder c v).blaze = s.blaze := rfl
@[simp] theorem State.setSkidder_fabrics (c : ClusterId) (v : Skidder) : (s.setSkidder c v).fabrics = s.fabrics := rfl
@[simp] theorem State.setSkidder_routes (c : ClusterId) (v : Skidder) : (s.setSkidder c v).routes = s.routes := rfl
@[simp] theorem State.setSkidder_ports (c : ClusterId) (v : Skidder) : (s.setSkidder c v).ports = s.ports := rfl
@[simp] theorem State.setSkidder_loopback (c : ClusterId) (v : Skidder) : (s.setSkidder c v).loopback = s.loopback := rfl
@[simp] theorem State.setSkidder_mailrooms (c : ClusterId) (v : Skidder) : (s.setSkidder c v).mailrooms = s.mailrooms := rfl
@[simp] theorem State.setSkidder_shape (c : ClusterId) (v : Skidder) : (s.setSkidder c v).shape = s.shape := rfl
@[simp] theorem State.setSkidder_cruisers (c : ClusterId) (v : Skidder) : (s.setSkidder c v).cruisers = s.cruisers := rfl
@[simp] theorem State.setSkidder_sillages (c : ClusterId) (v : Skidder) : (s.setSkidder c v).sillages = s.sillages := rfl
@[simp] theorem State.setSkidder_landings (c : ClusterId) (v : Skidder) : (s.setSkidder c v).landings = s.landings := rfl
@[simp] theorem State.setSkidder_opts (c : ClusterId) (v : Skidder) : (s.setSkidder c v).opts = s.opts := rfl
@[simp] theorem State.setSkidder_foe (c : ClusterId) (v : Skidder) : (s.setSkidder c v).foe = s.foe := rfl
@[simp] theorem State.setSkidder_lko (c : ClusterId) (v : Skidder) : (s.setSkidder c v).lko = s.lko := rfl
@[simp] theorem State.setSkidder_pwr (c : ClusterId) (v : Skidder) : (s.setSkidder c v).pwr = s.pwr := rfl
@[simp] theorem State.setSkidder_snaps (c : ClusterId) (v : Skidder) : (s.setSkidder c v).snaps = s.snaps := rfl
@[simp] theorem State.setSkidder_posted (c : ClusterId) (v : Skidder) : (s.setSkidder c v).posted = s.posted := rfl
@[simp] theorem State.setSkidder_flash (c : ClusterId) (v : Skidder) : (s.setSkidder c v).flash = s.flash := rfl

@[simp] theorem State.setSillage_pending (c : ClusterId) (v : Sillage) : (s.setSillage c v).pending = s.pending := rfl
@[simp] theorem State.setSillage_clock (c : ClusterId) (v : Sillage) : (s.setSillage c v).clock = s.clock := rfl
@[simp] theorem State.setSillage_freeCount (c : ClusterId) (v : Sillage) : (s.setSillage c v).freeCount = s.freeCount := rfl
@[simp] theorem State.setSillage_out (c : ClusterId) (v : Sillage) : (s.setSillage c v).out = s.out := rfl
@[simp] theorem State.setSillage_beat (c : ClusterId) (v : Sillage) : (s.setSillage c v).beat = s.beat := rfl
@[simp] theorem State.setSillage_standbyOn (c : ClusterId) (v : Sillage) : (s.setSillage c v).standbyOn = s.standbyOn := rfl
@[simp] theorem State.setSillage_mainOn (c : ClusterId) (v : Sillage) : (s.setSillage c v).mainOn = s.mainOn := rfl
@[simp] theorem State.setSillage_mem (c : ClusterId) (v : Sillage) : (s.setSillage c v).mem = s.mem := rfl
@[simp] theorem State.setSillage_regs (c : ClusterId) (v : Sillage) : (s.setSillage c v).regs = s.regs := rfl
@[simp] theorem State.setSillage_cores (c : ClusterId) (v : Sillage) : (s.setSillage c v).cores = s.cores := rfl
@[simp] theorem State.setSillage_clusters (c : ClusterId) (v : Sillage) : (s.setSillage c v).clusters = s.clusters := rfl
@[simp] theorem State.setSillage_time (c : ClusterId) (v : Sillage) : (s.setSillage c v).time = s.time := rfl
@[simp] theorem State.setSillage_jobs (c : ClusterId) (v : Sillage) : (s.setSillage c v).jobs = s.jobs := rfl
@[simp] theorem State.setSillage_tally (c : ClusterId) (v : Sillage) : (s.setSillage c v).tally = s.tally := rfl
@[simp] theorem State.setSillage_blaze (c : ClusterId) (v : Sillage) : (s.setSillage c v).blaze = s.blaze := rfl
@[simp] theorem State.setSillage_fabrics (c : ClusterId) (v : Sillage) : (s.setSillage c v).fabrics = s.fabrics := rfl
@[simp] theorem State.setSillage_routes (c : ClusterId) (v : Sillage) : (s.setSillage c v).routes = s.routes := rfl
@[simp] theorem State.setSillage_ports (c : ClusterId) (v : Sillage) : (s.setSillage c v).ports = s.ports := rfl
@[simp] theorem State.setSillage_loopback (c : ClusterId) (v : Sillage) : (s.setSillage c v).loopback = s.loopback := rfl
@[simp] theorem State.setSillage_mailrooms (c : ClusterId) (v : Sillage) : (s.setSillage c v).mailrooms = s.mailrooms := rfl
@[simp] theorem State.setSillage_shape (c : ClusterId) (v : Sillage) : (s.setSillage c v).shape = s.shape := rfl
@[simp] theorem State.setSillage_cruisers (c : ClusterId) (v : Sillage) : (s.setSillage c v).cruisers = s.cruisers := rfl
@[simp] theorem State.setSillage_skidders (c : ClusterId) (v : Sillage) : (s.setSillage c v).skidders = s.skidders := rfl
@[simp] theorem State.setSillage_landings (c : ClusterId) (v : Sillage) : (s.setSillage c v).landings = s.landings := rfl
@[simp] theorem State.setSillage_opts (c : ClusterId) (v : Sillage) : (s.setSillage c v).opts = s.opts := rfl
@[simp] theorem State.setSillage_foe (c : ClusterId) (v : Sillage) : (s.setSillage c v).foe = s.foe := rfl
@[simp] theorem State.setSillage_lko (c : ClusterId) (v : Sillage) : (s.setSillage c v).lko = s.lko := rfl
@[simp] theorem State.setSillage_pwr (c : ClusterId) (v : Sillage) : (s.setSillage c v).pwr = s.pwr := rfl
@[simp] theorem State.setSillage_snaps (c : ClusterId) (v : Sillage) : (s.setSillage c v).snaps = s.snaps := rfl
@[simp] theorem State.setSillage_posted (c : ClusterId) (v : Sillage) : (s.setSillage c v).posted = s.posted := rfl
@[simp] theorem State.setSillage_flash (c : ClusterId) (v : Sillage) : (s.setSillage c v).flash = s.flash := rfl

@[simp] theorem State.setLanding_pending (i : Fin 8) (v : Landing) : (s.setLanding i v).pending = s.pending := rfl
@[simp] theorem State.setLanding_clock (i : Fin 8) (v : Landing) : (s.setLanding i v).clock = s.clock := rfl
@[simp] theorem State.setLanding_freeCount (i : Fin 8) (v : Landing) : (s.setLanding i v).freeCount = s.freeCount := rfl
@[simp] theorem State.setLanding_out (i : Fin 8) (v : Landing) : (s.setLanding i v).out = s.out := rfl
@[simp] theorem State.setLanding_beat (i : Fin 8) (v : Landing) : (s.setLanding i v).beat = s.beat := rfl
@[simp] theorem State.setLanding_standbyOn (i : Fin 8) (v : Landing) : (s.setLanding i v).standbyOn = s.standbyOn := rfl
@[simp] theorem State.setLanding_mainOn (i : Fin 8) (v : Landing) : (s.setLanding i v).mainOn = s.mainOn := rfl
@[simp] theorem State.setLanding_mem (i : Fin 8) (v : Landing) : (s.setLanding i v).mem = s.mem := rfl
@[simp] theorem State.setLanding_regs (i : Fin 8) (v : Landing) : (s.setLanding i v).regs = s.regs := rfl
@[simp] theorem State.setLanding_cores (i : Fin 8) (v : Landing) : (s.setLanding i v).cores = s.cores := rfl
@[simp] theorem State.setLanding_clusters (i : Fin 8) (v : Landing) : (s.setLanding i v).clusters = s.clusters := rfl
@[simp] theorem State.setLanding_time (i : Fin 8) (v : Landing) : (s.setLanding i v).time = s.time := rfl
@[simp] theorem State.setLanding_jobs (i : Fin 8) (v : Landing) : (s.setLanding i v).jobs = s.jobs := rfl
@[simp] theorem State.setLanding_tally (i : Fin 8) (v : Landing) : (s.setLanding i v).tally = s.tally := rfl
@[simp] theorem State.setLanding_blaze (i : Fin 8) (v : Landing) : (s.setLanding i v).blaze = s.blaze := rfl
@[simp] theorem State.setLanding_fabrics (i : Fin 8) (v : Landing) : (s.setLanding i v).fabrics = s.fabrics := rfl
@[simp] theorem State.setLanding_routes (i : Fin 8) (v : Landing) : (s.setLanding i v).routes = s.routes := rfl
@[simp] theorem State.setLanding_ports (i : Fin 8) (v : Landing) : (s.setLanding i v).ports = s.ports := rfl
@[simp] theorem State.setLanding_loopback (i : Fin 8) (v : Landing) : (s.setLanding i v).loopback = s.loopback := rfl
@[simp] theorem State.setLanding_mailrooms (i : Fin 8) (v : Landing) : (s.setLanding i v).mailrooms = s.mailrooms := rfl
@[simp] theorem State.setLanding_shape (i : Fin 8) (v : Landing) : (s.setLanding i v).shape = s.shape := rfl
@[simp] theorem State.setLanding_cruisers (i : Fin 8) (v : Landing) : (s.setLanding i v).cruisers = s.cruisers := rfl
@[simp] theorem State.setLanding_skidders (i : Fin 8) (v : Landing) : (s.setLanding i v).skidders = s.skidders := rfl
@[simp] theorem State.setLanding_sillages (i : Fin 8) (v : Landing) : (s.setLanding i v).sillages = s.sillages := rfl
@[simp] theorem State.setLanding_opts (i : Fin 8) (v : Landing) : (s.setLanding i v).opts = s.opts := rfl
@[simp] theorem State.setLanding_foe (i : Fin 8) (v : Landing) : (s.setLanding i v).foe = s.foe := rfl
@[simp] theorem State.setLanding_lko (i : Fin 8) (v : Landing) : (s.setLanding i v).lko = s.lko := rfl
@[simp] theorem State.setLanding_pwr (i : Fin 8) (v : Landing) : (s.setLanding i v).pwr = s.pwr := rfl
@[simp] theorem State.setLanding_snaps (i : Fin 8) (v : Landing) : (s.setLanding i v).snaps = s.snaps := rfl
@[simp] theorem State.setLanding_posted (i : Fin 8) (v : Landing) : (s.setLanding i v).posted = s.posted := rfl
@[simp] theorem State.setLanding_flash (i : Fin 8) (v : Landing) : (s.setLanding i v).flash = s.flash := rfl

@[simp] theorem State.setOpt_pending (q : PortId) (v : OptPort) : (s.setOpt q v).pending = s.pending := rfl
@[simp] theorem State.setOpt_clock (q : PortId) (v : OptPort) : (s.setOpt q v).clock = s.clock := rfl
@[simp] theorem State.setOpt_freeCount (q : PortId) (v : OptPort) : (s.setOpt q v).freeCount = s.freeCount := rfl
@[simp] theorem State.setOpt_out (q : PortId) (v : OptPort) : (s.setOpt q v).out = s.out := rfl
@[simp] theorem State.setOpt_beat (q : PortId) (v : OptPort) : (s.setOpt q v).beat = s.beat := rfl
@[simp] theorem State.setOpt_standbyOn (q : PortId) (v : OptPort) : (s.setOpt q v).standbyOn = s.standbyOn := rfl
@[simp] theorem State.setOpt_mainOn (q : PortId) (v : OptPort) : (s.setOpt q v).mainOn = s.mainOn := rfl
@[simp] theorem State.setOpt_mem (q : PortId) (v : OptPort) : (s.setOpt q v).mem = s.mem := rfl
@[simp] theorem State.setOpt_regs (q : PortId) (v : OptPort) : (s.setOpt q v).regs = s.regs := rfl
@[simp] theorem State.setOpt_cores (q : PortId) (v : OptPort) : (s.setOpt q v).cores = s.cores := rfl
@[simp] theorem State.setOpt_clusters (q : PortId) (v : OptPort) : (s.setOpt q v).clusters = s.clusters := rfl
@[simp] theorem State.setOpt_time (q : PortId) (v : OptPort) : (s.setOpt q v).time = s.time := rfl
@[simp] theorem State.setOpt_jobs (q : PortId) (v : OptPort) : (s.setOpt q v).jobs = s.jobs := rfl
@[simp] theorem State.setOpt_tally (q : PortId) (v : OptPort) : (s.setOpt q v).tally = s.tally := rfl
@[simp] theorem State.setOpt_blaze (q : PortId) (v : OptPort) : (s.setOpt q v).blaze = s.blaze := rfl
@[simp] theorem State.setOpt_fabrics (q : PortId) (v : OptPort) : (s.setOpt q v).fabrics = s.fabrics := rfl
@[simp] theorem State.setOpt_routes (q : PortId) (v : OptPort) : (s.setOpt q v).routes = s.routes := rfl
@[simp] theorem State.setOpt_ports (q : PortId) (v : OptPort) : (s.setOpt q v).ports = s.ports := rfl
@[simp] theorem State.setOpt_loopback (q : PortId) (v : OptPort) : (s.setOpt q v).loopback = s.loopback := rfl
@[simp] theorem State.setOpt_mailrooms (q : PortId) (v : OptPort) : (s.setOpt q v).mailrooms = s.mailrooms := rfl
@[simp] theorem State.setOpt_shape (q : PortId) (v : OptPort) : (s.setOpt q v).shape = s.shape := rfl
@[simp] theorem State.setOpt_cruisers (q : PortId) (v : OptPort) : (s.setOpt q v).cruisers = s.cruisers := rfl
@[simp] theorem State.setOpt_skidders (q : PortId) (v : OptPort) : (s.setOpt q v).skidders = s.skidders := rfl
@[simp] theorem State.setOpt_sillages (q : PortId) (v : OptPort) : (s.setOpt q v).sillages = s.sillages := rfl
@[simp] theorem State.setOpt_landings (q : PortId) (v : OptPort) : (s.setOpt q v).landings = s.landings := rfl
@[simp] theorem State.setOpt_foe (q : PortId) (v : OptPort) : (s.setOpt q v).foe = s.foe := rfl
@[simp] theorem State.setOpt_lko (q : PortId) (v : OptPort) : (s.setOpt q v).lko = s.lko := rfl
@[simp] theorem State.setOpt_pwr (q : PortId) (v : OptPort) : (s.setOpt q v).pwr = s.pwr := rfl
@[simp] theorem State.setOpt_snaps (q : PortId) (v : OptPort) : (s.setOpt q v).snaps = s.snaps := rfl
@[simp] theorem State.setOpt_posted (q : PortId) (v : OptPort) : (s.setOpt q v).posted = s.posted := rfl
@[simp] theorem State.setOpt_flash (q : PortId) (v : OptPort) : (s.setOpt q v).flash = s.flash := rfl

@[simp] theorem State.setPending_pending (b : Blk) (v : Option (Nat × Nat)) : (s.setPending b v).pending = s.pending := rfl
@[simp] theorem State.setPending_clock (b : Blk) (v : Option (Nat × Nat)) : (s.setPending b v).clock = s.clock := rfl
@[simp] theorem State.setPending_freeCount (b : Blk) (v : Option (Nat × Nat)) : (s.setPending b v).freeCount = s.freeCount := rfl
@[simp] theorem State.setPending_out (b : Blk) (v : Option (Nat × Nat)) : (s.setPending b v).out = s.out := rfl
@[simp] theorem State.setPending_beat (b : Blk) (v : Option (Nat × Nat)) : (s.setPending b v).beat = s.beat := rfl
@[simp] theorem State.setPending_standbyOn (b : Blk) (v : Option (Nat × Nat)) : (s.setPending b v).standbyOn = s.standbyOn := rfl
@[simp] theorem State.setPending_mainOn (b : Blk) (v : Option (Nat × Nat)) : (s.setPending b v).mainOn = s.mainOn := rfl
@[simp] theorem State.setPending_mem (b : Blk) (v : Option (Nat × Nat)) : (s.setPending b v).mem = s.mem := rfl
@[simp] theorem State.setPending_regs (b : Blk) (v : Option (Nat × Nat)) : (s.setPending b v).regs = s.regs := rfl
@[simp] theorem State.setPending_cores (b : Blk) (v : Option (Nat × Nat)) : (s.setPending b v).cores = s.cores := rfl
@[simp] theorem State.setPending_clusters (b : Blk) (v : Option (Nat × Nat)) : (s.setPending b v).clusters = s.clusters := rfl
@[simp] theorem State.setPending_time (b : Blk) (v : Option (Nat × Nat)) : (s.setPending b v).time = s.time := rfl
@[simp] theorem State.setPending_jobs (b : Blk) (v : Option (Nat × Nat)) : (s.setPending b v).jobs = s.jobs := rfl
@[simp] theorem State.setPending_tally (b : Blk) (v : Option (Nat × Nat)) : (s.setPending b v).tally = s.tally := rfl
@[simp] theorem State.setPending_blaze (b : Blk) (v : Option (Nat × Nat)) : (s.setPending b v).blaze = s.blaze := rfl
@[simp] theorem State.setPending_fabrics (b : Blk) (v : Option (Nat × Nat)) : (s.setPending b v).fabrics = s.fabrics := rfl
@[simp] theorem State.setPending_routes (b : Blk) (v : Option (Nat × Nat)) : (s.setPending b v).routes = s.routes := rfl
@[simp] theorem State.setPending_ports (b : Blk) (v : Option (Nat × Nat)) : (s.setPending b v).ports = s.ports := rfl
@[simp] theorem State.setPending_loopback (b : Blk) (v : Option (Nat × Nat)) : (s.setPending b v).loopback = s.loopback := rfl
@[simp] theorem State.setPending_mailrooms (b : Blk) (v : Option (Nat × Nat)) : (s.setPending b v).mailrooms = s.mailrooms := rfl
@[simp] theorem State.setPending_shape (b : Blk) (v : Option (Nat × Nat)) : (s.setPending b v).shape = s.shape := rfl
@[simp] theorem State.setPending_cruisers (b : Blk) (v : Option (Nat × Nat)) : (s.setPending b v).cruisers = s.cruisers := rfl
@[simp] theorem State.setPending_skidders (b : Blk) (v : Option (Nat × Nat)) : (s.setPending b v).skidders = s.skidders := rfl
@[simp] theorem State.setPending_sillages (b : Blk) (v : Option (Nat × Nat)) : (s.setPending b v).sillages = s.sillages := rfl
@[simp] theorem State.setPending_landings (b : Blk) (v : Option (Nat × Nat)) : (s.setPending b v).landings = s.landings := rfl
@[simp] theorem State.setPending_opts (b : Blk) (v : Option (Nat × Nat)) : (s.setPending b v).opts = s.opts := rfl
@[simp] theorem State.setPending_foe (b : Blk) (v : Option (Nat × Nat)) : (s.setPending b v).foe = s.foe := rfl
@[simp] theorem State.setPending_lko (b : Blk) (v : Option (Nat × Nat)) : (s.setPending b v).lko = s.lko := rfl
@[simp] theorem State.setPending_pwr (b : Blk) (v : Option (Nat × Nat)) : (s.setPending b v).pwr = s.pwr := rfl
@[simp] theorem State.setPending_snaps (b : Blk) (v : Option (Nat × Nat)) : (s.setPending b v).snaps = s.snaps := rfl
@[simp] theorem State.setPending_flash (b : Blk) (v : Option (Nat × Nat)) : (s.setPending b v).flash = s.flash := rfl

@[simp] theorem State.setGrant_pending (g : Nat) (v : Option Grant) : (s.setGrant g v).pending = s.pending := rfl
@[simp] theorem State.setGrant_clock (g : Nat) (v : Option Grant) : (s.setGrant g v).clock = s.clock := rfl
@[simp] theorem State.setGrant_freeCount (g : Nat) (v : Option Grant) : (s.setGrant g v).freeCount = s.freeCount := rfl
@[simp] theorem State.setGrant_out (g : Nat) (v : Option Grant) : (s.setGrant g v).out = s.out := rfl
@[simp] theorem State.setGrant_beat (g : Nat) (v : Option Grant) : (s.setGrant g v).beat = s.beat := rfl
@[simp] theorem State.setGrant_standbyOn (g : Nat) (v : Option Grant) : (s.setGrant g v).standbyOn = s.standbyOn := rfl
@[simp] theorem State.setGrant_mainOn (g : Nat) (v : Option Grant) : (s.setGrant g v).mainOn = s.mainOn := rfl
@[simp] theorem State.setGrant_mem (g : Nat) (v : Option Grant) : (s.setGrant g v).mem = s.mem := rfl
@[simp] theorem State.setGrant_regs (g : Nat) (v : Option Grant) : (s.setGrant g v).regs = s.regs := rfl
@[simp] theorem State.setGrant_cores (g : Nat) (v : Option Grant) : (s.setGrant g v).cores = s.cores := rfl
@[simp] theorem State.setGrant_clusters (g : Nat) (v : Option Grant) : (s.setGrant g v).clusters = s.clusters := rfl
@[simp] theorem State.setGrant_time (g : Nat) (v : Option Grant) : (s.setGrant g v).time = s.time := rfl
@[simp] theorem State.setGrant_jobs (g : Nat) (v : Option Grant) : (s.setGrant g v).jobs = s.jobs := rfl
@[simp] theorem State.setGrant_tally (g : Nat) (v : Option Grant) : (s.setGrant g v).tally = s.tally := rfl
@[simp] theorem State.setGrant_blaze (g : Nat) (v : Option Grant) : (s.setGrant g v).blaze = s.blaze := rfl
@[simp] theorem State.setGrant_fabrics (g : Nat) (v : Option Grant) : (s.setGrant g v).fabrics = s.fabrics := rfl
@[simp] theorem State.setGrant_routes (g : Nat) (v : Option Grant) : (s.setGrant g v).routes = s.routes := rfl
@[simp] theorem State.setGrant_ports (g : Nat) (v : Option Grant) : (s.setGrant g v).ports = s.ports := rfl
@[simp] theorem State.setGrant_loopback (g : Nat) (v : Option Grant) : (s.setGrant g v).loopback = s.loopback := rfl
@[simp] theorem State.setGrant_mailrooms (g : Nat) (v : Option Grant) : (s.setGrant g v).mailrooms = s.mailrooms := rfl
@[simp] theorem State.setGrant_shape (g : Nat) (v : Option Grant) : (s.setGrant g v).shape = s.shape := rfl
@[simp] theorem State.setGrant_cruisers (g : Nat) (v : Option Grant) : (s.setGrant g v).cruisers = s.cruisers := rfl
@[simp] theorem State.setGrant_skidders (g : Nat) (v : Option Grant) : (s.setGrant g v).skidders = s.skidders := rfl
@[simp] theorem State.setGrant_sillages (g : Nat) (v : Option Grant) : (s.setGrant g v).sillages = s.sillages := rfl
@[simp] theorem State.setGrant_landings (g : Nat) (v : Option Grant) : (s.setGrant g v).landings = s.landings := rfl
@[simp] theorem State.setGrant_opts (g : Nat) (v : Option Grant) : (s.setGrant g v).opts = s.opts := rfl
@[simp] theorem State.setGrant_lko (g : Nat) (v : Option Grant) : (s.setGrant g v).lko = s.lko := rfl
@[simp] theorem State.setGrant_pwr (g : Nat) (v : Option Grant) : (s.setGrant g v).pwr = s.pwr := rfl
@[simp] theorem State.setGrant_snaps (g : Nat) (v : Option Grant) : (s.setGrant g v).snaps = s.snaps := rfl
@[simp] theorem State.setGrant_posted (g : Nat) (v : Option Grant) : (s.setGrant g v).posted = s.posted := rfl
@[simp] theorem State.setGrant_flash (g : Nat) (v : Option Grant) : (s.setGrant g v).flash = s.flash := rfl

@[simp] theorem State.setBox_pending (n : Nat) (v : Mailbox) : (s.setBox n v).pending = s.pending := rfl
@[simp] theorem State.setBox_clock (n : Nat) (v : Mailbox) : (s.setBox n v).clock = s.clock := rfl
@[simp] theorem State.setBox_freeCount (n : Nat) (v : Mailbox) : (s.setBox n v).freeCount = s.freeCount := rfl
@[simp] theorem State.setBox_out (n : Nat) (v : Mailbox) : (s.setBox n v).out = s.out := rfl
@[simp] theorem State.setBox_beat (n : Nat) (v : Mailbox) : (s.setBox n v).beat = s.beat := rfl
@[simp] theorem State.setBox_standbyOn (n : Nat) (v : Mailbox) : (s.setBox n v).standbyOn = s.standbyOn := rfl
@[simp] theorem State.setBox_mainOn (n : Nat) (v : Mailbox) : (s.setBox n v).mainOn = s.mainOn := rfl
@[simp] theorem State.setBox_mem (n : Nat) (v : Mailbox) : (s.setBox n v).mem = s.mem := rfl
@[simp] theorem State.setBox_regs (n : Nat) (v : Mailbox) : (s.setBox n v).regs = s.regs := rfl
@[simp] theorem State.setBox_cores (n : Nat) (v : Mailbox) : (s.setBox n v).cores = s.cores := rfl
@[simp] theorem State.setBox_clusters (n : Nat) (v : Mailbox) : (s.setBox n v).clusters = s.clusters := rfl
@[simp] theorem State.setBox_time (n : Nat) (v : Mailbox) : (s.setBox n v).time = s.time := rfl
@[simp] theorem State.setBox_jobs (n : Nat) (v : Mailbox) : (s.setBox n v).jobs = s.jobs := rfl
@[simp] theorem State.setBox_tally (n : Nat) (v : Mailbox) : (s.setBox n v).tally = s.tally := rfl
@[simp] theorem State.setBox_blaze (n : Nat) (v : Mailbox) : (s.setBox n v).blaze = s.blaze := rfl
@[simp] theorem State.setBox_fabrics (n : Nat) (v : Mailbox) : (s.setBox n v).fabrics = s.fabrics := rfl
@[simp] theorem State.setBox_routes (n : Nat) (v : Mailbox) : (s.setBox n v).routes = s.routes := rfl
@[simp] theorem State.setBox_ports (n : Nat) (v : Mailbox) : (s.setBox n v).ports = s.ports := rfl
@[simp] theorem State.setBox_loopback (n : Nat) (v : Mailbox) : (s.setBox n v).loopback = s.loopback := rfl
@[simp] theorem State.setBox_mailrooms (n : Nat) (v : Mailbox) : (s.setBox n v).mailrooms = s.mailrooms := rfl
@[simp] theorem State.setBox_shape (n : Nat) (v : Mailbox) : (s.setBox n v).shape = s.shape := rfl
@[simp] theorem State.setBox_cruisers (n : Nat) (v : Mailbox) : (s.setBox n v).cruisers = s.cruisers := rfl
@[simp] theorem State.setBox_skidders (n : Nat) (v : Mailbox) : (s.setBox n v).skidders = s.skidders := rfl
@[simp] theorem State.setBox_sillages (n : Nat) (v : Mailbox) : (s.setBox n v).sillages = s.sillages := rfl
@[simp] theorem State.setBox_landings (n : Nat) (v : Mailbox) : (s.setBox n v).landings = s.landings := rfl
@[simp] theorem State.setBox_opts (n : Nat) (v : Mailbox) : (s.setBox n v).opts = s.opts := rfl
@[simp] theorem State.setBox_lko (n : Nat) (v : Mailbox) : (s.setBox n v).lko = s.lko := rfl
@[simp] theorem State.setBox_pwr (n : Nat) (v : Mailbox) : (s.setBox n v).pwr = s.pwr := rfl
@[simp] theorem State.setBox_snaps (n : Nat) (v : Mailbox) : (s.setBox n v).snaps = s.snaps := rfl
@[simp] theorem State.setBox_posted (n : Nat) (v : Mailbox) : (s.setBox n v).posted = s.posted := rfl
@[simp] theorem State.setBox_flash (n : Nat) (v : Mailbox) : (s.setBox n v).flash = s.flash := rfl

@[simp] theorem State.emit_pending (m : OutMsg) : (s.emit m).pending = s.pending := rfl
@[simp] theorem State.emit_clock (m : OutMsg) : (s.emit m).clock = s.clock := rfl
@[simp] theorem State.emit_freeCount (m : OutMsg) : (s.emit m).freeCount = s.freeCount := rfl
@[simp] theorem State.emit_beat (m : OutMsg) : (s.emit m).beat = s.beat := rfl
@[simp] theorem State.emit_standbyOn (m : OutMsg) : (s.emit m).standbyOn = s.standbyOn := rfl
@[simp] theorem State.emit_mainOn (m : OutMsg) : (s.emit m).mainOn = s.mainOn := rfl
@[simp] theorem State.emit_mem (m : OutMsg) : (s.emit m).mem = s.mem := rfl
@[simp] theorem State.emit_regs (m : OutMsg) : (s.emit m).regs = s.regs := rfl
@[simp] theorem State.emit_cores (m : OutMsg) : (s.emit m).cores = s.cores := rfl
@[simp] theorem State.emit_clusters (m : OutMsg) : (s.emit m).clusters = s.clusters := rfl
@[simp] theorem State.emit_time (m : OutMsg) : (s.emit m).time = s.time := rfl
@[simp] theorem State.emit_jobs (m : OutMsg) : (s.emit m).jobs = s.jobs := rfl
@[simp] theorem State.emit_tally (m : OutMsg) : (s.emit m).tally = s.tally := rfl
@[simp] theorem State.emit_blaze (m : OutMsg) : (s.emit m).blaze = s.blaze := rfl
@[simp] theorem State.emit_fabrics (m : OutMsg) : (s.emit m).fabrics = s.fabrics := rfl
@[simp] theorem State.emit_routes (m : OutMsg) : (s.emit m).routes = s.routes := rfl
@[simp] theorem State.emit_ports (m : OutMsg) : (s.emit m).ports = s.ports := rfl
@[simp] theorem State.emit_loopback (m : OutMsg) : (s.emit m).loopback = s.loopback := rfl
@[simp] theorem State.emit_mailrooms (m : OutMsg) : (s.emit m).mailrooms = s.mailrooms := rfl
@[simp] theorem State.emit_shape (m : OutMsg) : (s.emit m).shape = s.shape := rfl
@[simp] theorem State.emit_cruisers (m : OutMsg) : (s.emit m).cruisers = s.cruisers := rfl
@[simp] theorem State.emit_skidders (m : OutMsg) : (s.emit m).skidders = s.skidders := rfl
@[simp] theorem State.emit_sillages (m : OutMsg) : (s.emit m).sillages = s.sillages := rfl
@[simp] theorem State.emit_landings (m : OutMsg) : (s.emit m).landings = s.landings := rfl
@[simp] theorem State.emit_opts (m : OutMsg) : (s.emit m).opts = s.opts := rfl
@[simp] theorem State.emit_foe (m : OutMsg) : (s.emit m).foe = s.foe := rfl
@[simp] theorem State.emit_lko (m : OutMsg) : (s.emit m).lko = s.lko := rfl
@[simp] theorem State.emit_pwr (m : OutMsg) : (s.emit m).pwr = s.pwr := rfl
@[simp] theorem State.emit_snaps (m : OutMsg) : (s.emit m).snaps = s.snaps := rfl
@[simp] theorem State.emit_posted (m : OutMsg) : (s.emit m).posted = s.posted := rfl
@[simp] theorem State.emit_flash (m : OutMsg) : (s.emit m).flash = s.flash := rfl

@[simp] theorem State.useFree_pending : (s.useFree).pending = s.pending := rfl
@[simp] theorem State.useFree_clock : (s.useFree).clock = s.clock := rfl
@[simp] theorem State.useFree_out : (s.useFree).out = s.out := rfl
@[simp] theorem State.useFree_beat : (s.useFree).beat = s.beat := rfl
@[simp] theorem State.useFree_standbyOn : (s.useFree).standbyOn = s.standbyOn := rfl
@[simp] theorem State.useFree_mainOn : (s.useFree).mainOn = s.mainOn := rfl
@[simp] theorem State.useFree_mem : (s.useFree).mem = s.mem := rfl
@[simp] theorem State.useFree_regs : (s.useFree).regs = s.regs := rfl
@[simp] theorem State.useFree_cores : (s.useFree).cores = s.cores := rfl
@[simp] theorem State.useFree_clusters : (s.useFree).clusters = s.clusters := rfl
@[simp] theorem State.useFree_time : (s.useFree).time = s.time := rfl
@[simp] theorem State.useFree_jobs : (s.useFree).jobs = s.jobs := rfl
@[simp] theorem State.useFree_tally : (s.useFree).tally = s.tally := rfl
@[simp] theorem State.useFree_blaze : (s.useFree).blaze = s.blaze := rfl
@[simp] theorem State.useFree_fabrics : (s.useFree).fabrics = s.fabrics := rfl
@[simp] theorem State.useFree_routes : (s.useFree).routes = s.routes := rfl
@[simp] theorem State.useFree_ports : (s.useFree).ports = s.ports := rfl
@[simp] theorem State.useFree_loopback : (s.useFree).loopback = s.loopback := rfl
@[simp] theorem State.useFree_mailrooms : (s.useFree).mailrooms = s.mailrooms := rfl
@[simp] theorem State.useFree_shape : (s.useFree).shape = s.shape := rfl
@[simp] theorem State.useFree_cruisers : (s.useFree).cruisers = s.cruisers := rfl
@[simp] theorem State.useFree_skidders : (s.useFree).skidders = s.skidders := rfl
@[simp] theorem State.useFree_sillages : (s.useFree).sillages = s.sillages := rfl
@[simp] theorem State.useFree_landings : (s.useFree).landings = s.landings := rfl
@[simp] theorem State.useFree_opts : (s.useFree).opts = s.opts := rfl
@[simp] theorem State.useFree_foe : (s.useFree).foe = s.foe := rfl
@[simp] theorem State.useFree_lko : (s.useFree).lko = s.lko := rfl
@[simp] theorem State.useFree_pwr : (s.useFree).pwr = s.pwr := rfl
@[simp] theorem State.useFree_snaps : (s.useFree).snaps = s.snaps := rfl
@[simp] theorem State.useFree_posted : (s.useFree).posted = s.posted := rfl
@[simp] theorem State.useFree_flash : (s.useFree).flash = s.flash := rfl

/-! ## Readers after their own update -/

@[simp] theorem State.mem_writeBytes (a : Nat) (l : List Byte) : (s.writeBytes a l).mem = ssetMany memDefault s.mem a l := rfl
@[simp] theorem State.out_emit (m : OutMsg) : (s.emit m).out = s.out ++ [m] := rfl
@[simp] theorem State.freeCount_useFree : s.useFree.freeCount = s.freeCount + 1 := rfl

theorem coreIdx_inj {k j : CoreId} (h : coreIdx k = coreIdx j) : k = j := by
  obtain ⟨⟨t, ht⟩, ⟨i, hi⟩, ⟨c, hc⟩⟩ := k
  obtain ⟨⟨t', ht'⟩, ⟨i', hi'⟩, ⟨c', hc'⟩⟩ := j
  simp only [coreIdx] at h
  simp only [CoreId.mk.injEq, Fin.mk.injEq]
  omega

theorem clusterIdx_inj {c d : ClusterId} (h : clusterIdx c = clusterIdx d) : c = d := by
  obtain ⟨⟨t, ht⟩, ⟨i, hi⟩⟩ := c
  obtain ⟨⟨t', ht'⟩, ⟨i', hi'⟩⟩ := d
  simp only [clusterIdx] at h
  simp only [ClusterId.mk.injEq, Fin.mk.injEq]
  omega

theorem portIdx_inj {p q : PortId} (h : portIdx p = portIdx q) : p = q := by
  obtain ⟨⟨t, ht⟩, ⟨i, hi⟩⟩ := p
  obtain ⟨⟨t', ht'⟩, ⟨i', hi'⟩⟩ := q
  simp only [portIdx] at h
  simp only [PortId.mk.injEq, Fin.mk.injEq]
  omega

@[simp] theorem State.core_setCore (k : CoreId) (v : Core) : (s.setCore k v).core k = v := sget_sset_same ..
theorem State.core_setCore_other {k j : CoreId} (v : Core) (h : j ≠ k) : (s.setCore k v).core j = s.core j :=
  sget_sset_other _ _ _ fun e => h (coreIdx_inj e)
@[simp] theorem State.cluster_setCluster (c : ClusterId) (v : Cluster) : (s.setCluster c v).cluster c = v := sget_sset_same ..
theorem State.cluster_setCluster_other {c d : ClusterId} (v : Cluster) (h : d ≠ c) : (s.setCluster c v).cluster d = s.cluster d :=
  sget_sset_other _ _ _ fun e => h (clusterIdx_inj e)
@[simp] theorem State.job_setJob (j : Nat) (v : JobSlot) : (s.setJob j v).job j = v := sget_sset_same ..
theorem State.job_setJob_other {i j : Nat} (v : JobSlot) (h : i ≠ j) : (s.setJob j v).job i = s.job i := sget_sset_other _ _ _ h
@[simp] theorem State.fabric_setFabric (i : Fin 8) (v : Fabric) : (s.setFabric i v).fabric i = v := sget_sset_same ..
theorem State.fabric_setFabric_other {i j : Fin 8} (v : Fabric) (h : j ≠ i) : (s.setFabric i v).fabric j = s.fabric j :=
  sget_sset_other _ _ _ fun e => h (Fin.ext e)
@[simp] theorem State.landing_setLanding (i : Fin 8) (v : Landing) : (s.setLanding i v).landing i = v := sget_sset_same ..
theorem State.landing_setLanding_other {i j : Fin 8} (v : Landing) (h : j ≠ i) : (s.setLanding i v).landing j = s.landing j :=
  sget_sset_other _ _ _ fun e => h (Fin.ext e)
@[simp] theorem State.mailroom_setMailroom (c : ClusterId) (v : Mailroom) : (s.setMailroom c v).mailroom c = v := sget_sset_same ..
@[simp] theorem State.cruiser_setCruiser (c : ClusterId) (v : Cruiser) : (s.setCruiser c v).cruiser c = v := sget_sset_same ..
@[simp] theorem State.skidder_setSkidder (c : ClusterId) (v : Skidder) : (s.setSkidder c v).skidder c = v := sget_sset_same ..
@[simp] theorem State.sillage_setSillage (c : ClusterId) (v : Sillage) : (s.setSillage c v).sillage c = v := sget_sset_same ..
@[simp] theorem State.opt_setOpt (q : PortId) (v : OptPort) : (s.setOpt q v).opt q = v := sget_sset_same ..
theorem State.opt_setOpt_other {p q : PortId} (v : OptPort) (h : p ≠ q) : (s.setOpt q v).opt p = s.opt p :=
  sget_sset_other _ _ _ fun e => h (portIdx_inj e)
@[simp] theorem State.grant_setGrant (g : Nat) (v : Option Grant) : (s.setGrant g v).grant g = v := sget_sset_same ..
@[simp] theorem State.box_setBox (n : Nat) (v : Mailbox) : (s.setBox n v).box n = v := sget_sset_same ..

/-! ## Readers that look at one field -/

theorem State.core_congr {s t : State} (h : t.cores = s.cores) (k : CoreId) : t.core k = s.core k := by simp [State.core, h]
theorem State.reg_congr {s t : State} (h : t.regs = s.regs) (b : Blk) (o : Nat) : t.reg b o = s.reg b o := by simp [State.reg, h]
theorem State.readBytes_congr {s t : State} (h : t.mem = s.mem) (a n : Nat) : t.readBytes a n = s.readBytes a n := by
  simp [State.readBytes, h]

@[simp] theorem State.core_setReg (b : Blk) (o v : Nat) (k : CoreId) : (s.setReg b o v).core k = s.core k := rfl
@[simp] theorem State.core_writeBytes (a : Nat) (l : List Byte) (k : CoreId) : (s.writeBytes a l).core k = s.core k := rfl
@[simp] theorem State.cluster_setReg (b : Blk) (o v : Nat) (c : ClusterId) : (s.setReg b o v).cluster c = s.cluster c := rfl
@[simp] theorem State.job_setReg (b : Blk) (o v j : Nat) : (s.setReg b o v).job j = s.job j := rfl
@[simp] theorem State.fabric_setReg (b : Blk) (o v : Nat) (i : Fin 8) : (s.setReg b o v).fabric i = s.fabric i := rfl
@[simp] theorem State.landing_setReg (b : Blk) (o v : Nat) (i : Fin 8) : (s.setReg b o v).landing i = s.landing i := rfl
@[simp] theorem State.cruiser_setReg (b : Blk) (o v : Nat) (c : ClusterId) : (s.setReg b o v).cruiser c = s.cruiser c := rfl
@[simp] theorem State.skidder_setReg (b : Blk) (o v : Nat) (c : ClusterId) : (s.setReg b o v).skidder c = s.skidder c := rfl
@[simp] theorem State.sillage_setReg (b : Blk) (o v : Nat) (c : ClusterId) : (s.setReg b o v).sillage c = s.sillage c := rfl
@[simp] theorem State.mailroom_setReg (b : Blk) (o v : Nat) (c : ClusterId) : (s.setReg b o v).mailroom c = s.mailroom c := rfl
@[simp] theorem State.opt_setReg (b : Blk) (o v : Nat) (q : PortId) : (s.setReg b o v).opt q = s.opt q := rfl
@[simp] theorem State.box_setReg (b : Blk) (o v n : Nat) : (s.setReg b o v).box n = s.box n := rfl
@[simp] theorem State.readByte_setReg (b : Blk) (o v a : Nat) : (s.setReg b o v).readByte a = s.readByte a := rfl
@[simp] theorem State.readBytes_setReg (b : Blk) (o v a n : Nat) : (s.setReg b o v).readBytes a n = s.readBytes a n := rfl
@[simp] theorem State.rd_setReg (b : Blk) (o v a n : Nat) : (s.setReg b o v).rd a n = s.rd a n := rfl
@[simp] theorem State.reg_setCore (k : CoreId) (v : Core) (b : Blk) (o : Nat) : (s.setCore k v).reg b o = s.reg b o := rfl
@[simp] theorem State.reg_setCluster (c : ClusterId) (v : Cluster) (b : Blk) (o : Nat) : (s.setCluster c v).reg b o = s.reg b o := rfl
@[simp] theorem State.reg_writeBytes (a : Nat) (l : List Byte) (b : Blk) (o : Nat) : (s.writeBytes a l).reg b o = s.reg b o := rfl
@[simp] theorem State.readByte_setCore (k : CoreId) (v : Core) (a : Nat) : (s.setCore k v).readByte a = s.readByte a := rfl
@[simp] theorem State.readBytes_setCore (k : CoreId) (v : Core) (a n : Nat) : (s.setCore k v).readBytes a n = s.readBytes a n := rfl

/-! ## Registers -/

@[simp] theorem State.reg_setReg (b : Blk) (o v : Nat) : (s.setReg b o v).reg b o = v % 2 ^ 32 := by
  simp [State.reg, State.setReg]

theorem State.regs_setReg_other {b : Blk} {o a : Nat} (v : Nat) (h : a ≠ b.base + o) :
    sget resetAt (s.setReg b o v).regs a = sget resetAt s.regs a := sget_sset_other _ _ _ h

theorem State.reg_setReg_other {b c : Blk} {o p : Nat} (v : Nat) (h : c.base + p ≠ b.base + o) :
    (s.setReg b o v).reg c p = s.reg c p := by
  simp only [State.reg, State.regs_setReg_other s v h]

/-- Two registers of one block. -/
theorem State.reg_setReg_off {b : Blk} {o p : Nat} (v : Nat) (h : p ≠ o) : (s.setReg b o v).reg b p = s.reg b p :=
  s.reg_setReg_other v (by omega)

theorem State.reg_lt (b : Blk) (o : Nat) : s.reg b o < 2 ^ 32 := by
  unfold State.reg
  exact (sget resetAt s.regs (b.base + o)).isLt

/-! ## Bit fields -/

theorem bits_lt (v lo len : Nat) : bits v lo len < 2 ^ len := Nat.mod_lt _ (Nat.two_pow_pos len)

/-- A replaced field's word, as the part above, the field and the part below. -/
theorem setBits_eq (v lo len x : Nat) : setBits v lo len x = v / 2 ^ (lo + len) * 2 ^ (lo + len) + x % 2 ^ len * 2 ^ lo + v % 2 ^ lo := by
  unfold setBits bits
  have h1 := Nat.div_add_mod v (2 ^ lo)
  have h2 := Nat.div_add_mod (v / 2 ^ lo) (2 ^ len)
  rw [Nat.div_div_eq_div_mul, ← Nat.pow_add] at h2
  generalize v / 2 ^ lo % 2 ^ len = m at *
  have h3 : v = 2 ^ lo * (2 ^ len * (v / 2 ^ (lo + len)) + m) + v % 2 ^ lo := by rw [h2, h1]
  have h4 : v / 2 ^ (lo + len) * 2 ^ (lo + len) = 2 ^ lo * (2 ^ len * (v / 2 ^ (lo + len))) := by
    rw [Nat.pow_add]
    grind
  have h5 : m * 2 ^ lo = 2 ^ lo * m := Nat.mul_comm ..
  rw [Nat.mul_add] at h3
  omega

@[simp] theorem bits_setBits (v lo len x : Nat) : bits (setBits v lo len x) lo len = x % 2 ^ len := by
  rw [setBits_eq]
  unfold bits
  have h1 : v / 2 ^ (lo + len) * 2 ^ (lo + len) + x % 2 ^ len * 2 ^ lo + v % 2 ^ lo =
      v % 2 ^ lo + 2 ^ lo * (x % 2 ^ len + 2 ^ len * (v / 2 ^ (lo + len))) := by
    rw [Nat.pow_add]
    grind
  rw [h1, Nat.add_mul_div_left _ _ (Nat.two_pow_pos lo), Nat.div_eq_of_lt (Nat.mod_lt _ (Nat.two_pow_pos lo)), Nat.zero_add,
    Nat.add_mul_mod_self_left, Nat.mod_mod]

/-- A field above the one replaced. -/
theorem bits_setBits_above {v lo len x l n : Nat} (h : lo + len ≤ l) : bits (setBits v lo len x) l n = bits v l n := by
  rw [setBits_eq]
  unfold bits
  obtain ⟨d, rfl⟩ := Nat.exists_eq_add_of_le h
  rw [Nat.pow_add 2 (lo + len) d, ← Nat.div_div_eq_div_mul, ← Nat.div_div_eq_div_mul]
  congr 2
  have h1 : x % 2 ^ len * 2 ^ lo + v % 2 ^ lo < 2 ^ (lo + len) := by
    have ha := Nat.mod_lt x (Nat.two_pow_pos len)
    have hb := Nat.mod_lt v (Nat.two_pow_pos lo)
    have hc : (x % 2 ^ len + 1) * 2 ^ lo ≤ 2 ^ len * 2 ^ lo := Nat.mul_le_mul_right _ ha
    rw [Nat.pow_add, Nat.mul_comm (2 ^ lo)]
    rw [Nat.add_mul, Nat.one_mul] at hc
    omega
  rw [Nat.add_assoc, Nat.add_comm, Nat.add_mul_div_right _ _ (Nat.two_pow_pos _), Nat.div_eq_of_lt h1, Nat.zero_add]

/-- A field below the one replaced. -/
theorem bits_setBits_below {v lo len x l n : Nat} (h : l + n ≤ lo) : bits (setBits v lo len x) l n = bits v l n := by
  rw [setBits_eq]
  unfold bits
  obtain ⟨d, rfl⟩ := Nat.exists_eq_add_of_le h
  have key (u : Nat) : u / 2 ^ l % 2 ^ n = u % 2 ^ (l + n) / 2 ^ l := by
    rw [Nat.pow_add, Nat.mod_mul_right_div_self]
  rw [key, key]
  congr 1
  have h1 : v / 2 ^ (l + n + d + len) * 2 ^ (l + n + d + len) + x % 2 ^ len * 2 ^ (l + n + d) + v % 2 ^ (l + n + d) =
      v % 2 ^ (l + n + d) + 2 ^ (l + n) * (2 ^ d * (x % 2 ^ len) + 2 ^ d * 2 ^ len * (v / 2 ^ (l + n + d + len))) := by
    rw [Nat.pow_add 2 (l + n + d) len, Nat.pow_add 2 (l + n) d]
    grind
  rw [h1, Nat.add_mul_mod_self_left, Nat.pow_add 2 (l + n) d, Nat.mod_mul_right_mod]

theorem bits_mod_two_pow {v lo len w : Nat} (h : lo + len ≤ w) : bits (v % 2 ^ w) lo len = bits v lo len := by
  unfold bits
  obtain ⟨d, rfl⟩ := Nat.exists_eq_add_of_le h
  rw [Nat.add_assoc, Nat.pow_add, Nat.mod_mul_right_div_self, Nat.pow_add, Nat.mod_mul_right_mod]

theorem bit_eq_bits (v i : Nat) : bit v i = (bits v i 1 == 1) := by simp [bit, bits]

@[simp] theorem State.field_setField (b : Blk) (o : Nat) {lo len : Nat} (v : Nat) (h : lo + len ≤ 32) :
    (s.setField b o lo len v).field b o lo len = v % 2 ^ len := by
  rw [State.field, State.setField, State.reg_setReg, bits_mod_two_pow h, bits_setBits]

theorem State.field_setField_above (b : Blk) (o : Nat) {lo len l n : Nat} (v : Nat) (h : lo + len ≤ l) (h2 : l + n ≤ 32) :
    (s.setField b o lo len v).field b o l n = s.field b o l n := by
  rw [State.field, State.setField, State.reg_setReg, bits_mod_two_pow h2, bits_setBits_above h, State.field]

theorem State.field_setField_below (b : Blk) (o : Nat) {lo len l n : Nat} (v : Nat) (h : l + n ≤ lo) (h2 : l + n ≤ 32) :
    (s.setField b o lo len v).field b o l n = s.field b o l n := by
  rw [State.field, State.setField, State.reg_setReg, bits_mod_two_pow h2, bits_setBits_below h, State.field]

theorem State.reg_setField_off {b : Blk} {o p lo len : Nat} (v : Nat) (h : p ≠ o) :
    (s.setField b o lo len v).reg b p = s.reg b p := s.reg_setReg_off _ h

theorem State.flag_setFlag (b : Blk) (o : Nat) {i : Nat} (h : i < 32) : (s.setFlag b o i).flag b o i = true := by
  have := s.field_setField b o 1 (show i + 1 ≤ 32 by omega)
  rw [State.flag, bit_eq_bits]
  rw [State.field] at this
  simp [State.setFlag, this]

theorem State.flag_clearFlag (b : Blk) (o : Nat) {i : Nat} (h : i < 32) : (s.clearFlag b o i).flag b o i = false := by
  have := s.field_setField b o 0 (show i + 1 ≤ 32 by omega)
  rw [State.flag, bit_eq_bits]
  rw [State.field] at this
  simp [State.clearFlag, this]

theorem State.flag_setField_other (b : Blk) (o : Nat) {lo len i : Nat} (v : Nat) (h : i < lo ∨ lo + len ≤ i) (hi : i < 32) :
    (s.setField b o lo len v).flag b o i = s.flag b o i := by
  have h1 : (s.setField b o lo len v).field b o i 1 = s.field b o i 1 := by
    rcases h with h | h
    · exact s.field_setField_below b o v (by omega) (by omega)
    · exact s.field_setField_above b o v (by omega) (by omega)
  rw [State.field, State.field] at h1
  rw [State.flag, State.flag, bit_eq_bits, bit_eq_bits, h1]

theorem State.flag_setFlag_other (b : Blk) (o : Nat) {i j : Nat} (h : j ≠ i) (hj : j < 32) :
    (s.setFlag b o i).flag b o j = s.flag b o j := s.flag_setField_other b o 1 (by omega) hj

theorem State.flag_clearFlag_other (b : Blk) (o : Nat) {i j : Nat} (h : j ≠ i) (hj : j < 32) :
    (s.clearFlag b o i).flag b o j = s.flag b o j := s.flag_setField_other b o 0 (by omega) hj

theorem State.reg_bump (b : Blk) (o n : Nat) : (s.bump b o n).reg b o = (s.reg b o + n) % 2 ^ 32 := s.reg_setReg ..

/-! ## General registers (R146) -/

@[simp] theorem State.gpr_zero (k : CoreId) : s.gpr k 0 = 0 := rfl

theorem State.gpr_setGpr (k : CoreId) {r : Fin 32} (v : W32) (h : r ≠ 0) : (s.setGpr k r v).gpr k r = v := by
  simp [State.gpr, State.setGpr, h]

theorem State.gpr_setGpr_other (k : CoreId) {r q : Fin 32} (v : W32) (h : q ≠ r) : (s.setGpr k r v).gpr k q = s.gpr k q := by
  unfold State.gpr State.setGpr
  split
  · rfl
  · split
    · rfl
    · simp [sget_sset_other _ _ v (fun e => h (Fin.ext e))]

@[simp] theorem State.setGpr_regs (k : CoreId) (r : Fin 32) (v : W32) : (s.setGpr k r v).regs = s.regs := by
  unfold State.setGpr
  split <;> rfl

/-! ## Memory -/

theorem State.readByte_writeBytes_other {a x : Nat} {l : List Byte} (h : x < a ∨ a + l.length ≤ x) :
    (s.writeBytes a l).readByte x = s.readByte x := sget_ssetMany_other _ _ _ h

@[simp] theorem State.readBytes_writeBytes (a : Nat) (l : List Byte) : (s.writeBytes a l).readBytes a l.length = l :=
  sgetMany_ssetMany ..

@[simp] theorem leBytes_length (n v : Nat) : (leBytes n v).length = n := by
  induction n generalizing v with
  | zero => rfl
  | succ n ih => simp [leBytes, ih]

/-- A value read back from its bytes. -/
theorem leVal_leBytes (n v : Nat) : leVal (leBytes n v) = v % 2 ^ (8 * n) := by
  induction n generalizing v with
  | zero => simp [leBytes, leVal, Nat.mod_one]
  | succ n ih =>
    simp only [leBytes, leVal, ih, BitVec.toNat_ofNat]
    rw [show 8 * (n + 1) = 8 + 8 * n by omega, Nat.pow_add, Nat.mod_mul]

/-- A value read back after it is written. -/
theorem State.rd_wr (a n v : Nat) : (s.wr a n v).rd a n = v % 2 ^ (8 * n) := by
  have := s.readBytes_writeBytes a (leBytes n v)
  rw [leBytes_length] at this
  rw [State.rd, State.wr, this, leVal_leBytes]

theorem Memory.wf_writeBytes {s : State} (a : Nat) (l : List Byte) (h : Memory.wf s.mem = true) :
    Memory.wf (s.writeBytes a l).mem = true := swf_ssetMany _ _ _ h

theorem Memory.wf_wr {s : State} (a n v : Nat) (h : Memory.wf s.mem = true) : Memory.wf (s.wr a n v).mem = true :=
  Memory.wf_writeBytes _ _ h

theorem Memory.wf_scrWr {s : State} (k : CoreId) (o n v : Nat) (h : Memory.wf s.mem = true) : Memory.wf (s.scrWr k o n v).mem = true :=
  Memory.wf_writeBytes _ _ h

theorem Memory.wf_scrWrBytes {s : State} (k : CoreId) (o : Nat) (l : List Byte) (h : Memory.wf s.mem = true) :
    Memory.wf (s.scrWrBytes k o l).mem = true := Memory.wf_writeBytes _ _ h

end Sys2Proof.Machine
end

