-- ==== Sys2Proof/Laws/Block.lean ====
section
/-! SUPPORT. The running CRC of a block's configuration does not cover its reference, and is a 32-bit value. -/
namespace Sys2Proof.Machine

/-! ## Configuration checks (R434) -/

theorem crcReflBits_lt {poly : Nat} (hp : poly < 2 ^ 32) (n : Nat) : ∀ {c : Nat}, c < 2 ^ 32 → crcReflBits poly n c < 2 ^ 32 := by
  induction n with
  | zero => exact fun h => h
  | succ n ih =>
    intro c hc
    unfold crcReflBits
    apply ih
    split
    · exact Nat.xor_lt_two_pow (by omega) hp
    · omega

theorem crc32c_lt (l : List Byte) : crc32c l < 2 ^ 32 := by
  have h : ∀ (l : List Byte) (c : Nat), c < 2 ^ 32 →
      l.foldl (fun c b => crcReflBits 0x82F63B78 8 (Nat.xor c b.toNat)) c < 2 ^ 32 := by
    intro l
    induction l with
    | nil => exact fun c h => h
    | cons b t ih =>
      exact fun c hc => ih _ (crcReflBits_lt (by decide) 8 (Nat.xor_lt_two_pow hc (by have := b.isLt; omega)))
  exact Nat.xor_lt_two_pow (h l _ (by decide)) (by decide)

theorem cfgOffsets_no_ref (b : Blk) : BLK_CFG_CRC_REF ∉ b.cfgOffsets := by
  cases b <;> simp only [Blk.cfgOffsets, Blk.ownRows] <;> decide +kernel

/-- A block's running CRC does not cover its reference. -/
theorem State.crcNow_setRef (s : State) (b : Blk) (v : Nat) : (s.setReg b BLK_CFG_CRC_REF v).crcNow b = s.crcNow b := by
  have h : (s.setReg b BLK_CFG_CRC_REF v).cfgWords b = s.cfgWords b := by
    unfold State.cfgWords
    simp only [List.flatMap]
    congr 1
    apply List.map_congr_left
    intro o ho
    have hr := s.reg_setReg_off (b := b) v (fun e => cfgOffsets_no_ref b (e ▸ ho) : o ≠ BLK_CFG_CRC_REF)
    cases b <;> simp only [hr] <;> rfl
  rw [State.crcNow, h]; rfl

/-- A reference set to the running CRC passes. -/
theorem State.crcNow_checked (s : State) (b : Blk) :
    (s.setReg b BLK_CFG_CRC_REF (s.crcNow b)).crcNow b = (s.setReg b BLK_CFG_CRC_REF (s.crcNow b)).reg b BLK_CFG_CRC_REF := by
  rw [State.crcNow_setRef, State.reg_setReg, Nat.mod_eq_of_lt (show s.crcNow b < 2 ^ 32 from crc32c_lt _)]

end Sys2Proof.Machine
end

