-- ==== Sys2Proof/Laws/HostWindow.lean ====
section
/-! SUPPORT. The host window of R370: host addresses lie in it, and different ones name different bytes. -/
namespace Sys2Proof.Machine

/-- A host address by its tile, its page in the tile's part and its byte in the page. -/
theorem State.hostAddr_eq (s : State) (q : Nat) (t : Fin 8) (r : Fin 4096) :
    s.hostAddr (q * 32768 + t.val * 4096 + r.val) =
      0x20000000000 + t.val * 274877906944 + (256 - s.foe.window) * 1073741824 + q * 4096 + r.val := by
  have h1 : (q * 32768 + t.val * 4096 + r.val) / 4096 % 8 = t.val := by omega
  have h2 : (q * 32768 + t.val * 4096 + r.val) / 32768 = q := by omega
  have h3 : (q * 32768 + t.val * 4096 + r.val) % 4096 = r.val := by omega
  simp only [State.hostAddr, lpBase, Nat.reducePow, h1, h2, h3]

/-- Every host address has these three parts. -/
theorem hostAddr_parts (h : Nat) : ∃ (q : Nat) (t : Fin 8) (r : Fin 4096), h = q * 32768 + t.val * 4096 + r.val :=
  ⟨h / 32768, ⟨h / 4096 % 8, by omega⟩, ⟨h % 4096, by omega⟩, by simp only; omega⟩

/-- Every host address lies in the host window. -/
theorem State.hostAddr_in_window {s : State} {h : Nat} (hw : s.foe.window ≤ 64) (hh : h < s.foe.window * 8589934592) :
    s.hostWindowHas (s.hostAddr h) 1 = true := by
  obtain ⟨q, t, r, rfl⟩ := hostAddr_parts h
  rw [hostAddr_eq]
  generalize hx : 0x20000000000 + t.val * 274877906944 + (256 - s.foe.window) * 1073741824 + q * 4096 + r.val = a
  have ht : (a - 0x20000000000) % 274877906944 = (256 - s.foe.window) * 1073741824 + q * 4096 + r.val := by omega
  have k : (decide (0x20000000000 ≤ a) && decide (a < 0x40000000000)) = true := by
    simp only [Bool.and_eq_true, decide_eq_true_eq]; omega
  have e : (2 : Nat) ^ 38 = 274877906944 ∧ (2 : Nat) ^ 30 = 1073741824 := by decide
  unfold State.hostWindowHas inLp
  rw [e.1, e.2]
  change (_ && decide (_ ≤ (a - 0x20000000000) % 274877906944) && decide ((a - 0x20000000000) % 274877906944 + 1 ≤ _)) = true
  rw [ht]
  refine Bool.and_eq_true_iff.mpr ⟨Bool.and_eq_true_iff.mpr ⟨k, decide_eq_true ?_⟩, decide_eq_true ?_⟩ <;> omega

/-- Different host addresses name different bytes. -/
theorem State.hostAddr_injective {s : State} {h i : Nat} (hw : s.foe.window ≤ 64) (hh : h < s.foe.window * 8589934592)
    (hi : i < s.foe.window * 8589934592) (e : s.hostAddr h = s.hostAddr i) : h = i := by
  obtain ⟨q, t, r, rfl⟩ := hostAddr_parts h
  obtain ⟨p, u, v, rfl⟩ := hostAddr_parts i
  rw [hostAddr_eq, hostAddr_eq] at e
  omega

end Sys2Proof.Machine
end

