-- ==== Sys2Proof/Laws/Issue.lean ====
section
/-! SUPPORT. Issue on an idle core: the guards of `State.issue` fall away, and an engine runs the one entry it is given. -/
namespace Sys2Proof.Machine
variable {s : State} {k : CoreId}

theorem State.CoreIdle.enabled (h : s.CoreIdle k) : s.enabled (.cor k) = true := by
  have := h.issues
  simp only [State.issuable, Bool.and_eq_true] at this
  exact this.1.1

theorem State.CoreIdle.stall (h : s.CoreIdle k) : (s.core k).stall = .none := by
  have := h.issues
  simp only [State.issuable, Bool.and_eq_true, decide_eq_true_eq] at this
  exact this.2

theorem State.loadPending_nil (h : (s.core k).slots = []) (r : Fin 32) : s.loadPending k r = false := by
  simp [State.loadPending, State.slotsOf, h]

/-- An instruction whose own conditions hold issues on an idle core. -/
theorem State.issue_idle (h : s.CoreIdle k) (uses : List (Fin 32)) {ready : Bool} (hr : ready = true) (f : State → State) :
    s.issue k uses ready f = f s := by
  have hp : uses.any (fun r => s.loadPending k r) = false := by
    rw [List.any_eq_false]
    intro r _
    simp [State.loadPending_nil h.slots]
  simp [State.issue, h.issues, h.fetches, hp, hr]

theorem State.queueFull_idle (h : s.CoreIdle k) (e : EngineId) : s.queueFull k e = false := by
  cases e <;> simp [State.queueFull, Core.queue, h.mtxQ, h.vecQ, h.dmaQ]

/-! ## What issuing writes -/

theorem State.reg_retireTo_pc (s : State) (k : CoreId) (v : Nat) : (s.retireTo k v).pc k = v / 4 * 4 % 2 ^ 19 := by
  simp only [State.retireTo, State.bump, State.setPc, State.pc]
  rw [State.reg_setReg_off _ _ (by decide), State.reg_setReg, Nat.mod_eq_of_lt]
  have := Nat.mod_lt (v / 4 * 4) (show 0 < 2 ^ 19 by decide)
  omega

theorem State.pc_retire (s : State) (k : CoreId) : (s.retire k).pc k = s.nextPc k := s.reg_retireTo_pc k _

theorem State.instr_retireTo (s : State) (k : CoreId) (v : Nat) :
    (s.retireTo k v).reg (.cor k) COR_CNT_INSTR = (s.reg (.cor k) COR_CNT_INSTR + 1) % 2 ^ 32 := by
  simp only [State.retireTo, State.bump, State.setPc, State.reg_setReg]
  rw [State.reg_setReg_off _ _ (by decide)]

theorem State.regs_retireTo (s : State) (k : CoreId) (v : Nat) : RegsOnly (retireRegs k) s (s.retireTo k v) := by
  intro a ha
  simp only [retireRegs, corRegs, List.map_cons, List.map_nil, List.mem_cons, List.not_mem_nil, or_false, not_or] at ha
  simp only [State.retireTo, State.bump, State.setPc]
  rw [State.regs_setReg_other _ _ ha.2, State.regs_setReg_other _ _ ha.1]

theorem State.setReg_eq (s : State) (b : Blk) (o v : Nat) : s.setReg b o v = { s with regs := (s.setReg b o v).regs } := rfl

theorem regs_trans {s t u : State} (h1 : t = { s with regs := t.regs }) (h2 : u = { t with regs := u.regs }) :
    u = { s with regs := u.regs } := h2.trans (congrArg (fun x : State => { x with regs := u.regs }) h1)

/-- Issue changes registers alone. -/
theorem State.retireTo_eq (s : State) (k : CoreId) (v : Nat) : s.retireTo k v = { s with regs := (s.retireTo k v).regs } :=
  regs_trans (State.setReg_eq ..) (State.setReg_eq ..)

@[simp] theorem State.core_retireTo (s : State) (k j : CoreId) (v : Nat) : (s.retireTo k v).core j = s.core j := by
  rw [State.retireTo_eq, State.core, State.core]

@[simp] theorem State.core_retire (s : State) (k j : CoreId) : (s.retire k).core j = s.core j := s.core_retireTo ..

@[simp] theorem State.gpr_retireTo (s : State) (k j : CoreId) (v : Nat) (r : Fin 32) : (s.retireTo k v).gpr j r = s.gpr j r := by
  simp only [State.gpr, State.core_retireTo]

@[simp] theorem State.gpr_retire (s : State) (k j : CoreId) (r : Fin 32) : (s.retire k).gpr j r = s.gpr j r := s.gpr_retireTo ..

/-! ## Engine queues -/

theorem State.runEngine_nil {e : EngineId} (h : (s.core k).queue e = []) (n : Nat) : State.runEngine k e n s = (s, []) := by
  cases n with
  | zero => rfl
  | succ n =>
    unfold State.runEngine
    split
    · rfl
    · simp [h]

theorem State.settle_nil (n : Nat) (s : State) : State.settle n [] [] s = s := by cases n <;> rfl
theorem State.signal_nil (s : State) : s.signal [] = s := State.settle_nil ..

theorem State.grantCore_none (h : (s.core k).stall = .none) : s.grantCore k = s := by simp [State.grantCore, h]

theorem State.grantHead_nil {e : EngineId} (h : (s.core k).queue e = []) : s.grantHead k e = s := by
  simp [State.grantHead, Core.headWait, h]

theorem State.dmaTurn_nil (h : (s.core k).dmaRun = []) : s.dmaTurn k = s := by simp [State.dmaTurn, h]

theorem State.coreProgress_none (h : (s.core k).stall = .none) (hr : (s.core k).dmaRun = []) : s.coreProgress k = s := by
  simp [State.coreProgress, State.dmaTurn_nil hr, h]

/-- Nothing waits in the core: its waits and engines leave the state as it is. -/
theorem State.grantAll_idle (hs : (s.core k).stall = .none) (hm : (s.core k).mtxQ = []) (hv : (s.core k).vecQ = [])
    (hd : (s.core k).dmaQ = []) (hr : (s.core k).dmaRun = []) : s.grantAll k = (s, []) := by
  simp [State.grantAll, State.grantCore_none hs, State.grantHead_nil (e := .mtx) hm, State.grantHead_nil (e := .vec) hv,
    State.grantHead_nil (e := .dma) hd, State.runEngine_nil (e := .mtx) hm, State.runEngine_nil (e := .vec) hv,
    State.runEngine_nil (e := .dma) hd, State.coreProgress_none hs hr, hm]

theorem State.grantable_idle (hs : (s.core k).stall = .none) (hm : (s.core k).mtxQ = []) (hv : (s.core k).vecQ = [])
    (hd : (s.core k).dmaQ = []) : s.grantable k = false := by
  simp [State.grantable, Core.headWait, Core.queue, hs, hm, hv, hd]

/-- Nothing waits in a core: letting it move on changes nothing. -/
theorem State.kick_idle (hs : (s.core k).stall = .none) (hm : (s.core k).mtxQ = []) (hv : (s.core k).vecQ = [])
    (hd : (s.core k).dmaQ = []) (hr : (s.core k).dmaRun = []) : s.kick k = s := by
  simp [State.kick, State.grantAll_idle hs hm hv hd hr, State.grantable_idle hs hm hv hd, State.settle_nil]

end Sys2Proof.Machine
end

