-- ==== Sys2Proof/Laws/Moves.lean ====
section
/-! SUPPORT. What a command can do, said once: every state that a meaning answers comes from the state it began in by the
updates of `Moves`, none of which touches the queue or the clock. Facts about every command follow by induction over it. -/
namespace Sys2Proof.Machine

/-- `Moves s t`: `t` comes from `s` by updates of these kinds. -/
inductive Moves (s : State) : State → Prop where
  | refl : Moves s s
  | mem {t : State} (h : Moves s t) (a : Nat) (l : List Byte) : Moves s (t.writeBytes a l)
  | reg {t : State} (h : Moves s t) (b : Blk) (o v : Nat) : Moves s (t.setReg b o v)
  | core {t : State} (h : Moves s t) (k : CoreId) (v : Core) : Moves s (t.setCore k v)
  | cluster {t : State} (h : Moves s t) (c : ClusterId) (v : Cluster) : Moves s (t.setCluster c v)
  | job {t : State} (h : Moves s t) (j : Nat) (v : JobSlot) : Moves s (t.setJob j v)
  | fabric {t : State} (h : Moves s t) (i : Fin 8) (v : Fabric) : Moves s (t.setFabric i v)
  | route {t : State} (h : Moves s t) (i : Fin 8) (n v : Nat) : Moves s (t.setRouteWord i n v)
  | port {t : State} (h : Moves s t) (m : Nat) (v : PortQ) : Moves s (t.setPortQ m v)
  | mailroom {t : State} (h : Moves s t) (c : ClusterId) (v : Mailroom) : Moves s (t.setMailroom c v)
  | cruiser {t : State} (h : Moves s t) (c : ClusterId) (v : Cruiser) : Moves s (t.setCruiser c v)
  | skidder {t : State} (h : Moves s t) (c : ClusterId) (v : Skidder) : Moves s (t.setSkidder c v)
  | sillage {t : State} (h : Moves s t) (c : ClusterId) (v : Sillage) : Moves s (t.setSillage c v)
  | landing {t : State} (h : Moves s t) (i : Fin 8) (v : Landing) : Moves s (t.setLanding i v)
  | opt {t : State} (h : Moves s t) (q : PortId) (v : OptPort) : Moves s (t.setOpt q v)
  | posted {t : State} (h : Moves s t) (b : Blk) (v : Option (Nat × Nat)) : Moves s (t.setPending b v)
  | snap {t : State} (h : Moves s t) (k : Nat) (v : List Nat) :
      Moves s { t with snaps := sset (fun _ => []) t.snaps k v }
  | flash {t : State} (h : Moves s t) (a : Nat) (l : List Byte) : Moves s { t with flash := ssetMany flashDefault t.flash a l }
  | dropRegs {t : State} (h : Moves s t) (p : Nat × W32 → Bool) : Moves s { t with regs := t.regs.filter p }
  | clearRoutes {t : State} (h : Moves s t) : Moves s { t with routes := [] }
  | loseMain {t : State} (h : Moves s t) (p : Nat → Bool) :
      Moves s { t with mem := [], cores := [], clusters := [], fabrics := [], routes := [], ports := [], mailrooms := [],
                       cruisers := [], skidders := [], sillages := [], landings := [], opts := [],
                       snaps := t.snaps.filter (fun x => p x.1), posted := t.posted.filter (fun x => p x.1) }
  | out {t : State} (h : Moves s t) (m : OutMsg) : Moves s (t.emit m)
  | free {t : State} (h : Moves s t) (n : Nat) : Moves s { t with freeCount := t.freeCount + n }
  | tally {t : State} (h : Moves s t) (v : Tally) (hv : t.tally.bounded → v.bounded) : Moves s { t with tally := v }
  | mainOn {t : State} (h : Moves s t) (hs : t.standbyOn = true) : Moves s { t with mainOn := true }
  | mainOff {t : State} (h : Moves s t) : Moves s { t with mainOn := false }
  | standbyOn {t : State} (h : Moves s t) : Moves s { t with standbyOn := true }
  | lose {t : State} (h : Moves s t) :
      Moves s { State.reset with pending := t.pending, clock := t.clock, freeCount := t.freeCount, out := t.out, flash := t.flash }
  | other {t : State} (h : Moves s t) (beat : Nat) (time : TimeBase) (blaze : Blaze) (loopback : List Pkt) (shape : Nat)
      (foe : Forester) (lko : Lookout) (pwr : Power) :
      Moves s { t with beat := beat, time := time, blaze := blaze, loopback := loopback, shape := shape, foe := foe, lko := lko, pwr := pwr }

theorem Moves.trans {s t u : State} (h : Moves s t) (h2 : Moves t u) : Moves s u := by
  induction h2 with
  | refl => exact h
  | mem _ _ _ ih => exact .mem ih ..
  | reg _ _ _ _ ih => exact .reg ih ..
  | core _ _ _ ih => exact .core ih ..
  | cluster _ _ _ ih => exact .cluster ih ..
  | job _ _ _ ih => exact .job ih ..
  | fabric _ _ _ ih => exact .fabric ih ..
  | route _ _ _ _ ih => exact .route ih ..
  | port _ _ _ ih => exact .port ih ..
  | mailroom _ _ _ ih => exact .mailroom ih ..
  | cruiser _ _ _ ih => exact .cruiser ih ..
  | skidder _ _ _ ih => exact .skidder ih ..
  | sillage _ _ _ ih => exact .sillage ih ..
  | landing _ _ _ ih => exact .landing ih ..
  | opt _ _ _ ih => exact .opt ih ..
  | posted _ _ _ ih => exact .posted ih ..
  | snap _ _ _ ih => exact .snap ih ..
  | flash _ _ _ ih => exact .flash ih ..
  | dropRegs _ _ ih => exact .dropRegs ih ..
  | clearRoutes _ ih => exact .clearRoutes ih
  | loseMain _ _ ih => exact .loseMain ih ..
  | out _ _ ih => exact .out ih ..
  | free _ _ ih => exact .free ih ..
  | tally _ _ hv ih => exact .tally ih _ hv
  | mainOn _ hs ih => exact .mainOn ih hs
  | mainOff _ ih => exact .mainOff ih
  | standbyOn _ ih => exact .standbyOn ih
  | lose _ ih => exact .lose ih
  | other _ _ _ _ _ _ _ _ _ ih => exact .other ih ..

/-- An update of Tally that leaves its queue and ring alone. -/
theorem Moves.tallyKeep {s t : State} {v : Tally} (h : Moves s t) (hq : v.queue = t.tally.queue) (hr : v.ring = t.tally.ring) :
    Moves s { t with tally := v } := .tally h v fun hb => by rwa [Tally.bounded, hq, hr]

theorem Moves.power {s t : State} (h : Moves s t) (v : Power) : Moves s { t with pwr := v } :=
  .other h t.beat t.time t.blaze t.loopback t.shape t.foe t.lko v

theorem Moves.forester {s t : State} (h : Moves s t) (v : Forester) : Moves s { t with foe := v } :=
  .other h t.beat t.time t.blaze t.loopback t.shape v t.lko t.pwr

theorem Moves.lookout {s t : State} (h : Moves s t) (v : Lookout) : Moves s { t with lko := v } :=
  .other h t.beat t.time t.blaze t.loopback t.shape t.foe v t.pwr

/-! ## Shapes of meanings -/

theorem Moves.ite {s t u : State} {c : Prop} [Decidable c] (h1 : Moves s t) (h2 : Moves s u) : Moves s (if c then t else u) := by
  split <;> assumption

theorem Moves.foldl {α : Type} {s t : State} {f : State → α → State} (h : Moves s t) (hf : ∀ u a, Moves s u → Moves s (f u a))
    (l : List α) : Moves s (l.foldl f t) := by
  induction l generalizing t with
  | nil => exact h
  | cons a l ih => exact ih (hf t a h)

theorem Moves.foldl1 {α β : Type} {s : State} {p : State × β} {f : State × β → α → State × β} (h : Moves s p.1)
    (hf : ∀ q a, Moves s q.1 → Moves s (f q a).1) (l : List α) : Moves s (l.foldl f p).1 := by
  induction l generalizing p with
  | nil => exact h
  | cons a l ih => exact ih (hf p a h)

/-- The state of a pair. -/
abbrev Moves.fst {α : Type} (s : State) (p : State × α) : Prop := Moves s p.1
abbrev Moves.snd {α : Type} (s : State) (p : α × State) : Prop := Moves s p.2

theorem Moves.fst_ite {α : Type} {s : State} {a b : State × α} {c : Prop} [Decidable c] (h1 : Moves.fst s a) (h2 : Moves.fst s b) :
    Moves.fst s (if c then a else b) := by
  split <;> assumption

/-- A mailbox command's end. -/
def Ran.moves (s : State) : Ran → Prop
  | .refused t _ _ => Moves s t
  | .done t _ _ _ => Moves s t
  | .waits t _ _ => Moves s t

theorem Ran.moves_refused {s t : State} {st : Status} {d : Nat} (h : Moves s t) : (Ran.refused t st d).moves s := h
theorem Ran.moves_done {s t : State} {st : Status} {d : Nat} {l : List Byte} (h : Moves s t) : (Ran.done t st d l).moves s := h
theorem Ran.moves_waits {s t : State} {a b : Nat} (h : Moves s t) : (Ran.waits t a b).moves s := h

theorem Ran.moves_ite {s : State} {a b : Ran} {c : Prop} [Decidable c] (h1 : a.moves s) (h2 : b.moves s) :
    (if c then a else b).moves s := by
  split <;> assumption

/-- A meaning answers a next state, which comes from `s`. -/
def OutMoves (s : State) (r : Host.Outcome State Fault Refusal) : Prop := ∃ t, r = .next t ∧ Moves s t

theorem OutMoves.mk {s t : State} (h : Moves s t) : OutMoves s (.next t) := ⟨t, rfl, h⟩

theorem OutMoves.ite {s : State} {a b : Host.Outcome State Fault Refusal} {c : Prop} [Decidable c] (h1 : OutMoves s a) (h2 : OutMoves s b) :
    OutMoves s (if c then a else b) := by
  split <;> assumption

end Sys2Proof.Machine
end

