-- ==== Sys2Proof/Laws/MovesEngines.lean ====
section
/-! SUPPORT. That each operation is made of the updates of `Moves`: the register file, memory and the engines of a core. -/
namespace Sys2Proof.Machine
variable {s t : State}

/-! ## Ops -/

theorem State.wr_moves (h : Moves s t) : Moves s (State.wr t x1 x2 x3) := by
  unfold State.wr
  repeat' (with_reducible first | assumption | apply Moves.mem | apply Moves.ite | split | dsimp only | simp only [id_eq])

theorem State.bump_moves (h : Moves s t) : Moves s (State.bump t x1 x2 x3) := by
  unfold State.bump
  repeat' (with_reducible first | assumption | apply Moves.reg | apply Moves.ite | split | dsimp only | simp only [id_eq])

theorem State.setField_moves (h : Moves s t) : Moves s (State.setField t x1 x2 x3 x4 x5) := by
  unfold State.setField
  repeat' (with_reducible first | assumption | apply Moves.reg | apply Moves.ite | split | dsimp only | simp only [id_eq])

theorem State.setFlag_moves (h : Moves s t) : Moves s (State.setFlag t x1 x2 x3) := by
  unfold State.setFlag
  repeat' (with_reducible first | assumption | apply State.setField_moves | apply Moves.ite | split | dsimp only | simp only [id_eq])

theorem State.clearFlag_moves (h : Moves s t) : Moves s (State.clearFlag t x1 x2 x3) := by
  unfold State.clearFlag
  repeat' (with_reducible first | assumption | apply State.setField_moves | apply Moves.ite | split | dsimp only | simp only [id_eq])

theorem State.setPair_moves (h : Moves s t) : Moves s (State.setPair t x1 x2 x3 x4) := by
  unfold State.setPair
  repeat' (with_reducible first | assumption | apply Moves.reg | apply Moves.ite | split | dsimp only | simp only [id_eq])

theorem State.writeIgnored_moves (h : Moves s t) : Moves s (State.writeIgnored t x1) := by
  unfold State.writeIgnored
  repeat' (with_reducible first | assumption | apply State.setFlag_moves | apply Moves.ite | split | dsimp only | simp only [id_eq])

theorem State.setGpr_moves (h : Moves s t) : Moves s (State.setGpr t x1 x2 x3) := by
  unfold State.setGpr
  repeat' (with_reducible first | assumption | apply Moves.core | apply Moves.ite | split | dsimp only | simp only [id_eq])

theorem State.useFree_moves (h : Moves s t) : Moves s t.useFree := .free h 1

theorem State.freeBytes_moves (h : Moves s t) : Moves.snd s (State.freeBytes n t) := by
  induction n generalizing t with
  | zero => exact h
  | succ n ih => exact ih (State.useFree_moves h)

theorem State.logAs_moves (h : Moves s t) : Moves s (State.logAs t b code level args merge) := by
  unfold State.logAs
  extract_lets _ e u q
  have hu : Moves s u := State.useFree_moves h
  split
  · rename_i hl
    exact .tally hu _ fun hb => ⟨hl, hb.2⟩
  · exact State.bump_moves (.tally hu _ fun hb => ⟨by simp only [List.length_take]; omega, hb.2⟩)

theorem State.log_moves (h : Moves s t) : Moves s (State.log t x1 x2 x3 x4) := by
  unfold State.log
  repeat' (with_reducible first | assumption | apply State.logAs_moves | apply Moves.ite | split | dsimp only | simp only [id_eq])

theorem State.fireBlaze_moves (h : Moves s t) : Moves s (State.fireBlaze t x1 x2 x3 x4) := by
  unfold State.fireBlaze
  repeat' (with_reducible first
    | assumption | apply Moves.reg | apply State.setFlag_moves | apply State.bump_moves | apply State.setPair_moves | apply Moves.ite
      | split | dsimp only | simp only [id_eq] | apply Moves.other | exact Moves.tallyKeep (by assumption) (by rfl) (by rfl))

theorem State.faultSlot_moves (h : Moves s t) : Moves s (State.faultSlot t x1 x2 x3 x4) := by
  unfold State.faultSlot
  repeat' (with_reducible first | assumption | apply Moves.job | apply Moves.ite | split | dsimp only | simp only [id_eq])

theorem State.faultJob_moves (h : Moves s t) : Moves s (State.faultJob t x1 x2 x3) := by
  unfold State.faultJob
  repeat' (with_reducible first | assumption | apply State.faultSlot_moves | apply Moves.ite | split | dsimp only | simp only [id_eq])

theorem State.faultAll_moves (h : Moves s t) : Moves s (State.faultAll t x1 x2) := by
  unfold State.faultAll
  repeat' (with_reducible first
    | assumption | intro _ | apply State.faultSlot_moves | apply Moves.ite | apply Moves.foldl | apply Moves.foldl1 | split | dsimp only
      | simp only [id_eq])

theorem State.faultCluster_moves (h : Moves s t) : Moves s (State.faultCluster t x1 x2 x3 x4) := by
  unfold State.faultCluster
  repeat' (with_reducible first | assumption | apply State.faultSlot_moves | apply Moves.ite | split | dsimp only | simp only [id_eq])

theorem State.setPc_moves (h : Moves s t) : Moves s (State.setPc t x1 x2) := by
  unfold State.setPc
  repeat' (with_reducible first | assumption | apply Moves.reg | apply Moves.ite | split | dsimp only | simp only [id_eq])

theorem State.setStall_moves (h : Moves s t) : Moves s (State.setStall t x1 x2) := by
  unfold State.setStall
  repeat' (with_reducible first | assumption | apply Moves.core | apply Moves.ite | split | dsimp only | simp only [id_eq])

theorem State.leaveBarrier_moves (h : Moves s t) : Moves s (State.leaveBarrier t x1) := by
  unfold State.leaveBarrier
  repeat' (with_reducible first
    | assumption | apply State.clearFlag_moves | apply Moves.ite | split | dsimp only | simp only [id_eq])

theorem State.stopCore_moves (h : Moves s t) : Moves s (State.stopCore t x1) := by
  unfold State.stopCore
  repeat' (with_reducible first
    | assumption | apply State.clearFlag_moves | apply State.setFlag_moves | apply Moves.core | apply State.leaveBarrier_moves
      | apply Moves.ite | split | dsimp only | simp only [id_eq])

theorem State.coreFault_moves (h : Moves s t) : Moves s (State.coreFault t x1 x2 x3) := by
  unfold State.coreFault
  repeat' (with_reducible first
    | assumption | apply State.stopCore_moves | apply Moves.reg | apply State.log_moves | apply State.fireBlaze_moves
      | apply State.faultCluster_moves | apply Moves.ite | split | dsimp only | simp only [id_eq])

theorem State.countEcc_moves (h : Moves s t) : Moves s (State.countEcc t x1 x2 x3) := by
  unfold State.countEcc
  repeat' (with_reducible first
    | assumption | apply State.bump_moves | apply Moves.ite | split | dsimp only | simp only [id_eq])

theorem State.scratchEcc_moves (h : Moves s t) (hf : ∀ u, Moves s u → Moves s (f u)) : Moves s (State.scratchEcc t k l e f) := by
  unfold State.scratchEcc
  split
  · exact State.coreFault_moves h
  · exact hf _ (State.countEcc_moves h)

theorem State.windowEcc_moves (h : Moves s t) : Moves.fst s (State.windowEcc t x1 x2) := by
  unfold State.windowEcc
  repeat' (with_reducible first
    | assumption | apply State.bump_moves | apply Moves.fst_ite | apply Moves.ite | split | dsimp only | simp only [id_eq])

/-! ## Operands -/

theorem State.scrWr_moves (h : Moves s t) : Moves s (State.scrWr t x1 x2 x3 x4) := by
  unfold State.scrWr
  repeat' (with_reducible first | assumption | apply State.wr_moves | apply Moves.ite | split | dsimp only | simp only [id_eq])

theorem State.scrWrBytes_moves (h : Moves s t) : Moves s (State.scrWrBytes t x1 x2 x3) := by
  unfold State.scrWrBytes
  repeat' (with_reducible first | assumption | apply Moves.mem | apply Moves.ite | split | dsimp only | simp only [id_eq])

/-! ## Flags -/

theorem State.setVecFlag_moves (h : Moves s t) : Moves s (State.setVecFlag t x1 x2) := by
  unfold State.setVecFlag
  repeat' (with_reducible first | assumption | apply State.setFlag_moves | apply Moves.ite | split | dsimp only | simp only [id_eq])

theorem State.vecRefuse_moves (h : Moves s t) : Moves s (State.vecRefuse t x1 x2 x3) := by
  unfold State.vecRefuse
  repeat' (with_reducible first
    | assumption | apply Moves.reg | apply State.log_moves | apply State.coreFault_moves | apply Moves.ite | split | dsimp only
      | simp only [id_eq])

theorem State.mtxRefuse_moves (h : Moves s t) : Moves s (State.mtxRefuse t x1 x2 x3 x4) := by
  unfold State.mtxRefuse
  repeat' (with_reducible first
    | assumption | apply Moves.reg | apply State.log_moves | apply State.coreFault_moves | apply Moves.ite | split | dsimp only
      | simp only [id_eq])

theorem State.setSmEntry_moves (h : Moves s t) : Moves s (State.setSmEntry t x1 x2 x3) := by
  unfold State.setSmEntry
  repeat' (with_reducible first | assumption | apply Moves.core | apply Moves.ite | split | dsimp only | simp only [id_eq])

theorem State.recordAmax_moves (h : Moves s t) : Moves s (State.recordAmax t x1 x2 x3) := by
  unfold State.recordAmax
  repeat' (with_reducible first | assumption | apply State.setSmEntry_moves | apply Moves.ite | split | dsimp only | simp only [id_eq])

/-! ## Vector -/

theorem State.runVcvts_moves (h : Moves s t) : Moves s (State.runVcvts t x1 x2) := by
  unfold State.runVcvts
  repeat' (with_reducible first
    | assumption | apply State.useFree_moves | apply Moves.core | apply State.scrWrBytes_moves | apply State.recordAmax_moves
      | apply State.bump_moves | apply State.log_moves | apply State.setVecFlag_moves | apply Moves.ite | split | dsimp only
      | simp only [id_eq])

theorem State.runVupd_moves (h : Moves s t) : Moves s (State.runVupd t x1 x2) := by
  unfold State.runVupd
  repeat' (with_reducible first | assumption | apply Moves.core | apply Moves.ite | split | dsimp only | simp only [id_eq])

theorem State.runVbern_moves (h : Moves s t) : Moves s (State.runVbern t x1 x2) := by
  unfold State.runVbern
  repeat' (with_reducible first | assumption | apply Moves.core | apply Moves.ite | split | dsimp only | simp only [id_eq])

theorem State.runEw_moves (h : Moves s t) : Moves s (State.runEw t k f x) := by
  unfold State.runEw
  split
  · exact State.runVcvts_moves h
  · exact State.runVupd_moves h
  · exact State.runVbern_moves h
  · exact .core h ..
  · exact .core h ..
  · exact .free (.core h _ _) _
  · exact .free (.core h _ _) _
  · exact .core h ..

theorem State.runPerm_moves (h : Moves s t) : Moves s (State.runPerm t x1 x2) := by
  unfold State.runPerm
  repeat' (with_reducible first
    | assumption | apply Moves.core | apply State.setVecFlag_moves | apply Moves.ite | split | dsimp only | simp only [id_eq])

theorem State.runSmNorm_moves (h : Moves s t) : Moves s (State.runSmNorm t x1 x2) := by
  unfold State.runSmNorm
  repeat' (with_reducible first
    | assumption | apply Moves.core | apply State.setVecFlag_moves | apply Moves.ite | split | dsimp only | simp only [id_eq])

theorem State.runCl_moves (h : Moves s t) : Moves s (State.runCl t x1 x2 x3) := by
  unfold State.runCl
  repeat' (with_reducible first
    | assumption | apply State.runPerm_moves | apply Moves.core | apply State.runSmNorm_moves | apply Moves.ite | split | dsimp only
      | simp only [id_eq])

theorem State.runVld_moves (h : Moves s t) : Moves s (State.runVld t x1 x2 x3 x4 x5 x6 x7) := by
  unfold State.runVld
  repeat' (with_reducible first
    | assumption | intro _ | apply State.vecRefuse_moves | apply State.coreFault_moves | apply State.bump_moves | apply Moves.core
      | apply State.scratchEcc_moves | apply Moves.ite | split | dsimp only | simp only [id_eq])

theorem State.runVst_moves (h : Moves s t) : Moves s (State.runVst t x1 x2 x3 x4 x5 x6 x7) := by
  unfold State.runVst
  repeat' (with_reducible first
    | assumption | intro _ | apply State.vecRefuse_moves | apply State.coreFault_moves | apply State.bump_moves
      | apply State.scrWr_moves | apply State.scratchEcc_moves | apply Moves.ite | apply Moves.foldl | apply Moves.foldl1
      | split | dsimp only | simp only [id_eq])

theorem State.deliverSummary_moves (h : Moves s t) : Moves s (State.deliverSummary t x1 x2 x3) := by
  unfold State.deliverSummary
  repeat' (with_reducible first
    | assumption | apply State.setGpr_moves | apply State.bump_moves | apply State.setStall_moves | apply Moves.ite | split | dsimp only
      | simp only [id_eq])

theorem State.runSum_moves (h : Moves s t) : Moves s (State.runSum t x1 x2 x3 x4) := by
  unfold State.runSum
  repeat' (with_reducible first
    | assumption | apply State.deliverSummary_moves | apply Moves.reg | apply Moves.ite | split | dsimp only | simp only [id_eq])

theorem State.runSmcfg_moves (h : Moves s t) : Moves s (State.runSmcfg t x1 x2 x3) := by
  unfold State.runSmcfg
  repeat' (with_reducible first
    | assumption | apply State.vecRefuse_moves | apply State.setSmEntry_moves | apply Moves.ite | split | dsimp only | simp only [id_eq])

theorem State.runSmcommit_moves (h : Moves s t) : Moves s (State.runSmcommit t x1 x2 x3) := by
  unfold State.runSmcommit
  repeat' (with_reducible first | assumption | apply State.setSmEntry_moves | apply Moves.ite | split | dsimp only | simp only [id_eq])

theorem State.runRngset_moves (h : Moves s t) : Moves s (State.runRngset t x1 x2 x3 x4) := by
  unfold State.runRngset
  repeat' (with_reducible first
    | assumption | intro _ | apply State.vecRefuse_moves | apply Moves.core | apply State.bump_moves | apply State.scratchEcc_moves
      | apply Moves.ite | split | dsimp only | simp only [id_eq])

theorem State.vecRun_moves (h : Moves s t) : Moves s (State.vecRun t x1 x2 x3) := by
  unfold State.vecRun
  repeat' (with_reducible first
    | assumption | apply State.runEw_moves | apply State.vecRefuse_moves | apply State.runCl_moves | apply State.runVld_moves
      | apply State.runVst_moves | apply Moves.core | apply State.runSum_moves | apply State.runSmcfg_moves
      | apply State.deliverSummary_moves | apply State.runSmcommit_moves | apply State.runRngset_moves | apply Moves.ite
      | split | dsimp only | simp only [id_eq])

theorem State.vecExec_moves (h : Moves s t) : Moves s (State.vecExec t x1 x2 x3) := by
  unfold State.vecExec
  repeat' (with_reducible first
    | assumption | apply State.bump_moves | apply Moves.core | apply State.vecRun_moves | apply Moves.ite | split | dsimp only
      | simp only [id_eq])

/-! ## Matrix -/

theorem State.setGroup_moves (h : Moves s t) : Moves s (State.setGroup t x1 x2 x3) := by
  unfold State.setGroup
  repeat' (with_reducible first | assumption | apply Moves.core | apply Moves.ite | split | dsimp only | simp only [id_eq])

theorem State.stalled_moves (h : Moves s t) : Moves s (State.stalled t x1 x2 x3) := by
  unfold State.stalled
  repeat' (with_reducible first
    | assumption | apply State.bump_moves | apply Moves.ite | split | dsimp only | simp only [id_eq])

theorem State.useArray_moves (h : Moves s t) : Moves s (State.useArray t x1 x2) := by
  unfold State.useArray
  repeat' (with_reducible first
    | assumption | apply State.bump_moves | apply Moves.core | apply State.stalled_moves | apply Moves.ite | split | dsimp only
      | simp only [id_eq])

theorem State.runMacc_moves (h : Moves s t) : Moves.fst s (State.runMacc t x1 x2 x3 x4 x5) := by
  unfold State.runMacc
  repeat' (with_reducible first
    | assumption | apply State.mtxRefuse_moves | apply State.coreFault_moves | apply State.countEcc_moves
      | apply State.setGroup_moves | apply State.useArray_moves | apply State.bump_moves | apply State.stalled_moves
      | apply Moves.fst_ite | apply Moves.ite | split | dsimp only | simp only [id_eq])

theorem State.runMbegin_moves (h : Moves s t) : Moves s (State.runMbegin t x1 x2 x3 x4) := by
  unfold State.runMbegin
  repeat' (with_reducible first
    | assumption | apply State.mtxRefuse_moves | apply State.setGroup_moves | apply Moves.ite | split | dsimp only | simp only [id_eq])

theorem State.runMabort_moves (h : Moves s t) : Moves s (State.runMabort t x1 x2 x3) := by
  unfold State.runMabort
  repeat' (with_reducible first
    | assumption | apply State.mtxRefuse_moves | apply State.setGroup_moves | apply Moves.ite | split | dsimp only | simp only [id_eq])

theorem State.putElem_moves (h : Moves s t) : Moves s (State.putElem t x1 x2 x3 x4 x5) := by
  unfold State.putElem
  repeat' (with_reducible first | assumption | apply State.scrWr_moves | apply Moves.ite | split | dsimp only | simp only [id_eq])

theorem State.runMend_moves (h : Moves s t) : Moves.fst s (State.runMend t x1 x2 x3 x4 x5) := by
  unfold State.runMend
  repeat' (with_reducible first
    | assumption | intro _ | apply State.mtxRefuse_moves | apply State.putElem_moves | apply State.scrWrBytes_moves
      | apply State.recordAmax_moves | apply State.log_moves | apply State.setGroup_moves | apply State.bump_moves
      | apply State.coreFault_moves | apply State.countEcc_moves | apply State.stalled_moves | apply Moves.fst_ite
      | apply Moves.ite | apply Moves.foldl | apply Moves.foldl1 | split | dsimp only | simp only [id_eq])

theorem State.mtxExec_moves (h : Moves s t) : Moves.fst s (State.mtxExec t x1 x2 x3) := by
  unfold State.mtxExec
  repeat' (with_reducible first
    | assumption | apply State.runMbegin_moves | apply State.runMacc_moves | apply State.runMend_moves | apply State.runMabort_moves
      | apply Moves.fst_ite | apply Moves.ite | split | dsimp only | simp only [id_eq])

end Sys2Proof.Machine
end

