-- ==== Sys2Proof/Laws/MovesMem.lean ====
section
/-! SUPPORT. That each operation is made of the updates of `Moves`: the memory path, the DMA engine and the sync units. -/
namespace Sys2Proof.Machine
variable {s t : State}

/-! ## JobMem -/

theorem State.dramUncorrectable_moves (h : Moves s t) : Moves s (State.dramUncorrectable t x1 x2) := by
  unfold State.dramUncorrectable
  repeat' (with_reducible first
    | assumption | apply Moves.reg | apply State.log_moves | apply State.bump_moves | apply Moves.ite | split | dsimp only
      | simp only [id_eq])

theorem State.dramCorrected_moves (h : Moves s t) : Moves s (State.dramCorrected t x1) := by
  unfold State.dramCorrected
  repeat' (with_reducible first | assumption | apply State.bump_moves | apply Moves.ite | split | dsimp only | simp only [id_eq])

theorem State.cacheInsert_moves (h : Moves s t) : Moves s (State.cacheInsert t x1 x2 x3) := by
  unfold State.cacheInsert
  repeat' (with_reducible first
    | assumption | apply Moves.cluster | apply State.bump_moves | apply Moves.ite | split | dsimp only | simp only [id_eq])

theorem State.touch_moves (h : Moves s t) : Moves.fst s (State.touch t x1 x2 x3) := by
  unfold State.touch
  repeat' (with_reducible first
    | assumption | apply State.bump_moves | apply State.cacheInsert_moves | apply Moves.fst_ite | apply Moves.ite | split | dsimp only
      | simp only [id_eq])

theorem State.touchLines_moves (h : Moves s t) : Moves s (State.touchLines t x1 x2) := by
  unfold State.touchLines
  repeat' (with_reducible first
    | assumption | intro _ | apply State.touch_moves | apply Moves.ite | apply Moves.foldl | apply Moves.foldl1 | split
      | dsimp only | simp only [id_eq])

theorem State.touchRange_moves (h : Moves s t) : Moves s (State.touchRange t x1 x2 x3 x4) := by
  unfold State.touchRange
  repeat' (with_reducible first
    | assumption | intro _ | apply State.touch_moves | apply Moves.ite | apply Moves.foldl | apply Moves.foldl1 | split | dsimp only
      | simp only [id_eq])

theorem State.dropLine_moves (h : Moves s t) : Moves s (State.dropLine t x1 x2) := by
  unfold State.dropLine
  repeat' (with_reducible first
    | assumption | apply Moves.cluster | apply State.bump_moves | apply Moves.ite | split | dsimp only | simp only [id_eq])

theorem State.invalidateLine_moves (h : Moves s t) : Moves s (State.invalidateLine t x1 x2) := by
  unfold State.invalidateLine
  repeat' (with_reducible first
    | assumption | intro _ | apply State.dropLine_moves | apply Moves.ite | apply Moves.foldl | apply Moves.foldl1 | split | dsimp only
      | simp only [id_eq])

theorem State.clusterWrite_moves (h : Moves s t) : Moves s (State.clusterWrite t x1 x2 x3) := by
  unfold State.clusterWrite
  repeat' (with_reducible first
    | assumption | intro _ | apply State.touchRange_moves | apply Moves.mem | apply State.invalidateLine_moves | apply Moves.ite
      | apply Moves.foldl | apply Moves.foldl1 | split | dsimp only | simp only [id_eq])

theorem State.outsideWrite_moves (h : Moves s t) : Moves s (State.outsideWrite t x1 x2) := by
  unfold State.outsideWrite
  repeat' (with_reducible first
    | assumption | intro _ | apply State.invalidateLine_moves | apply Moves.mem | apply Moves.ite | apply Moves.foldl
      | apply Moves.foldl1 | split | dsimp only | simp only [id_eq])

theorem State.clusterRead_moves (h : Moves s t) : Moves s (State.clusterRead t x1 x2 x3) := by
  unfold State.clusterRead
  repeat' (with_reducible first | assumption | apply State.touchRange_moves | apply Moves.ite | split | dsimp only | simp only [id_eq])

theorem State.readRanges_moves (h : Moves s t) : Moves s (State.readRanges t x1 x2) := by
  unfold State.readRanges
  repeat' (with_reducible first
    | assumption | intro _ | apply State.clusterRead_moves | apply Moves.ite | apply Moves.foldl | apply Moves.foldl1 | split
      | dsimp only | simp only [id_eq])

theorem State.flushCache_moves (h : Moves s t) : Moves s (State.flushCache t x1) := by
  unfold State.flushCache
  repeat' (with_reducible first
    | assumption | intro _ | apply State.bump_moves | apply Moves.cluster | apply Moves.ite | apply Moves.foldl | apply Moves.foldl1
      | split | dsimp only | simp only [id_eq])

theorem State.forgetLine_moves (h : Moves s t) : Moves s (State.forgetLine t x1 x2) := Moves.cluster h ..

theorem State.lineError_moves (h : Moves s t) : Moves.fst s (State.lineError t x1 x2 x3) := by
  unfold State.lineError
  repeat' (with_reducible first
    | assumption | apply State.dramCorrected_moves | apply State.forgetLine_moves | apply State.dramUncorrectable_moves
      | apply State.setFlag_moves | apply State.bump_moves | apply State.log_moves | apply State.faultCluster_moves
      | apply State.freeBytes_moves | apply Moves.mem | apply Moves.cluster | apply Moves.fst_ite | apply Moves.ite | split | dsimp only
      | simp only [id_eq])

theorem State.unitRead_moves (h : Moves s t) : Moves.fst s (State.unitRead t x1 x2 x3 x4) := by
  unfold State.unitRead
  repeat' (with_reducible first
    | assumption | apply State.log_moves | apply State.faultCluster_moves | apply State.lineError_moves
      | apply State.windowEcc_moves | apply Moves.fst_ite | apply Moves.ite | split | dsimp only | simp only [id_eq])

theorem State.walkReads_moves (h : Moves s t) : Moves s (State.walkReads t x1 x2) := by
  unfold State.walkReads
  repeat' (with_reducible first
    | assumption | intro _ | apply State.touch_moves | apply Moves.ite | apply Moves.foldl | apply Moves.foldl1 | split
      | dsimp only | simp only [id_eq])

theorem State.translate_moves (h : Moves s t) : Moves.fst s (State.translate t x1 x2) := by
  unfold State.translate
  repeat' (with_reducible first
    | assumption | apply State.walkReads_moves | apply State.bump_moves | apply Moves.core | apply Moves.fst_ite | apply Moves.ite
      | split | dsimp only | simp only [id_eq])

theorem State.walkError_moves (h : Moves s t) : Moves.fst s (State.walkError t x1 x2 x3) := by
  unfold State.walkError
  repeat' (with_reducible first
    | assumption | apply State.bump_moves | apply State.walkReads_moves | apply State.lineError_moves | apply Moves.fst_ite
      | apply Moves.ite | split | dsimp only | simp only [id_eq])

theorem State.reach_moves (h : Moves s t) : Moves.fst s (State.reach t x1 x2 x3 x4) := by
  unfold State.reach
  repeat' (with_reducible first
    | assumption | apply State.translate_moves | apply Moves.fst_ite | apply Moves.ite | split | dsimp only | simp only [id_eq])

theorem State.takeSlot_moves (h : Moves s t) : Moves s (State.takeSlot t x1 x2) := by
  unfold State.takeSlot
  repeat' (with_reducible first | assumption | apply Moves.core | apply Moves.ite | split | dsimp only | simp only [id_eq])

theorem State.dropSlot_moves (h : Moves s t) : Moves s (State.dropSlot t x1 x2) := by
  unfold State.dropSlot
  repeat' (with_reducible first | assumption | apply Moves.core | apply Moves.ite | split | dsimp only | simp only [id_eq])

theorem State.streamPage_moves (h : Moves s t) : Moves.fst s (State.streamPage t x1 x2 x3) := by
  unfold State.streamPage
  repeat' (with_reducible first
    | assumption | apply State.walkReads_moves | apply Moves.fst_ite | apply Moves.ite | split | dsimp only | simp only [id_eq])

theorem State.requestAhead_moves (h : Moves s t) : Moves.fst s (State.requestAhead t x1 x2 x3) := by
  unfold State.requestAhead
  repeat' (with_reducible first
    | assumption | apply State.bump_moves | apply State.takeSlot_moves | apply State.streamPage_moves | apply Moves.fst_ite
      | apply Moves.ite | split | dsimp only | simp only [id_eq])

theorem State.requestLines_moves (h : Moves s t) : Moves.fst s (State.requestLines c l t x) := by
  induction l generalizing t x with
  | nil => exact h
  | cons a l ih => exact ih (State.requestAhead_moves h)

theorem State.advanceStream_moves (h : Moves s t) : Moves s (State.advanceStream t x1 x2) := by
  unfold State.advanceStream
  repeat' (with_reducible first
    | assumption | apply State.requestLines_moves | apply Moves.cluster | apply Moves.ite | split | dsimp only | simp only [id_eq])

theorem State.streamDemand_moves (h : Moves s t) : Moves s (State.streamDemand t x1 x2 x3 x4) := by
  unfold State.streamDemand
  repeat' (with_reducible first
    | assumption | apply Moves.cluster | apply State.advanceStream_moves | apply Moves.ite | split | dsimp only | simp only [id_eq])

theorem State.demand_moves (h : Moves s t) : Moves s (State.demand t x1 x2 x3 x4 x5) := by
  unfold State.demand
  repeat' (with_reducible first
    | assumption | apply State.touch_moves | apply State.streamDemand_moves | apply Moves.ite | split | dsimp only | simp only [id_eq])

theorem State.advanceAll_moves (h : Moves s t) : Moves s (State.advanceAll t x1) := by
  unfold State.advanceAll
  repeat' (with_reducible first
    | assumption | intro _ | apply State.advanceStream_moves | apply Moves.ite | apply Moves.foldl | apply Moves.foldl1 | split
      | dsimp only | simp only [id_eq])

/-! ## Copy -/

theorem State.dmaReach_moves (h : Moves s t) : Moves.fst s (State.dmaReach t x1 x2 x3 x4 x5) := by
  unfold State.dmaReach
  repeat' (with_reducible first
    | assumption | apply State.reach_moves | apply Moves.fst_ite | apply Moves.ite | split | dsimp only | simp only [id_eq])

theorem State.partAt_moves (h : Moves s t) : Moves.fst s (State.partAt t x1 x2 x3 x4) := by
  unfold State.partAt
  repeat' (with_reducible first
    | assumption | apply State.dmaReach_moves | apply Moves.fst_ite | apply Moves.ite | split | dsimp only | simp only [id_eq])

theorem State.demandLines_moves (h : Moves s t) : Moves s (State.demandLines t x1 x2) :=
  .foldl h (fun _ _ hu => State.demand_moves hu) _

theorem State.dmaSlot_moves (e : State.dmaSlot t k p w j = some u) (h : Moves s t) : Moves s u := by
  simp only [State.dmaSlot] at e
  by_cases hj : j = true
  · by_cases hr : t.slotReady k (if w = true then p.dst else p.src) = true
    · simp only [hj, hr, Bool.not_true, Bool.false_eq_true, if_true, if_false, Option.some.injEq] at e
      exact e ▸ State.takeSlot_moves h
    · simp [hj, hr] at e
  · simp only [hj, Bool.not_false, if_true, Option.some.injEq] at e
    exact e ▸ h

theorem State.issueAt_moves (e : State.issueAt t k r row pos = .taken u n l) (h : Moves s t) : Moves s u := by
  unfold State.issueAt at e
  dsimp only at e
  split at e
  · split at e
    · cases e
    · split at e
      · rename_i e1
        cases e
        rw [Option.bind_eq_some_iff] at e1
        obtain ⟨v, e1, e2⟩ := e1
        exact State.dmaSlot_moves e2 (State.dmaSlot_moves e1 (State.partAt_moves h))
      · split at e <;> cases e
  · cases e

theorem State.issuePassed_moves (h : Moves s t) : Moves.fst s (State.issuePassed k r l t) := by
  induction l generalizing t with
  | nil => exact h
  | cons x l ih =>
    unfold State.issuePassed
    split
    · rename_i e; exact ih (State.issueAt_moves e h)
    · exact ih h
    · exact h

theorem State.issueNext_moves (h : Moves s t) : Moves.fst s (State.issueNext k n r t) := by
  induction n generalizing r t with
  | zero => exact h
  | succ n ih =>
    unfold State.issueNext
    split
    · exact h
    · split
      · rename_i e; exact ih (State.issueAt_moves e h)
      · exact ih h
      · exact h

theorem State.issueParts_moves (h : Moves s t) : Moves.fst s (State.issueParts k i t l) := by
  unfold State.issueParts
  split
  · exact h
  · exact .core (State.issueNext_moves (State.issuePassed_moves h)) ..

theorem State.dmaTurn_moves (h : Moves s t) : Moves s (State.dmaTurn t x1) := by
  unfold State.dmaTurn
  refine .ite h (.foldl ?_ (fun _ _ hu => State.demandLines_moves hu) _)
  exact .foldl1 h (fun _ _ hu => State.issueParts_moves hu) _

theorem State.dropPart_moves (h : Moves s t) : Moves s (State.dropPart t x1 x2) := Moves.core h ..

theorem State.landWord_moves (h : Moves s t) : Moves.fst s (State.landWord t x1 x2 x3) := by
  unfold State.landWord
  repeat' (with_reducible first
    | assumption | apply Moves.mem | apply Moves.fst_ite | apply Moves.ite | split | dsimp only | simp only [id_eq])

theorem State.landBytes_moves (h : Moves s t) : Moves.fst s (State.landBytes t x1 x2 x3) := by
  unfold State.landBytes
  repeat' (with_reducible first
    | assumption | apply Moves.mem | apply State.landWord_moves | apply Moves.fst_ite | apply Moves.ite | split | dsimp only
      | simp only [id_eq])

theorem State.finishPart_moves (h : Moves s t) : Moves.fst s (State.finishPart t x1 x2 x3) := by
  unfold State.finishPart
  dsimp only
  split
  · exact State.dropPart_moves h
  · exact State.bump_moves (.ite (State.landBytes_moves (State.dropPart_moves h))
      (.foldl (State.landBytes_moves (State.dropPart_moves h)) (fun _ _ hu => State.invalidateLine_moves hu) _))

theorem State.finishFlying_moves (h : Moves s t) : Moves.fst s (State.finishFlying k n r t) := by
  induction n generalizing r t with
  | zero => exact h
  | succ n ih =>
    unfold State.finishFlying
    split
    · exact h
    · dsimp only
      split
      · exact State.finishPart_moves h
      · exact ih (State.finishPart_moves h)

theorem State.finishAt_moves (h : Moves s t) : Moves.fst s (State.finishAt t x1 x2 x3 x4) := by
  unfold State.finishAt
  dsimp only
  split
  · exact State.partAt_moves h
  · exact State.finishPart_moves (.foldl (State.partAt_moves h) (fun _ _ hu => State.demandLines_moves hu) _)

theorem State.finishPassed_moves (h : Moves s t) : Moves.fst s (State.finishPassed k l r t) := by
  induction l generalizing r t with
  | nil => exact h
  | cons x l ih =>
    unfold State.finishPassed
    dsimp only
    split
    · exact State.finishAt_moves h
    · exact ih (State.finishAt_moves h)

theorem State.finishRest_moves (h : Moves s t) : Moves.fst s (State.finishRest k n r t) := by
  induction n generalizing r t with
  | zero => exact h
  | succ n ih =>
    unfold State.finishRest
    dsimp only
    split
    · exact h
    · split
      · exact State.finishAt_moves h
      · exact ih (State.finishAt_moves h)

theorem State.dmaFinish_moves (h : Moves s t) : Moves.fst s (State.dmaFinish t x1 x2) := by
  unfold State.dmaFinish
  dsimp only
  split
  · exact State.finishFlying_moves h
  · split
    · exact State.finishPassed_moves (State.finishFlying_moves h)
    · exact State.finishRest_moves (State.finishPassed_moves (State.finishFlying_moves h))

theorem State.dmaYield_moves (h : Moves s t) : Moves s (State.dmaYield t x1 x2) := by
  unfold State.dmaYield
  repeat' (with_reducible first
    | assumption | apply State.finishPart_moves | apply Moves.core | apply Moves.ite | split | dsimp only | simp only [id_eq])

/-! ## Sync -/

theorem State.setSyncCount_moves (h : Moves s t) : Moves s (State.setSyncCount t x1 x2 x3) := by
  unfold State.setSyncCount
  repeat' (with_reducible first | assumption | apply State.setField_moves | apply Moves.ite | split | dsimp only | simp only [id_eq])

theorem State.manualSet_moves (h : Moves s t) : Moves s (State.manualSet t x1 x2 x3) := by
  unfold State.manualSet
  repeat' (with_reducible first
    | assumption | apply State.setSyncCount_moves | apply State.bump_moves | apply State.log_moves | apply Moves.ite | split
      | dsimp only | simp only [id_eq])

theorem State.syncStop_moves (h : Moves s t) : Moves s (State.syncStop t x1 x2 x3 x4 x5 x6) := by
  unfold State.syncStop
  repeat' (with_reducible first
    | assumption | apply Moves.reg | apply State.log_moves | apply State.stopCore_moves | apply State.faultCluster_moves
      | apply State.fireBlaze_moves | apply Moves.ite | split | dsimp only | simp only [id_eq])

theorem State.syncOverflow_moves (h : Moves s t) : Moves s (State.syncOverflow t x1 x2 x3) := by
  unfold State.syncOverflow
  repeat' (with_reducible first
    | assumption | apply State.syncStop_moves | apply State.log_moves | apply Moves.reg | apply Moves.ite | split | dsimp only
      | simp only [id_eq])

theorem State.setQueue_moves (h : Moves s t) : Moves s (State.setQueue t x1 x2 x3) := by
  unfold State.setQueue
  repeat' (with_reducible first | assumption | apply Moves.core | apply Moves.ite | split | dsimp only | simp only [id_eq])

theorem State.takeWait_moves (h : Moves s t) : Moves s (State.takeWait t x1 x2 x3) := by
  unfold State.takeWait
  repeat' (with_reducible first
    | assumption | apply State.bump_moves | apply State.setSyncCount_moves | apply Moves.ite | split | dsimp only | simp only [id_eq])

theorem State.runEngine_moves (h : Moves s t) : Moves.fst s (State.runEngine k e n t) := by
  induction n generalizing t with
  | zero => exact h
  | succ n ih =>
    unfold State.runEngine
    repeat' (with_reducible first | assumption | apply ih | apply State.takeWait_moves | apply State.vecExec_moves | apply State.mtxExec_moves
                                  | apply State.setQueue_moves | apply Moves.core | split | dsimp only)

theorem State.beginWait_moves (h : Moves s t) : Moves s (State.beginWait t x1 x2) := by
  unfold State.beginWait
  repeat' (with_reducible first
    | assumption | apply State.setFlag_moves | apply State.setStall_moves | apply Moves.ite | split | dsimp only | simp only [id_eq])

theorem State.endWait_moves (h : Moves s t) : Moves s (State.endWait t x1) := by
  unfold State.endWait
  repeat' (with_reducible first
    | assumption | apply State.clearFlag_moves | apply State.setStall_moves | apply Moves.ite | split | dsimp only | simp only [id_eq])

theorem State.closeIdle_moves (h : Moves s t) : Moves s (State.closeIdle t x1) := by
  unfold State.closeIdle
  repeat' (with_reducible first | assumption | apply Moves.core | apply Moves.ite | split | dsimp only | simp only [id_eq])

theorem State.coreProgress_moves (h : Moves s t) : Moves s (State.coreProgress t x1) := by
  unfold State.coreProgress
  repeat' (with_reducible first
    | assumption | apply State.dmaTurn_moves | apply State.setStall_moves | apply State.setFlag_moves | apply State.clearFlag_moves
      | apply Moves.ite | split | dsimp only | simp only [id_eq])

theorem State.grantCore_moves (h : Moves s t) : Moves s (State.grantCore t x1) := by
  unfold State.grantCore
  repeat' (with_reducible first
    | assumption | apply State.endWait_moves | apply State.takeWait_moves | apply Moves.ite | split | dsimp only | simp only [id_eq])

theorem State.grantHead_moves (h : Moves s t) : Moves s (State.grantHead t x1 x2) := by
  unfold State.grantHead
  repeat' (with_reducible first
    | assumption | apply State.takeWait_moves | apply State.setQueue_moves | apply Moves.ite | split | dsimp only | simp only [id_eq])

theorem State.grantAll_moves (h : Moves s t) : Moves.fst s (State.grantAll t x1) := by
  unfold State.grantAll
  repeat' (with_reducible first
    | assumption | apply State.grantHead_moves | apply State.grantCore_moves | apply State.runEngine_moves | apply State.closeIdle_moves
      | apply State.coreProgress_moves | apply Moves.fst_ite | apply Moves.ite | split | dsimp only | simp only [id_eq])

theorem State.applySum_moves (h : Moves s t) : Moves s (State.applySum t x1) := by
  unfold State.applySum
  repeat' (with_reducible first
    | assumption | apply State.syncOverflow_moves | apply State.bump_moves | apply State.setSyncCount_moves | apply Moves.ite | split
      | dsimp only | simp only [id_eq])

theorem State.grantCores_moves (h : Moves s t) : Moves.fst s (State.grantCores t x1) := by
  unfold State.grantCores
  exact .foldl1 h (fun _ _ hu => by exact State.grantAll_moves hu) _

theorem State.settle_moves (h : Moves s t) : Moves s (State.settle n ks l t) := by
  induction n generalizing ks l t with
  | zero => exact h
  | succ n ih =>
    unfold State.settle
    dsimp only
    split
    · exact h
    · exact ih (State.grantCores_moves (.foldl h (fun _ _ hu => State.applySum_moves hu) _))

theorem State.signal_moves (h : Moves s t) : Moves s (State.signal t x1) := State.settle_moves h
theorem State.kick_moves (h : Moves s t) : Moves s (State.kick t x1) := State.settle_moves (State.grantAll_moves h)

theorem State.enqueue_moves (h : Moves s t) : Moves s (State.enqueue t x1 x2 x3) := by
  unfold State.enqueue
  repeat' (with_reducible first
    | assumption | apply State.kick_moves | apply State.setQueue_moves | apply Moves.ite | split | dsimp only | simp only [id_eq])

theorem State.signalDone_moves (h : Moves s t) : Moves s (State.signalDone t x1 x2) := by
  unfold State.signalDone
  repeat' (with_reducible first | assumption | apply State.signal_moves | apply Moves.ite | split | dsimp only | simp only [id_eq])

theorem State.releaseWaiter_moves (h : Moves s t) : Moves s (State.releaseWaiter t x1 x2 x3) := by
  unfold State.releaseWaiter
  repeat' (with_reducible first | assumption | apply State.endWait_moves | apply Moves.ite | split | dsimp only | simp only [id_eq])

theorem State.releaseStalled_moves (h : Moves s t) : Moves s (State.releaseStalled t x1 x2 x3) := by
  unfold State.releaseStalled
  repeat' (with_reducible first
    | assumption | apply State.clearFlag_moves | apply State.setFlag_moves | apply State.setStall_moves | apply State.endWait_moves
      | apply Moves.ite | split | dsimp only | simp only [id_eq])

theorem State.completePhases_moves (h : Moves s t) : Moves s (State.completePhases c b n t) := by
  induction n generalizing t with
  | zero => exact h
  | succ n ih =>
    unfold State.completePhases
    dsimp only
    split
    · refine ih (.foldl (.foldl ?_ (fun _ _ hu => State.releaseStalled_moves hu) _) (fun _ _ hu => State.releaseWaiter_moves hu) _)
      exact State.bump_moves (.reg (State.setField_moves h) ..)
    · exact h

theorem State.settleBarrier_moves (h : Moves s t) : Moves s (State.settleBarrier t x1 x2) := by
  unfold State.settleBarrier
  repeat' (with_reducible first | assumption | apply State.completePhases_moves | apply Moves.ite | split | dsimp only | simp only [id_eq])

theorem State.barNonpart_moves (h : Moves s t) : Moves s (State.barNonpart t x1 x2) := by
  unfold State.barNonpart
  repeat' (with_reducible first
    | assumption | apply State.setFlag_moves | apply State.syncStop_moves | apply Moves.ite | split | dsimp only | simp only [id_eq])

theorem State.barArrive_moves (h : Moves s t) : Moves s (State.barArrive t x1 x2 x3) := by
  unfold State.barArrive
  repeat' (with_reducible first
    | assumption | apply State.setFlag_moves | apply State.settleBarrier_moves | apply State.beginWait_moves | apply State.bump_moves
      | apply Moves.ite | split | dsimp only | simp only [id_eq])

end Sys2Proof.Machine
end

