-- ==== Sys2Proof/Laws/MovesUnits.lean ====
section
/-! SUPPORT. That each operation is made of the updates of `Moves`: the fabric blocks and the units of a cluster. -/
namespace Sys2Proof.Machine
variable {s t : State}

/-! ## Fabric -/

theorem State.emitOn_moves (h : Moves s t) : Moves s (State.emitOn t x1 x2) := by
  unfold State.emitOn
  repeat' (with_reducible first
    | assumption | apply Moves.out | apply Moves.ite | split | dsimp only | simp only [id_eq])

theorem State.pump_moves (h : Moves s t) : Moves s (State.pump m l n t) := by
  induction n generalizing t with
  | zero => exact h
  | succ n ih =>
    unfold State.pump
    repeat' (with_reducible first | assumption | apply ih | apply Moves.out | apply Moves.port | split | dsimp only)

theorem State.toPort_moves (h : Moves s t) : Moves s (State.toPort t x1 x2 x3) := by
  unfold State.toPort
  repeat' (with_reducible first
    | assumption | apply State.pump_moves | apply Moves.port | apply Moves.ite | split | dsimp only | simp only [id_eq])

theorem State.dropPkt_moves (h : Moves s t) : Moves s (State.dropPkt t x1 x2 x3 x4 x5 x6) := by
  unfold State.dropPkt
  repeat' (with_reducible first
    | assumption | apply State.bump_moves | apply State.setFlag_moves | apply State.logAs_moves | apply Moves.ite | split | dsimp only
      | simp only [id_eq])

theorem State.forward_moves (h : Moves s t) : Moves s (State.forward t x1 x2 x3 x4) := by
  unfold State.forward
  repeat' (with_reducible first
    | assumption | apply State.dropPkt_moves | apply Moves.fabric | apply State.toPort_moves | apply State.bump_moves | apply Moves.ite
      | split | dsimp only | simp only [id_eq])

theorem State.inject_moves (h : Moves s t) : Moves s (State.inject t x1 x2) := by
  unfold State.inject
  repeat' (with_reducible first
    | assumption | apply State.bump_moves | apply State.dropPkt_moves | apply State.forward_moves | apply Moves.ite | split | dsimp only
      | simp only [id_eq] | apply Moves.other | exact Moves.tallyKeep (by assumption) (by rfl) (by rfl))

theorem State.outsideRead_moves (h : Moves s t) : Moves.fst s (State.outsideRead t x1 x2) := by
  unfold State.outsideRead
  repeat' (with_reducible first
    | assumption | apply State.log_moves | apply State.dramCorrected_moves | apply State.dramUncorrectable_moves
      | apply State.windowEcc_moves | apply Moves.fst_ite | apply Moves.ite | split | dsimp only | simp only [id_eq])

theorem State.slotRead_moves (h : Moves s t) : Moves.fst s (State.slotRead t x1 x2 x3 x4) := by
  unfold State.slotRead
  repeat' (with_reducible first
    | assumption | apply State.outsideRead_moves | apply State.faultSlot_moves | apply Moves.fst_ite | apply Moves.ite | split
      | dsimp only | simp only [id_eq])

theorem State.markComplete_moves (h : Moves s t) : Moves s (State.markComplete t x1 x2) := by
  unfold State.markComplete
  repeat' (with_reducible first
    | assumption | apply Moves.job | apply Moves.ite | split | dsimp only | simp only [id_eq])

theorem State.reduceInjected_moves (h : Moves s t) : Moves s (State.reduceInjected t x1 x2) := by
  unfold State.reduceInjected
  repeat' (with_reducible first
    | assumption | intro _ | apply State.bump_moves | apply Moves.landing | apply State.markComplete_moves | apply Moves.ite
      | apply Moves.foldl | apply Moves.foldl1 | split | dsimp only | simp only [id_eq])

theorem State.injectNext_moves (h : Moves s t) : Moves.fst s (State.injectNext t x1 x2) := by
  unfold State.injectNext
  repeat' (with_reducible first
    | assumption | apply State.inject_moves | apply Moves.fabric | apply State.reduceInjected_moves | apply Moves.fst_ite
      | apply Moves.ite | split | dsimp only | simp only [id_eq])

theorem State.injectMany_moves (h : Moves s t) : Moves s (State.injectMany c i n t) := by
  induction n generalizing t with
  | zero => exact h
  | succ n ih =>
    unfold State.injectMany
    dsimp only
    exact .ite (ih (State.injectNext_moves h)) (State.injectNext_moves h)

theorem State.startXfer_moves (h : Moves s t) : Moves s (State.startXfer t x1 x2) := by
  unfold State.startXfer
  repeat' (with_reducible first
    | assumption | apply Moves.fabric | apply State.injectMany_moves | apply Moves.ite | split | dsimp only | simp only [id_eq])

theorem State.sendControl_moves (h : Moves s t) : Moves s (State.sendControl t x1 x2 x3 x4 x5 x6 x7 x8) := by
  unfold State.sendControl
  repeat' (with_reducible first | assumption | apply State.inject_moves | apply Moves.ite | split | dsimp only | simp only [id_eq])

theorem State.countSent_moves (h : Moves s t) : Moves s (State.countSent t x1 x2) := by
  unfold State.countSent
  repeat' (with_reducible first | assumption | apply State.bump_moves | apply Moves.ite | split | dsimp only | simp only [id_eq])

theorem State.drainOutbox_moves (h : Moves s t) : Moves s (State.drainOutbox c n l t) := by
  induction n generalizing t l with
  | zero => exact h
  | succ n ih =>
    cases l with
    | nil => exact h
    | cons m l =>
      unfold State.drainOutbox
      dsimp only
      split
      · exact ih h
      · exact ih (State.startXfer_moves (State.countSent_moves (.job (.mailroom h ..) ..)))

theorem State.drain_moves (h : Moves s t) : Moves s (State.drain t x1) := by
  unfold State.drain
  repeat' (with_reducible first | assumption | apply State.drainOutbox_moves | apply Moves.ite | split | dsimp only | simp only [id_eq])

theorem State.post_moves (h : Moves s t) : Moves s (State.post t x1 x2) := by
  unfold State.post
  repeat' (with_reducible first
    | assumption | apply State.drain_moves | apply Moves.mailroom | apply Moves.ite | split | dsimp only | simp only [id_eq])

theorem State.takeMsg_moves (e : State.takeMsg t c p = some (m, u)) (h : Moves s t) : Moves s u := by
  unfold State.takeMsg at e
  dsimp only at e
  split at e
  · cases e
    exact .mailroom h ..
  · cases e

/-! ## Block -/

theorem State.enableWith_moves (h : Moves s t) (hf : ∀ u, Moves s u → Moves s (f u)) : Moves s (State.enableWith t b z f) := by
  unfold State.enableWith
  repeat' (with_reducible first | assumption | apply hf | apply State.log_moves | apply State.setFlag_moves | apply Moves.ite | split)

theorem State.disableWith_moves (h : Moves s t) (hf : ∀ u, Moves s u → Moves s (f u)) : Moves s (State.disableWith t b f) :=
  .ite (hf _ (State.clearFlag_moves h)) h

/-! ## Delivery -/

theorem State.setRx_moves (h : Moves s t) : Moves s (State.setRx t x1 x2) := by
  unfold State.setRx
  repeat' (with_reducible first | assumption | apply Moves.fabric | apply Moves.ite | split | dsimp only | simp only [id_eq])

theorem State.ackRx_moves (h : Moves s t) : Moves s (State.ackRx t x1 x2) := by
  unfold State.ackRx
  repeat' (with_reducible first | assumption | apply State.sendControl_moves | apply Moves.ite | split | dsimp only | simp only [id_eq])

theorem State.signalExpects_moves (h : Moves s t) : Moves s (State.signalExpects t x1) := by
  unfold State.signalExpects
  repeat' (with_reducible first
    | assumption | apply Moves.job | apply State.signal_moves | apply Moves.ite | split | dsimp only | simp only [id_eq])

theorem State.countBatch_moves (h : Moves s t) : Moves s (State.countBatch t x1 x2 x3) := by
  unfold State.countBatch
  repeat' (with_reducible first | assumption | apply Moves.job | apply Moves.ite | split | dsimp only | simp only [id_eq])

theorem State.handOver_moves (h : Moves s t) : Moves s (State.handOver i j src flow n t) := by
  induction n generalizing t with
  | zero => exact h
  | succ n ih =>
    unfold State.handOver
    repeat' (with_reducible first
      | assumption | apply ih | apply State.countBatch_moves | apply Moves.fabric | apply State.setRx_moves | apply Moves.mailroom
        | split | dsimp only)

theorem State.completeRx_moves (h : Moves s t) : Moves s (State.completeRx t x1 x2 x3) := by
  unfold State.completeRx
  repeat' (with_reducible first
    | assumption | intro _ | apply State.ackRx_moves | apply State.setRx_moves | apply State.signalExpects_moves
      | apply State.handOver_moves | apply State.markComplete_moves | apply Moves.ite | apply Moves.foldl | apply Moves.foldl1
      | split | dsimp only | simp only [id_eq])

theorem State.takePacket_moves (h : Moves s t) : Moves s (State.takePacket t x1 x2 x3 x4) := by
  unfold State.takePacket
  repeat' (with_reducible first
    | assumption | apply State.setRx_moves | apply State.bump_moves | apply State.completeRx_moves
      | apply State.outsideWrite_moves | apply State.setFlag_moves | apply State.log_moves | apply Moves.ite | split
      | dsimp only | simp only [id_eq])

theorem State.deliverData_moves (h : Moves s t) : Moves s (State.deliverData t x1 x2 x3 x4) := by
  unfold State.deliverData
  repeat' (with_reducible first
    | assumption | apply State.takePacket_moves | apply State.ackRx_moves | apply State.bump_moves | apply State.setRx_moves
      | apply Moves.ite | split | dsimp only | simp only [id_eq])

theorem State.deliverPkt_moves (h : Moves s t) : Moves s (State.deliverPkt t x1 x2) := by
  unfold State.deliverPkt
  repeat' (with_reducible first
    | assumption | apply State.dropPkt_moves | apply State.deliverData_moves | apply State.bump_moves | apply Moves.fabric
      | apply Moves.ite | split | dsimp only | simp only [id_eq])

theorem State.transit_moves (h : Moves s t) : Moves s (State.transit t x1 x2 x3 x4) := by
  unfold State.transit
  repeat' (with_reducible first
    | assumption | apply State.dropPkt_moves | apply State.forward_moves | apply State.bump_moves | apply Moves.ite | split | dsimp only
      | simp only [id_eq])

theorem State.ingress_moves (h : Moves s t) : Moves s (State.ingress t x1 x2 x3 x4) := by
  unfold State.ingress
  repeat' (with_reducible first
    | assumption | apply State.dropPkt_moves | apply State.bump_moves | apply State.transit_moves | apply State.deliverPkt_moves | apply Moves.ite | split
      | dsimp only | simp only [id_eq])

theorem execPacketReceive_moves : OutMoves t (execPacketReceive x0 t) := by
  have h := Moves.refl (s := t)
  unfold execPacketReceive
  repeat' (with_reducible first
    | assumption | apply State.ingress_moves | apply State.deliverPkt_moves | apply OutMoves.mk | apply OutMoves.ite | apply Moves.ite
      | split | dsimp only | simp only [id_eq] | apply Moves.other | exact Moves.tallyKeep (by assumption) (by rfl) (by rfl))

theorem State.takeArrived_moves (e : State.takeArrived t i p = some (m, u)) (h : Moves s t) : Moves s u := by
  unfold State.takeArrived at e
  dsimp only at e
  split at e
  · cases e
  · obtain ⟨_, _, hp⟩ := Option.map_eq_some_iff.mp e
    cases hp
    exact .fabric h ..

theorem execAckReceive_moves : OutMoves t (execAckReceive x0 t) := by
  have h := Moves.refl (s := t)
  unfold execAckReceive
  repeat' (with_reducible first
    | assumption | exact State.takeArrived_moves (by assumption) (by assumption) | apply Moves.fabric | apply State.bump_moves
      | apply OutMoves.mk | apply OutMoves.ite | apply Moves.ite | split | dsimp only | simp only [id_eq])

theorem State.resend_moves (h : Moves s t) : Moves s (State.resend t x1 x2 x3) := by
  unfold State.resend
  repeat' (with_reducible first
    | assumption | intro _ | apply State.inject_moves | apply Moves.ite | apply Moves.foldl | apply Moves.foldl1 | split | dsimp only
      | simp only [id_eq])

theorem execNackReceive_moves : OutMoves t (execNackReceive x0 t) := by
  have h := Moves.refl (s := t)
  unfold execNackReceive
  repeat' (with_reducible first
    | assumption | exact State.takeArrived_moves (by assumption) (by assumption) | apply State.bump_moves | apply Moves.fabric
      | apply State.resend_moves | apply OutMoves.mk | apply OutMoves.ite | apply Moves.ite | split | dsimp only | simp only [id_eq])

theorem State.failXfer_moves (h : Moves s t) : Moves s (State.failXfer t x1 x2 x3) := by
  unfold State.failXfer
  repeat' (with_reducible first
    | assumption | apply State.log_moves | apply State.faultJob_moves | apply State.bump_moves | apply State.setFlag_moves
      | apply Moves.ite | split | dsimp only | simp only [id_eq])

theorem execGapTimerExpiry_moves : OutMoves t (execGapTimerExpiry x0 x1 t) := by
  have h := Moves.refl (s := t)
  unfold execGapTimerExpiry
  repeat' (with_reducible first
    | assumption | apply State.failXfer_moves | apply State.setRx_moves | apply State.bump_moves | apply State.sendControl_moves
      | apply OutMoves.mk | apply OutMoves.ite | apply Moves.ite | split | dsimp only | simp only [id_eq])

theorem execAckTimerExpiry_moves : OutMoves t (execAckTimerExpiry x0 x1 t) := by
  have h := Moves.refl (s := t)
  unfold execAckTimerExpiry
  repeat' (with_reducible first
    | assumption | apply State.failXfer_moves | apply Moves.fabric | apply State.resend_moves | apply State.bump_moves
      | apply OutMoves.mk | apply OutMoves.ite | apply Moves.ite | split | dsimp only | simp only [id_eq])

theorem execPacketInject_moves : OutMoves t (execPacketInject x0 t) := by
  have h := Moves.refl (s := t)
  unfold execPacketInject
  repeat' (with_reducible first
    | assumption | apply State.injectNext_moves | apply State.slotRead_moves | apply State.outsideRead_moves
      | apply OutMoves.mk | apply OutMoves.ite | apply Moves.ite | split | dsimp only | simp only [id_eq])

theorem execCreditReturn_moves : OutMoves t (execCreditReturn x0 x1 t) := by
  have h := Moves.refl (s := t)
  unfold execCreditReturn
  repeat' (with_reducible first
    | assumption | apply State.pump_moves | apply Moves.port | apply OutMoves.mk | apply OutMoves.ite | apply Moves.ite | split
      | dsimp only | simp only [id_eq])

theorem State.markDone_moves (h : Moves s t) : Moves s (State.markDone t x1 x2) := by
  unfold State.markDone
  repeat' (with_reducible first | assumption | apply Moves.job | apply Moves.ite | split | dsimp only | simp only [id_eq])

theorem execPlanSend_moves : OutMoves t (execPlanSend x0 x1 x2 x3 t) := by
  have h := Moves.refl (s := t)
  unfold execPlanSend
  repeat' (with_reducible first
    | assumption | apply State.markDone_moves | apply State.takeWait_moves | apply State.startXfer_moves
      | apply State.slotRead_moves | apply OutMoves.mk | apply OutMoves.ite | apply Moves.ite | split | dsimp only
      | simp only [id_eq])

theorem execPlanExpect_moves : OutMoves t (execPlanExpect x0 x1 x2 t) := by
  have h := Moves.refl (s := t)
  unfold execPlanExpect
  repeat' (with_reducible first
    | assumption | apply State.markDone_moves | apply Moves.job | apply State.signalExpects_moves | apply State.setRx_moves
      | apply OutMoves.mk | apply OutMoves.ite | apply Moves.ite | split | dsimp only | simp only [id_eq])

theorem execWindowOpen_moves : OutMoves t (execWindowOpen x0 x1 x2 t) := by
  have h := Moves.refl (s := t)
  unfold execWindowOpen
  repeat' (with_reducible first
    | assumption | intro _ | apply State.markDone_moves | apply State.drain_moves | apply Moves.job | apply State.opened_moves
      | apply OutMoves.mk | apply OutMoves.ite | apply Moves.ite | apply Moves.foldl | apply Moves.foldl1 | split | dsimp only
      | simp only [id_eq])

theorem State.tilStart_moves (h : Moves s t) : Moves s (State.tilStart t x1) := by
  unfold State.tilStart
  repeat' (with_reducible first
    | assumption | intro _ | apply Moves.fabric | apply State.drain_moves | apply Moves.ite | apply Moves.foldl | apply Moves.foldl1
      | split | dsimp only | simp only [id_eq])

theorem State.dropLoop_moves (h : Moves s t) : Moves s (State.dropLoop t x1) := .other h ..

theorem State.tilStop_moves (h : Moves s t) : Moves s (State.tilStop t x1) := by
  unfold State.tilStop
  repeat' (with_reducible first
    | assumption | intro _ | apply Moves.fabric | apply Moves.port | apply State.dropLoop_moves | apply Moves.ite
      | apply Moves.foldl | apply Moves.foldl1 | split | dsimp only | simp only [id_eq])

theorem execTilEnable_moves : OutMoves t (execTilEnable x0 t) := by
  have h := Moves.refl (s := t)
  unfold execTilEnable
  repeat' (with_reducible first
    | assumption | intro _ | apply State.enableWith_moves | apply State.tilStart_moves | apply OutMoves.mk | apply OutMoves.ite
      | apply Moves.ite | split | dsimp only | simp only [id_eq])

theorem execTilDisable_moves : OutMoves t (execTilDisable x0 t) := by
  have h := Moves.refl (s := t)
  unfold execTilDisable
  repeat' (with_reducible first
    | assumption | intro _ | apply State.disableWith_moves | apply State.tilStop_moves | apply OutMoves.mk | apply OutMoves.ite
      | apply Moves.ite | split | dsimp only | simp only [id_eq])

/-! ## Cruiser -/

theorem State.unitWrite_moves (h : Moves s t) : Moves s (State.unitWrite t x1 x2 x3) := by
  unfold State.unitWrite
  repeat' (with_reducible first
    | assumption | apply State.clusterWrite_moves | apply Moves.ite | split | dsimp only | simp only [id_eq])

theorem State.cruQueueHi_moves (h : Moves s t) : Moves s (State.cruQueueHi t x1 x2) := by
  unfold State.cruQueueHi
  repeat' (with_reducible first
    | assumption | apply Moves.cruiser | apply State.log_moves | apply State.setFlag_moves | apply Moves.ite | split | dsimp only
      | simp only [id_eq])

theorem State.cruDone_moves (h : Moves s t) : Moves s (State.cruDone t x1 x2) := by
  unfold State.cruDone
  repeat' (with_reducible first
    | assumption | apply State.faultCluster_moves | apply State.signalDone_moves | apply Moves.ite | split | dsimp only
      | simp only [id_eq])

theorem State.cruRefuse_moves (h : Moves s t) : Moves s (State.cruRefuse t x1 x2 x3 x4) := by
  unfold State.cruRefuse
  repeat' (with_reducible first
    | assumption | apply State.unitWrite_moves | apply State.log_moves | apply State.setFlag_moves | apply State.cruDone_moves
      | apply State.bump_moves | apply Moves.ite | split | dsimp only | simp only [id_eq])

theorem State.settleSlot_moves (h : Moves s t) : Moves.fst s (State.settleSlot t x1 x2 x3 x4) := by
  unfold State.settleSlot
  repeat' (with_reducible first
    | assumption | apply State.bump_moves | apply State.touchLines_moves | apply Moves.fst_ite | apply Moves.ite | split
      | dsimp only | simp only [id_eq])

theorem State.settleSlots_moves (h : Moves s t) : Moves.fst s (State.settleSlots c d l t p) := by
  induction l generalizing t p with
  | nil => exact h
  | cons v l ih => exact ih (State.settleSlot_moves h)

theorem State.postRequest_moves (h : Moves s t) : Moves s (State.postRequest t x1 x2 x3) := by
  unfold State.postRequest
  repeat' (with_reducible first | assumption | apply State.post_moves | apply Moves.ite | split | dsimp only | simp only [id_eq])

theorem State.issueFetches_moves (h : Moves s t) : Moves s (State.issueFetches c n t) := by
  induction n generalizing t with
  | zero => exact h
  | succ n ih =>
    unfold State.issueFetches
    repeat' (with_reducible first | assumption | apply ih | apply State.bump_moves | apply Moves.cruiser | split | dsimp only)

theorem State.fetchMore_moves (h : Moves s t) : Moves s (State.fetchMore t x1) := by
  unfold State.fetchMore
  repeat' (with_reducible first | assumption | apply State.issueFetches_moves | apply Moves.ite | split | dsimp only | simp only [id_eq])

theorem State.finishPlot_moves (h : Moves s t) : Moves s (State.finishPlot t x1 x2 x3) := by
  unfold State.finishPlot
  repeat' (with_reducible first
    | assumption | apply State.unitWrite_moves | apply State.bump_moves | apply State.cruDone_moves | apply Moves.cruiser
      | apply Moves.ite | split | dsimp only | simp only [id_eq])

theorem State.advancePlot_moves (h : Moves s t) : Moves s (State.advancePlot c n t) := by
  induction n generalizing t with
  | zero => exact h
  | succ n ih =>
    unfold State.advancePlot
    split
    · exact h
    · refine .ite h (.ite (State.finishPlot_moves h) (.ite (State.finishPlot_moves h) (ih (State.fetchMore_moves ?_))))
      exact .foldl (.cruiser h ..) (fun _ _ hu => State.postRequest_moves hu) _

theorem State.segmentSeeds_moves (h : Moves s t) : Moves.fst s (State.segmentSeeds c d l t p) := by
  induction l generalizing t p with
  | nil => exact h
  | cons i l ih =>
    refine ih ?_
    dsimp only
    split
    · exact State.log_moves (State.setFlag_moves (State.bump_moves (State.bump_moves (State.touchLines_moves h))))
    · split
      · exact State.bump_moves (State.touchLines_moves h)
      · exact State.settleSlot_moves (State.touchLines_moves h)

theorem State.beginPlot_moves (h : Moves s t) : Moves s (State.beginPlot t x1 x2 x3 x4) := by
  unfold State.beginPlot
  repeat' (with_reducible first
    | assumption | intro _ | apply State.bump_moves | apply State.segmentSeeds_moves | apply State.settleSlots_moves
      | apply Moves.cruiser | apply State.postRequest_moves | apply State.advancePlot_moves | apply State.fetchMore_moves
      | apply State.clusterRead_moves | apply Moves.ite | apply Moves.foldl | apply Moves.foldl1 | split | dsimp only
      | simp only [id_eq])

theorem State.cruStart_moves (h : Moves s t) : Moves s (State.cruStart t x1) := by
  unfold State.cruStart
  repeat' (with_reducible first
    | assumption | apply Moves.cruiser | apply State.faultCluster_moves | apply State.log_moves | apply State.setFlag_moves
      | apply State.cruRefuse_moves | apply State.beginPlot_moves | apply State.clusterRead_moves
      | apply State.readRanges_moves | apply Moves.ite | split | dsimp only | simp only [id_eq])

theorem State.countAct_moves (h : Moves s t) : Moves s (State.countAct t x1 x2 x3 x4) := by
  unfold State.countAct
  repeat' (with_reducible first
    | assumption | apply State.bump_moves | apply State.log_moves | apply State.setFlag_moves | apply Moves.ite | split | dsimp only
      | simp only [id_eq])

theorem State.applyAct_moves (h : Moves s t) : Moves.fst s (State.applyAct t x1 x2 x3 x4 x5) := by
  unfold State.applyAct
  repeat' (with_reducible first
    | assumption | intro _ | apply State.bump_moves | apply State.settleSlots_moves | apply Moves.fst_ite | apply Moves.ite
      | apply Moves.foldl | apply Moves.foldl1 | split | dsimp only | simp only [id_eq])

theorem State.ownAct_moves (h : Moves s t) : Moves s (State.ownAct t x1 x2) := by
  unfold State.ownAct
  repeat' (with_reducible first
    | assumption | apply State.countAct_moves | apply State.applyAct_moves | apply Moves.cruiser | apply State.touchLines_moves
      | apply Moves.ite | split | dsimp only | simp only [id_eq])

theorem State.sendReplies_moves (h : Moves s t) : Moves s (State.sendReplies t x1) := by
  unfold State.sendReplies
  repeat' (with_reducible first
    | assumption | intro _ | apply Moves.cruiser | apply State.post_moves | apply Moves.ite | apply Moves.foldl | apply Moves.foldl1
      | split | dsimp only | simp only [id_eq])

theorem State.servedAct_moves (h : Moves s t) : Moves s (State.servedAct t x1 x2 x3) := by
  unfold State.servedAct
  repeat' (with_reducible first
    | assumption | apply State.countAct_moves | apply State.bump_moves | apply State.sendReplies_moves | apply Moves.cruiser
      | apply State.touchLines_moves | apply Moves.ite | split | dsimp only | simp only [id_eq])

theorem State.fetchDone_moves (h : Moves s t) : Moves s (State.fetchDone t x1 x2 x3) := by
  unfold State.fetchDone
  repeat' (with_reducible first
    | assumption | apply State.bump_moves | apply Moves.cruiser | apply State.ownAct_moves | apply State.servedAct_moves
      | apply State.advancePlot_moves | apply State.fetchMore_moves | apply Moves.ite | split | dsimp only | simp only [id_eq])

theorem State.cruDiscard_moves (h : Moves s t) : Moves s (State.cruDiscard t x1 x2 x3) := by
  unfold State.cruDiscard
  repeat' (with_reducible first
    | assumption | apply State.setFlag_moves | apply State.bump_moves | apply State.log_moves | apply State.faultCluster_moves
      | apply Moves.ite | split | dsimp only | simp only [id_eq])

theorem State.serveBatch_moves (h : Moves s t) : Moves s (State.serveBatch t x1 x2) := by
  unfold State.serveBatch
  repeat' (with_reducible first
    | assumption | apply State.bump_moves | apply State.log_moves | apply Moves.cruiser | apply State.sendReplies_moves
      | apply State.fetchMore_moves | apply State.readRanges_moves | apply Moves.ite | split | dsimp only | simp only [id_eq])

theorem State.cruBatchReceive_moves (h : Moves s t) : Moves s (State.cruBatchReceive t x1 x2) := by
  unfold State.cruBatchReceive
  repeat' (with_reducible first
    | assumption | apply State.cruDiscard_moves | apply State.serveBatch_moves | apply State.unitRead_moves | apply Moves.ite
      | exact State.takeMsg_moves (by assumption) (by assumption) | split | dsimp only | simp only [id_eq])

theorem State.takeReply_moves (h : Moves s t) : Moves s (State.takeReply t x1 x2 x3 x4) := by
  unfold State.takeReply
  repeat' (with_reducible first
    | assumption | intro _ | apply State.applyAct_moves | apply State.advancePlot_moves | apply Moves.cruiser | apply Moves.ite
      | apply Moves.foldl | apply Moves.foldl1 | split | dsimp only | simp only [id_eq])

theorem State.cruReplyReceive_moves (h : Moves s t) : Moves s (State.cruReplyReceive t x1 x2) := by
  unfold State.cruReplyReceive
  repeat' (with_reducible first
    | assumption | intro _ | apply State.cruDiscard_moves | apply Moves.cruiser | apply State.unitRead_moves
      | apply State.takeReply_moves | apply Moves.ite | apply Moves.foldl | apply Moves.foldl1
      | exact State.takeMsg_moves (by assumption) (by assumption) | split | dsimp only | simp only [id_eq])

theorem execCruQueueHiWrite_moves : OutMoves t (execCruQueueHiWrite x0 x1 t) := by
  have h := Moves.refl (s := t)
  unfold execCruQueueHiWrite
  repeat' (with_reducible first
    | assumption | apply State.cruQueueHi_moves | apply OutMoves.mk | apply OutMoves.ite | apply Moves.ite | split | dsimp only
      | simp only [id_eq])

theorem execCruiseDescriptorStart_moves : OutMoves t (execCruiseDescriptorStart x0 t) := by
  have h := Moves.refl (s := t)
  unfold execCruiseDescriptorStart
  repeat' (with_reducible first
    | assumption | apply State.cruStart_moves | apply State.unitRead_moves | apply OutMoves.mk | apply OutMoves.ite
      | apply Moves.ite | split | dsimp only | simp only [id_eq])

theorem execAdjacencyFetchDone_moves : OutMoves t (execAdjacencyFetchDone x0 x1 x2 t) := by
  have h := Moves.refl (s := t)
  unfold execAdjacencyFetchDone
  repeat' (with_reducible first
    | assumption | apply State.fetchDone_moves | apply State.unitRead_moves | apply OutMoves.mk
      | apply OutMoves.ite | apply Moves.ite | split | dsimp only | simp only [id_eq])

theorem execCruiseBatchReceive_moves : OutMoves t (execCruiseBatchReceive x0 t) := by
  have h := Moves.refl (s := t)
  unfold execCruiseBatchReceive
  repeat' (with_reducible first
    | assumption | apply State.cruBatchReceive_moves | apply OutMoves.mk | apply OutMoves.ite | apply Moves.ite | split | dsimp only
      | simp only [id_eq])

theorem execCruiseReplyReceive_moves : OutMoves t (execCruiseReplyReceive x0 t) := by
  have h := Moves.refl (s := t)
  unfold execCruiseReplyReceive
  repeat' (with_reducible first
    | assumption | apply State.cruReplyReceive_moves | apply OutMoves.mk | apply OutMoves.ite | apply Moves.ite | split | dsimp only
      | simp only [id_eq])

/-! ## Trail -/

theorem State.allocTrail_moves (h : Moves s t) : Moves s (State.allocTrail t x1 x2) := by
  unfold State.allocTrail
  repeat' (with_reducible first
    | assumption | apply State.bump_moves | apply Moves.sillage | apply Moves.ite | split | dsimp only | simp only [id_eq])

theorem State.releaseTrail_moves (h : Moves s t) : Moves s (State.releaseTrail t x1 x2) := by
  unfold State.releaseTrail
  repeat' (with_reducible first | assumption | apply Moves.sillage | apply Moves.ite | split | dsimp only | simp only [id_eq])

theorem State.countLost_moves (h : Moves s t) : Moves s (State.countLost t x1 x2) := by
  unfold State.countLost
  repeat' (with_reducible first
    | assumption | apply State.log_moves | apply State.setFlag_moves | apply State.bump_moves | apply Moves.ite | split | dsimp only
      | simp only [id_eq])

theorem State.openTrail_moves (h : Moves s t) : Moves.fst s (State.openTrail t c d) := by
  unfold State.openTrail
  extract_lets u v
  have hu : Moves s u := by
    dsimp only [u]
    split
    · exact State.countLost_moves (State.releaseTrail_moves h)
    · exact h
  exact Moves.fst_ite (State.countLost_moves hu) (State.allocTrail_moves (.sillage hu ..))

theorem State.writeEntries_moves (h : Moves s t) : Moves s (State.writeEntries c l o t) := by
  induction l generalizing t o with
  | nil => exact h
  | cons e l ih => exact ih (State.unitWrite_moves h)

theorem State.completeTrail_moves (h : Moves s t) : Moves s (State.completeTrail t x1 x2 x3) := by
  unfold State.completeTrail
  repeat' (with_reducible first
    | assumption | apply State.writeEntries_moves | apply State.bump_moves | apply Moves.sillage | apply Moves.ite | split | dsimp only
      | simp only [id_eq])

/-! ## RowCache -/

theorem State.pfDrop_moves (h : Moves s t) : Moves s (State.pfDrop t x1) := by
  unfold State.pfDrop
  repeat' (with_reducible first
    | assumption | apply State.setFlag_moves | apply State.bump_moves | apply Moves.ite | split | dsimp only | simp only [id_eq])

theorem State.rrcWrite_moves (h : Moves s t) : Moves s (State.rrcWrite t x1 x2 x3 x4 x5 x6) := by
  unfold State.rrcWrite
  repeat' (with_reducible first | assumption | apply State.unitWrite_moves | apply Moves.ite | split | dsimp only | simp only [id_eq])

theorem State.rrcFill_moves (h : Moves s t) : Moves s (State.rrcFill t x1 x2 x3 x4 x5 x6 x7) := by
  unfold State.rrcFill
  repeat' (with_reducible first
    | assumption | apply State.rrcWrite_moves | apply State.pfDrop_moves | apply Moves.skidder | apply Moves.ite | split | dsimp only
      | simp only [id_eq])

/-! ## Skidder -/

theorem State.skdQueueHi_moves (h : Moves s t) : Moves s (State.skdQueueHi t x1 x2) := by
  unfold State.skdQueueHi
  repeat' (with_reducible first
    | assumption | apply Moves.skidder | apply State.log_moves | apply State.setFlag_moves | apply Moves.ite | split | dsimp only
      | simp only [id_eq])

theorem State.issuePages_moves (h : Moves s t) : Moves s (State.issuePages c n t) := by
  induction n generalizing t with
  | zero => exact h
  | succ n ih =>
    unfold State.issuePages
    repeat' (with_reducible first | assumption | apply ih | apply State.bump_moves | apply Moves.skidder | split | dsimp only)

theorem State.morePages_moves (h : Moves s t) : Moves s (State.morePages t x1) := by
  unfold State.morePages
  repeat' (with_reducible first | assumption | apply State.issuePages_moves | apply Moves.ite | split | dsimp only | simp only [id_eq])

theorem State.wantChunk_moves (h : Moves s t) : Moves s (State.wantChunk x0 x1 t x3) := by
  unfold State.wantChunk
  repeat' (with_reducible first
    | assumption | apply State.bump_moves | apply Moves.skidder | apply Moves.ite | split | dsimp only | simp only [id_eq])

theorem State.setHaul_moves (h : Moves s t) : Moves s (State.setHaul t x1 x2) := by
  unfold State.setHaul
  repeat' (with_reducible first | assumption | apply Moves.skidder | apply Moves.ite | split | dsimp only | simp only [id_eq])

theorem State.groupDone_moves (h : Moves s t) : Moves s (State.groupDone t x1 x2 x3 x4) := by
  unfold State.groupDone
  repeat' (with_reducible first
    | assumption | apply State.unitWrite_moves | apply State.setHaul_moves | apply Moves.ite | split | dsimp only | simp only [id_eq])

theorem State.recordDone_moves (h : Moves s t) : Moves s (State.recordDone t x1 x2 x3 x4 x5 x6) := by
  unfold State.recordDone
  repeat' (with_reducible first
    | assumption | apply State.bump_moves | apply Moves.skidder | apply Moves.ite | split | dsimp only | simp only [id_eq])

theorem State.rowDeleted_moves (h : Moves s t) : Moves s (State.rowDeleted t x1 x2 x3) := by
  unfold State.rowDeleted
  repeat' (with_reducible first
    | assumption | apply State.groupDone_moves | apply State.recordDone_moves | apply Moves.ite | split | dsimp only
      | simp only [id_eq])

theorem State.rowArrived_moves (h : Moves s t) : Moves s (State.rowArrived t x1 x2) := by
  unfold State.rowArrived
  repeat' (with_reducible first
    | assumption | intro _ | apply State.groupDone_moves | apply State.bump_moves | apply State.recordDone_moves
      | apply State.clusterRead_moves | apply Moves.ite | apply Moves.foldl | apply Moves.foldl1 | split | dsimp only
      | simp only [id_eq])

theorem State.wantRow_moves (h : Moves s t) : Moves s (State.wantRow t x1 x2 x3 x4 x5) := by
  unfold State.wantRow
  repeat' (with_reducible first
    | assumption | intro _ | apply Moves.skidder | apply State.wantChunk_moves | apply Moves.ite | apply Moves.foldl
      | apply Moves.foldl1 | split | dsimp only | simp only [id_eq])

theorem State.beginRead_moves (h : Moves s t) : Moves s (State.beginRead t x1 x2) := by
  unfold State.beginRead
  repeat' (with_reducible first
    | assumption | intro _ | apply State.rowDeleted_moves | apply State.recordDone_moves | apply Moves.skidder
      | apply State.wantRow_moves | apply State.clusterRead_moves | apply State.unitRead_moves | apply Moves.ite
      | apply Moves.foldl | apply Moves.foldl1 | split | dsimp only | simp only [id_eq])

theorem State.beginReads_moves (h : Moves s t) : Moves s (State.beginReads t x1) := by
  unfold State.beginReads
  repeat' (with_reducible first
    | assumption | intro _ | apply Moves.skidder | apply State.beginRead_moves | apply Moves.ite | apply Moves.foldl | apply Moves.foldl1
      | split | dsimp only | simp only [id_eq])

theorem State.sendAsks_moves (h : Moves s t) : Moves s (State.sendAsks t x1 x2 x3 x4 x5) := by
  unfold State.sendAsks
  repeat' (with_reducible first
    | assumption | apply Moves.skidder | apply State.post_moves | apply Moves.ite | split | dsimp only | simp only [id_eq])

theorem State.closeHauls_moves (h : Moves s t) : Moves s (State.closeHauls t x1 x2) := by
  unfold State.closeHauls
  repeat' (with_reducible first
    | assumption | intro _ | apply Moves.skidder | apply State.sendAsks_moves | apply Moves.ite | apply Moves.foldl | apply Moves.foldl1
      | split | dsimp only | simp only [id_eq])

theorem State.writePooled_moves (h : Moves s t) : Moves s (State.writePooled t x1 x2 x3) := by
  unfold State.writePooled
  repeat' (with_reducible first
    | assumption | intro _ | apply State.unitWrite_moves | apply Moves.ite | apply Moves.foldl | apply Moves.foldl1 | split | dsimp only
      | simp only [id_eq])

theorem State.clearMaskBit_moves (h : Moves s t) : Moves s (State.clearMaskBit t x1 x2 x3) := by
  unfold State.clearMaskBit
  repeat' (with_reducible first | assumption | apply State.unitWrite_moves | apply Moves.ite | split | dsimp only | simp only [id_eq])

theorem State.skdDone_moves (h : Moves s t) : Moves s (State.skdDone t x1 x2) := by
  unfold State.skdDone
  repeat' (with_reducible first
    | assumption | apply State.bump_moves | apply State.faultCluster_moves | apply State.signalDone_moves | apply Moves.ite
      | split | dsimp only | simp only [id_eq])

theorem State.finishHaul_moves (h : Moves s t) : Moves s (State.finishHaul t x1 x2) := by
  unfold State.finishHaul
  repeat' (with_reducible first
    | assumption | intro _ | apply State.unitWrite_moves | apply State.writePooled_moves | apply State.clearMaskBit_moves
      | apply State.completeTrail_moves | apply State.bump_moves | apply State.skdDone_moves | apply Moves.skidder | apply Moves.ite
      | apply Moves.foldl | apply Moves.foldl1 | split | dsimp only | simp only [id_eq])

theorem State.finishPrefetch_moves (h : Moves s t) : Moves s (State.finishPrefetch t x1 x2) := by
  unfold State.finishPrefetch
  repeat' (with_reducible first
    | assumption | apply State.unitWrite_moves | apply Moves.skidder | apply State.skdDone_moves | apply Moves.ite | split
      | dsimp only | simp only [id_eq])

theorem State.tryFinish_moves (h : Moves s t) : Moves s (State.tryFinish x0 t x2) := by
  unfold State.tryFinish
  repeat' (with_reducible first
    | assumption | apply State.finishPrefetch_moves | apply State.finishHaul_moves | apply Moves.ite | split | dsimp only
      | simp only [id_eq])

theorem State.finishHauls_moves (h : Moves s t) : Moves s (State.finishHauls t x1) := by
  unfold State.finishHauls
  repeat' (with_reducible first
    | assumption | intro _ | apply State.tryFinish_moves | apply Moves.ite | apply Moves.foldl | apply Moves.foldl1 | split
      | dsimp only | simp only [id_eq])

theorem State.sendHaulReplies_moves (h : Moves s t) : Moves s (State.sendHaulReplies t x1) := by
  unfold State.sendHaulReplies
  repeat' (with_reducible first
    | assumption | intro _ | apply Moves.skidder | apply State.post_moves | apply Moves.ite | apply Moves.foldl | apply Moves.foldl1
      | split | dsimp only | simp only [id_eq])

theorem State.skdKick_moves (h : Moves s t) : Moves s (State.skdKick t x1) := by
  unfold State.skdKick
  repeat' (with_reducible first
    | assumption | apply State.sendHaulReplies_moves | apply State.finishHauls_moves | apply State.morePages_moves
      | apply State.beginReads_moves | apply Moves.ite | split | dsimp only | simp only [id_eq])

theorem State.skdRefuse_moves (h : Moves s t) : Moves s (State.skdRefuse t x1 x2 x3 x4) := by
  unfold State.skdRefuse
  repeat' (with_reducible first
    | assumption | apply State.unitWrite_moves | apply State.log_moves | apply State.setFlag_moves | apply State.releaseTrail_moves
      | apply State.skdDone_moves | apply Moves.ite | split | dsimp only | simp only [id_eq])

theorem State.runPrefetch_moves (h : Moves s t) : Moves s (State.runPrefetch t x1 x2) := by
  unfold State.runPrefetch
  repeat' (with_reducible first
    | assumption | intro _ | apply State.bump_moves | apply State.sendAsks_moves | apply Moves.skidder | apply Moves.ite
      | apply Moves.foldl | apply Moves.foldl1 | split | dsimp only | simp only [id_eq])

theorem State.runHaul_moves (h : Moves s t) : Moves s (State.runHaul t x1 x2) := by
  unfold State.runHaul
  repeat' (with_reducible first
    | assumption | apply Moves.skidder | apply State.bump_moves | apply Moves.ite | split | dsimp only | simp only [id_eq])

theorem State.beginHaul_moves (h : Moves s t) : Moves s (State.beginHaul t x1 x2 x3 x4 x5) := by
  unfold State.beginHaul
  repeat' (with_reducible first
    | assumption | apply State.bump_moves | apply State.skdRefuse_moves | apply Moves.skidder | apply State.runPrefetch_moves
      | apply State.runHaul_moves | apply Moves.ite | split | dsimp only | simp only [id_eq])

theorem State.skdStart_moves (h : Moves s t) : Moves s (State.skdStart t x1) := by
  unfold State.skdStart
  repeat' (with_reducible first
    | assumption | apply Moves.skidder | apply State.openTrail_moves | apply State.log_moves | apply State.setFlag_moves
      | apply State.releaseTrail_moves | apply State.faultCluster_moves | apply State.beginHaul_moves
      | apply State.skdRefuse_moves | apply State.closeHauls_moves | apply State.skdKick_moves | apply State.readRanges_moves
      | apply Moves.ite | split | dsimp only | simp only [id_eq])

theorem State.restartRead_moves (h : Moves s t) : Moves s (State.restartRead t x1 x2) := by
  unfold State.restartRead
  repeat' (with_reducible first | assumption | apply State.beginRead_moves | apply Moves.ite | split | dsimp only | simp only [id_eq])

theorem State.chunkDone_moves (h : Moves s t) : Moves s (State.chunkDone t x1 x2) := by
  unfold State.chunkDone
  repeat' (with_reducible first
    | assumption | intro _ | apply Moves.skidder | apply State.restartRead_moves | apply State.rowArrived_moves | apply Moves.ite
      | apply Moves.foldl | apply Moves.foldl1 | split | dsimp only | simp only [id_eq])

theorem State.pageDone_moves (h : Moves s t) : Moves s (State.pageDone t x1 x2 x3 x4) := by
  unfold State.pageDone
  repeat' (with_reducible first
    | assumption | apply Moves.skidder | apply State.skdKick_moves | apply State.chunkDone_moves | apply State.unitRead_moves
      | apply Moves.ite | split | dsimp only | simp only [id_eq])

theorem State.rowRestart_moves (h : Moves s t) : Moves s (State.rowRestart t x1 x2) := by
  unfold State.rowRestart
  repeat' (with_reducible first
    | assumption | apply State.skdKick_moves | apply State.restartRead_moves | apply Moves.skidder | apply Moves.ite | split | dsimp only
      | simp only [id_eq])

theorem State.skdDiscard_moves (h : Moves s t) : Moves s (State.skdDiscard t x1 x2 x3) := by
  unfold State.skdDiscard
  repeat' (with_reducible first
    | assumption | apply State.setFlag_moves | apply State.bump_moves | apply State.log_moves | apply State.faultCluster_moves
      | apply Moves.ite | split | dsimp only | simp only [id_eq])

theorem State.serveHaul_moves (h : Moves s t) : Moves s (State.serveHaul t x1 x2 x3) := by
  unfold State.serveHaul
  repeat' (with_reducible first
    | assumption | intro _ | apply Moves.skidder | apply State.bump_moves | apply State.log_moves | apply State.skdKick_moves
      | apply State.setFlag_moves | apply Moves.ite | apply Moves.foldl | apply Moves.foldl1 | split | dsimp only
      | simp only [id_eq])

theorem State.haulReceive_moves (h : Moves s t) : Moves s (State.haulReceive t x1) := by
  unfold State.haulReceive
  repeat' (with_reducible first
    | assumption | exact State.takeMsg_moves (by assumption) (by assumption) | apply State.skdDiscard_moves | apply State.serveHaul_moves
      | apply Moves.ite | split | dsimp only | simp only [id_eq])

theorem State.takeRecord_moves (h : Moves s t) : Moves s (State.takeRecord t x1 x2) := by
  unfold State.takeRecord
  repeat' (with_reducible first
    | assumption | apply State.rrcFill_moves | apply State.groupDone_moves | apply State.bump_moves | apply State.setHaul_moves
      | apply Moves.ite | split | dsimp only | simp only [id_eq])

theorem State.haulReplyReceive_moves (h : Moves s t) : Moves s (State.haulReplyReceive t x1) := by
  unfold State.haulReplyReceive
  repeat' (with_reducible first
    | assumption | intro _ | exact State.takeMsg_moves (by assumption) (by assumption) | apply State.skdDiscard_moves
      | apply State.pfDrop_moves | apply Moves.skidder | apply State.rrcFill_moves | apply State.takeRecord_moves
      | apply State.skdKick_moves | apply Moves.ite | apply Moves.foldl | apply Moves.foldl1 | split | dsimp only | simp only [id_eq])

theorem execSkdQueueHiWrite_moves : OutMoves t (execSkdQueueHiWrite x0 x1 t) := by
  have h := Moves.refl (s := t)
  unfold execSkdQueueHiWrite
  repeat' (with_reducible first
    | assumption | apply State.skdQueueHi_moves | apply OutMoves.mk | apply OutMoves.ite | apply Moves.ite | split | dsimp only
      | simp only [id_eq])

theorem execHaulDescriptorStart_moves : OutMoves t (execHaulDescriptorStart x0 t) := by
  have h := Moves.refl (s := t)
  unfold execHaulDescriptorStart
  repeat' (with_reducible first
    | assumption | apply State.skdStart_moves | apply State.unitRead_moves | apply OutMoves.mk | apply OutMoves.ite
      | apply Moves.ite | split | dsimp only | simp only [id_eq])

theorem execPageAccessDone_moves : OutMoves t (execPageAccessDone x0 x1 x2 x3 t) := by
  have h := Moves.refl (s := t)
  unfold execPageAccessDone
  repeat' (with_reducible first
    | assumption | apply State.pageDone_moves | apply State.unitRead_moves | apply OutMoves.mk | apply OutMoves.ite
      | apply Moves.ite | split | dsimp only | simp only [id_eq])

theorem execRowReadRestart_moves : OutMoves t (execRowReadRestart x0 x1 t) := by
  have h := Moves.refl (s := t)
  unfold execRowReadRestart
  repeat' (with_reducible first
    | assumption | apply State.rowRestart_moves | apply OutMoves.mk | apply OutMoves.ite | apply Moves.ite | split | dsimp only
      | simp only [id_eq])

theorem execHaulReceive_moves : OutMoves t (execHaulReceive x0 t) := by
  have h := Moves.refl (s := t)
  unfold execHaulReceive
  repeat' (with_reducible first
    | assumption | apply State.haulReceive_moves | apply OutMoves.mk | apply OutMoves.ite | apply Moves.ite | split | dsimp only
      | simp only [id_eq])

theorem execHaulReplyReceive_moves : OutMoves t (execHaulReplyReceive x0 t) := by
  have h := Moves.refl (s := t)
  unfold execHaulReplyReceive
  repeat' (with_reducible first
    | assumption | apply State.haulReplyReceive_moves | apply OutMoves.mk | apply OutMoves.ite | apply Moves.ite | split | dsimp only
      | simp only [id_eq])

theorem execTrailSpaceAllocate_moves : OutMoves t (execTrailSpaceAllocate x0 t) := by
  have h := Moves.refl (s := t)
  unfold execTrailSpaceAllocate
  repeat' (with_reducible first
    | assumption | apply State.skdKick_moves | apply State.allocTrail_moves | apply OutMoves.mk | apply OutMoves.ite | apply Moves.ite
      | split | dsimp only | simp only [id_eq])

theorem execTrailSpaceTimeout_moves : OutMoves t (execTrailSpaceTimeout x0 t) := by
  have h := Moves.refl (s := t)
  unfold execTrailSpaceTimeout
  repeat' (with_reducible first
    | assumption | apply State.skdKick_moves | apply State.countLost_moves | apply State.releaseTrail_moves | apply OutMoves.mk
      | apply OutMoves.ite | apply Moves.ite | split | dsimp only | simp only [id_eq])

/-! ## Sillage -/

theorem State.silQueueHi_moves (h : Moves s t) : Moves s (State.silQueueHi t x1 x2) := by
  unfold State.silQueueHi
  repeat' (with_reducible first
    | assumption | apply Moves.sillage | apply State.log_moves | apply State.setFlag_moves | apply Moves.ite | split | dsimp only
      | simp only [id_eq])

theorem State.refuseRetrace_moves (h : Moves s t) : Moves s (State.refuseRetrace t x1 x2 x3 x4) := by
  unfold State.refuseRetrace
  repeat' (with_reducible first
    | assumption | apply State.unitWrite_moves | apply State.log_moves | apply State.bump_moves | apply State.setFlag_moves
      | apply Moves.sillage | apply State.faultCluster_moves | apply State.signalDone_moves | apply Moves.ite | split
      | dsimp only | simp only [id_eq])

theorem silFault_moves (h : Moves s t) : Moves s (silFault t x1 x2 x3) := by
  unfold silFault
  repeat' (with_reducible first
    | assumption | apply State.faultCluster_moves | apply State.log_moves | apply Moves.ite | split | dsimp only | simp only [id_eq])

theorem State.writeAcc_moves (h : Moves s t) : Moves s (State.writeAcc t x1 x2 x3 x4) := by
  unfold State.writeAcc
  repeat' (with_reducible first
    | assumption | apply State.unitWrite_moves | apply State.clusterRead_moves | apply Moves.ite | split | dsimp only
      | simp only [id_eq])

theorem State.addHome_moves (h : Moves s t) : Moves s (State.addHome t x1) := by
  unfold State.addHome
  repeat' (with_reducible first
    | assumption | apply silFault_moves | apply Moves.sillage | apply State.setFlag_moves | apply State.writeAcc_moves
      | apply State.bump_moves | apply Moves.ite | split | dsimp only | simp only [id_eq])

theorem State.addContribution_moves (h : Moves s t) : Moves s (State.addContribution t x1) := by
  unfold State.addContribution
  repeat' (with_reducible first
    | assumption | apply Moves.sillage | apply State.addHome_moves | apply Moves.ite | split | dsimp only | simp only [id_eq])

theorem State.retraceGroup_moves {r : State × RetraceRun} (h : Moves.fst s r) : Moves.fst s (State.retraceGroup c d x l r g) := by
  unfold State.retraceGroup
  repeat' (with_reducible first
    | assumption | apply State.log_moves | apply State.addContribution_moves | apply Moves.sillage | split | dsimp only)

theorem State.sendReturns_moves (h : Moves s t) : Moves s (State.sendReturns t x1 x2) := by
  unfold State.sendReturns
  repeat' (with_reducible first
    | assumption | intro _ | apply Moves.sillage | apply State.post_moves | apply Moves.ite | apply Moves.foldl | apply Moves.foldl1
      | split | dsimp only | simp only [id_eq])

theorem State.runRetrace_moves (h : Moves s t) : Moves s (State.runRetrace t x1 x2 x3) := by
  unfold State.runRetrace
  repeat' (with_reducible first
    | assumption | intro _ | apply Moves.sillage | apply State.retraceGroup_moves | apply State.bump_moves
      | apply State.setFlag_moves | apply State.unitWrite_moves | apply State.releaseTrail_moves
      | apply State.faultCluster_moves | apply State.sendReturns_moves | apply State.signalDone_moves | apply Moves.ite
      | apply Moves.foldl | apply Moves.foldl1 | split | dsimp only | simp only [id_eq])

theorem State.silDrop_moves (h : Moves s t) : Moves s (State.silDrop t x1) := by
  unfold State.silDrop
  repeat' (with_reducible first | assumption | apply Moves.sillage | apply Moves.ite | split | dsimp only | simp only [id_eq])

theorem State.settleDrop_moves (h : Moves s t) : Moves s (State.settleDrop t x1) := by
  unfold State.settleDrop
  repeat' (with_reducible first
    | assumption | apply Moves.sillage | apply State.silDrop_moves | apply Moves.ite | split | dsimp only | simp only [id_eq])

theorem State.retraceStart_moves (h : Moves s t) : Moves s (State.retraceStart t x1) := by
  unfold State.retraceStart
  repeat' (with_reducible first
    | assumption | apply Moves.sillage | apply State.refuseRetrace_moves | apply State.runRetrace_moves
      | apply State.settleDrop_moves | apply State.readRanges_moves | apply Moves.ite | split | dsimp only | simp only [id_eq])

theorem State.silDiscard_moves (h : Moves s t) : Moves s (State.silDiscard t x1 x2 x3) := by
  unfold State.silDiscard
  repeat' (with_reducible first
    | assumption | apply State.setFlag_moves | apply State.bump_moves | apply State.log_moves | apply State.faultCluster_moves
      | apply Moves.ite | split | dsimp only | simp only [id_eq])

theorem State.forwardBatch_moves (h : Moves s t) : Moves s (State.forwardBatch t x1 x2) := by
  unfold State.forwardBatch
  repeat' (with_reducible first
    | assumption | intro _ | apply State.addContribution_moves | apply Moves.ite | apply Moves.foldl | apply Moves.foldl1 | split
      | dsimp only | simp only [id_eq])

theorem State.batchReceive_moves (h : Moves s t) : Moves s (State.batchReceive t x1) := by
  unfold State.batchReceive
  repeat' (with_reducible first
    | assumption | exact State.takeMsg_moves (by assumption) (by assumption) | apply State.silDiscard_moves
      | apply State.forwardBatch_moves | apply State.bump_moves | apply Moves.sillage | apply Moves.ite | split | dsimp only
      | simp only [id_eq])

theorem State.handoffSlot_moves (h : Moves s t) : Moves s (State.handoffSlot t x1 x2 x3 x4) := by
  unfold State.handoffSlot
  repeat' (with_reducible first
    | assumption | apply State.unitWrite_moves | apply State.bump_moves | apply State.setFlag_moves
      | apply State.signalDone_moves | apply Moves.ite | split | dsimp only | simp only [id_eq])

theorem State.takeHeld_moves (h : Moves s t) : Moves s (State.takeHeld t x1 x2) := by
  unfold State.takeHeld
  repeat' (with_reducible first
    | assumption | intro _ | apply State.addHome_moves | apply Moves.sillage | apply Moves.ite | apply Moves.foldl
      | apply Moves.foldl1 | split | dsimp only | simp only [id_eq])

theorem State.handoff_moves (h : Moves s t) : Moves s (State.handoff t x1 x2 x3) := by
  unfold State.handoff
  repeat' (with_reducible first
    | assumption | intro _ | apply State.handoffSlot_moves | apply Moves.sillage | apply State.addContribution_moves
      | apply Moves.ite | apply Moves.foldl | apply Moves.foldl1 | split | dsimp only | simp only [id_eq])

theorem State.stepClose_moves (h : Moves s t) : Moves s (State.stepClose t x1 x2) := by
  unfold State.stepClose
  repeat' (with_reducible first
    | assumption | intro _ | apply State.handoff_moves | apply State.takeHeld_moves | apply Moves.ite | apply Moves.foldl
      | apply Moves.foldl1 | split | dsimp only | simp only [id_eq])

theorem State.applyDone_moves (h : Moves s t) : Moves s (State.applyDone t x1 x2 x3) := by
  unfold State.applyDone
  repeat' (with_reducible first
    | assumption | intro _ | apply Moves.reg | apply State.skdKick_moves | apply Moves.ite | apply Moves.foldl | apply Moves.foldl1
      | split | dsimp only | simp only [id_eq])

theorem State.park_moves (h : Moves s t) : Moves s (State.park t x1 x2) := by
  unfold State.park
  repeat' (with_reducible first
    | assumption | intro _ | apply Moves.sillage | apply State.unitWrite_moves | apply State.log_moves
      | apply State.setFlag_moves | apply State.readRanges_moves | apply Moves.ite | apply Moves.foldl | apply Moves.foldl1
      | split | dsimp only | simp only [id_eq])

theorem State.giveWay_moves (h : Moves s t) : Moves s (State.giveWay t x1 x2) := by
  unfold State.giveWay
  repeat' (with_reducible first
    | assumption | apply State.releaseTrail_moves | apply State.countLost_moves | apply Moves.ite | split | dsimp only
      | simp only [id_eq])

theorem State.adoptTrails_moves (e : State.adoptTrails c a l t = some u) (h : Moves s t) : Moves s u := by
  induction l generalizing t with
  | nil => cases e; exact h
  | cons i l ih =>
    unfold State.adoptTrails at e
    dsimp only at e
    split at e
    · cases e
    · split at e
      · cases e
      · exact ih e (State.completeTrail_moves (.sillage (State.giveWay_moves h) ..))

theorem State.adopt_moves (h : Moves s t) : Moves s (State.adopt t c v) := by
  unfold State.adopt
  dsimp only
  split
  · rename_i he
    split at he
    · exact State.adoptTrails_moves he (State.readRanges_moves h)
    · cases he
  · exact State.log_moves (State.setFlag_moves (State.readRanges_moves h))

theorem execSilQueueHiWrite_moves : OutMoves t (execSilQueueHiWrite x0 x1 t) := by
  have h := Moves.refl (s := t)
  unfold execSilQueueHiWrite
  repeat' (with_reducible first
    | assumption | apply State.silQueueHi_moves | apply OutMoves.mk | apply OutMoves.ite | apply Moves.ite | split | dsimp only
      | simp only [id_eq])

theorem execRetraceStart_moves : OutMoves t (execRetraceStart x0 x1 t) := by
  have h := Moves.refl (s := t)
  unfold execRetraceStart
  repeat' (with_reducible first
    | assumption | apply State.retraceStart_moves | apply State.unitRead_moves | apply OutMoves.mk | apply OutMoves.ite
      | apply Moves.ite | split | dsimp only | simp only [id_eq])

theorem execReturnBatchReceive_moves : OutMoves t (execReturnBatchReceive x0 t) := by
  have h := Moves.refl (s := t)
  unfold execReturnBatchReceive
  repeat' (with_reducible first
    | assumption | apply State.batchReceive_moves | apply OutMoves.mk | apply OutMoves.ite | apply Moves.ite | split | dsimp only
      | simp only [id_eq])

theorem execStepClose_moves : OutMoves t (execStepClose x0 x1 t) := by
  have h := Moves.refl (s := t)
  unfold execStepClose
  repeat' (with_reducible first
    | assumption | apply State.stepClose_moves | apply OutMoves.mk | apply OutMoves.ite | apply Moves.ite | split | dsimp only
      | simp only [id_eq])

theorem execSilApplyDoneWrite_moves : OutMoves t (execSilApplyDoneWrite x0 x1 x2 t) := by
  have h := Moves.refl (s := t)
  unfold execSilApplyDoneWrite
  repeat' (with_reducible first
    | assumption | apply State.applyDone_moves | apply OutMoves.mk | apply OutMoves.ite | apply Moves.ite | split | dsimp only
      | simp only [id_eq])

theorem execSilParkHiWrite_moves : OutMoves t (execSilParkHiWrite x0 x1 t) := by
  have h := Moves.refl (s := t)
  unfold execSilParkHiWrite
  repeat' (with_reducible first
    | assumption | apply State.park_moves | apply State.unitRead_moves | apply OutMoves.mk | apply OutMoves.ite
      | apply Moves.ite | split | dsimp only | simp only [id_eq])

theorem execSilAdoptHiWrite_moves : OutMoves t (execSilAdoptHiWrite x0 x1 t) := by
  have h := Moves.refl (s := t)
  unfold execSilAdoptHiWrite
  repeat' (with_reducible first
    | assumption | apply State.adopt_moves | apply State.unitRead_moves | apply OutMoves.mk | apply OutMoves.ite
      | apply Moves.ite | split | dsimp only | simp only [id_eq])

/-! ## Landing -/

theorem State.putStream_moves (h : Moves s t) : Moves s (State.putStream t x1 x2) := by
  unfold State.putStream
  repeat' (with_reducible first | assumption | apply Moves.landing | apply Moves.ite | split | dsimp only | simp only [id_eq])

theorem State.lndLog_moves (h : Moves s t) : Moves s (State.lndLog t x1 x2 x3 x4 x5 x6 x7) := by
  unfold State.lndLog
  repeat' (with_reducible first
    | assumption | apply State.logAs_moves | apply State.setFlag_moves | apply Moves.ite | split | dsimp only | simp only [id_eq])

theorem State.lndRaise_moves (h : Moves s t) : Moves s (State.lndRaise t x1 x2 x3 x4 x5) := by
  unfold State.lndRaise
  repeat' (with_reducible first
    | assumption | apply Moves.reg | apply State.faultSlot_moves | apply Moves.ite | split | dsimp only | simp only [id_eq])

theorem State.lndFault_moves (h : Moves s t) : Moves s (State.lndFault t x1 x2 x3 x4 x5 x6) := by
  unfold State.lndFault
  repeat' (with_reducible first
    | assumption | apply Moves.reg | apply State.lndLog_moves | apply Moves.landing | apply State.lndRaise_moves
      | apply Moves.ite | split | dsimp only | simp only [id_eq])

theorem State.openStream_moves (h : Moves s t) : Moves s (State.openStream t x1 x2 x3 x4 x5) := by
  unfold State.openStream
  repeat' (with_reducible first
    | assumption | apply State.lndFault_moves | apply Moves.landing | apply State.useFree_moves | apply State.bump_moves
      | apply State.outsideWrite_moves | apply Moves.ite | split | dsimp only | simp only [id_eq])

theorem State.openStep_moves (h : Moves s t) : Moves s (State.openStep t x1) := by
  unfold State.openStep
  repeat' (with_reducible first
    | assumption | intro _ | apply State.openStream_moves | apply Moves.ite | apply Moves.foldl | apply Moves.foldl1 | split | dsimp only
      | simp only [id_eq])

theorem State.sendReduce_moves (h : Moves s t) : Moves s (State.sendReduce t x1 x2 x3 x4) := by
  unfold State.sendReduce
  repeat' (with_reducible first
    | assumption | apply Moves.fabric | apply State.injectMany_moves | apply Moves.ite | split | dsimp only | simp only [id_eq])

theorem State.nodeOutput_moves (h : Moves s t) : Moves s (State.nodeOutput t x1 x2 x3) := by
  unfold State.nodeOutput
  repeat' (with_reducible first
    | assumption | apply State.useFree_moves | apply State.putStream_moves | apply State.sendReduce_moves | apply State.bump_moves
      | apply Moves.ite | split | dsimp only | simp only [id_eq])

theorem State.rootDone_moves (h : Moves s t) : Moves s (State.rootDone t x1 x2) := by
  unfold State.rootDone
  repeat' (with_reducible first
    | assumption | apply State.putStream_moves | apply State.lndLog_moves | apply State.signal_moves | apply State.bump_moves
      | apply State.outsideWrite_moves | apply State.markComplete_moves | apply Moves.ite | split | dsimp only
      | simp only [id_eq])

theorem State.rootOutput_moves (h : Moves s t) : Moves s (State.rootOutput t x1 x2 x3) := by
  unfold State.rootOutput
  repeat' (with_reducible first
    | assumption | apply State.lndFault_moves | apply State.putStream_moves | apply State.bump_moves
      | apply State.rootDone_moves | apply State.outsideWrite_moves | apply Moves.ite | split | dsimp only | simp only [id_eq])

theorem State.tryOutput_moves (h : Moves s t) : Moves s (State.tryOutput t x1 x2 x3 x4 x5) := by
  unfold State.tryOutput
  repeat' (with_reducible first
    | assumption | apply State.rootOutput_moves | apply State.nodeOutput_moves | apply Moves.ite | split | dsimp only | simp only [id_eq])

theorem State.addInput_moves (h : Moves s t) : Moves s (State.addInput t x1 x2 x3 x4 x5 x6) := by
  unfold State.addInput
  repeat' (with_reducible first
    | assumption | apply State.putStream_moves | apply State.setFlag_moves | apply State.bump_moves
      | apply State.outsideWrite_moves | apply Moves.ite | split | dsimp only | simp only [id_eq])

theorem State.addLocal_moves (h : Moves s t) : Moves s (State.addLocal t x1 x2 x3 x4) := by
  unfold State.addLocal
  repeat' (with_reducible first
    | assumption | intro _ | apply State.putStream_moves | apply State.addInput_moves | apply State.bump_moves | apply State.signal_moves
      | apply State.tryOutput_moves | apply Moves.ite | apply Moves.foldl | apply Moves.foldl1 | split | dsimp only | simp only [id_eq])

theorem execReduceLocalRead_moves : OutMoves t (execReduceLocalRead x0 x1 x2 x3 t) := by
  have h := Moves.refl (s := t)
  unfold execReduceLocalRead
  repeat' (with_reducible first
    | assumption | apply State.markDone_moves | apply State.takeWait_moves | apply State.lndFault_moves
      | apply State.addLocal_moves | apply State.slotRead_moves | apply OutMoves.mk | apply OutMoves.ite | apply Moves.ite
      | split | dsimp only | simp only [id_eq])

theorem State.lndDrop_moves (h : Moves s t) : Moves s (State.lndDrop t x1 x2 x3 x4 x5 x6) := by
  unfold State.lndDrop
  repeat' (with_reducible first
    | assumption | apply State.lndLog_moves | apply State.bump_moves | apply Moves.ite | split | dsimp only | simp only [id_eq])

theorem State.lndDropFault_moves (h : Moves s t) : Moves s (State.lndDropFault t x1 x2 x3 x4 x5 x6) := by
  unfold State.lndDropFault
  repeat' (with_reducible first
    | assumption | apply State.bump_moves | apply Moves.landing | apply State.lndLog_moves | apply State.setFlag_moves
      | apply State.lndRaise_moves | apply Moves.ite | split | dsimp only | simp only [id_eq])

theorem State.wholeReduce_moves (h : Moves s t) : Moves.snd s (State.wholeReduce t x1 x2) := by
  unfold State.wholeReduce
  repeat' (with_reducible first
    | assumption | apply State.freeBytes_moves | apply Moves.fst_ite | apply Moves.ite | split | dsimp only | simp only [id_eq])

theorem State.takeReduce_moves (h : Moves s t) : Moves s (State.takeReduce t x1 x2 x3) := by
  unfold State.takeReduce
  repeat' (with_reducible first
    | assumption | apply State.lndDropFault_moves | apply State.putStream_moves | apply State.setRx_moves
      | apply State.bump_moves | apply State.ackRx_moves | apply State.addInput_moves | apply State.tryOutput_moves
      | apply State.wholeReduce_moves | apply Moves.ite | split | dsimp only | simp only [id_eq])

theorem State.reduceInput_moves (h : Moves s t) : Moves s (State.reduceInput t x1 x2 x3 x4) := by
  unfold State.reduceInput
  repeat' (with_reducible first
    | assumption | apply State.lndDrop_moves | apply State.lndDropFault_moves | apply State.openStream_moves | apply State.bump_moves
      | apply State.takeReduce_moves | apply Moves.ite | split | dsimp only | simp only [id_eq])

theorem State.reducePkt_moves (h : Moves s t) : Moves s (State.reducePkt t x1 x2) := by
  unfold State.reducePkt
  repeat' (with_reducible first | assumption | apply State.reduceInput_moves | apply Moves.ite | split | dsimp only | simp only [id_eq])

theorem execReducePacketReceive_moves : OutMoves t (execReducePacketReceive x0 t) := by
  have h := Moves.refl (s := t)
  unfold execReducePacketReceive
  repeat' (with_reducible first
    | assumption | exact State.takeArrived_moves (by assumption) (by assumption) | apply State.reducePkt_moves | apply OutMoves.mk
      | apply OutMoves.ite | apply Moves.ite | split | dsimp only | simp only [id_eq])

theorem State.dropStreams_moves (h : Moves s t) : Moves s (State.dropStreams t x1 x2) := by
  unfold State.dropStreams
  repeat' (with_reducible first
    | assumption | apply Moves.landing | apply Moves.fabric | apply Moves.ite | split | dsimp only | simp only [id_eq])

theorem State.writeLndSlot_moves (h : Moves s t) : Moves s (State.writeLndSlot t x1 x2 x3) := by
  unfold State.writeLndSlot
  repeat' (with_reducible first
    | assumption | apply State.dropStreams_moves | apply Moves.reg | apply State.writeIgnored_moves | apply Moves.ite | split
      | dsimp only | simp only [id_eq])

theorem execLndSlotWrite_moves : OutMoves t (execLndSlotWrite x0 x1 x2 t) := by
  have h := Moves.refl (s := t)
  unfold execLndSlotWrite
  repeat' (with_reducible first
    | assumption | apply State.writeLndSlot_moves | apply OutMoves.mk | apply OutMoves.ite | apply Moves.ite | split | dsimp only
      | simp only [id_eq])

theorem State.lndClear_moves (h : Moves s t) : Moves s (State.lndClear t x1) := by
  unfold State.lndClear
  repeat' (with_reducible first
    | assumption | apply Moves.fabric | apply Moves.landing | apply Moves.ite | split | dsimp only | simp only [id_eq])

theorem State.lndStart_moves (h : Moves s t) : Moves s (State.lndStart t x1) := by
  unfold State.lndStart
  repeat' (with_reducible first
    | assumption | apply Moves.reg | apply State.lndClear_moves | apply Moves.ite | split | dsimp only | simp only [id_eq])

theorem execLndEnable_moves : OutMoves t (execLndEnable x0 t) := by
  have h := Moves.refl (s := t)
  unfold execLndEnable
  repeat' (with_reducible first
    | assumption | intro _ | apply State.enableWith_moves | apply State.lndStart_moves | apply OutMoves.mk | apply OutMoves.ite
      | apply Moves.ite | split | dsimp only | simp only [id_eq])

theorem execLndDisable_moves : OutMoves t (execLndDisable x0 t) := by
  have h := Moves.refl (s := t)
  unfold execLndDisable
  repeat' (with_reducible first
    | assumption | intro _ | apply State.disableWith_moves | apply State.lndClear_moves | apply OutMoves.mk | apply OutMoves.ite
      | apply Moves.ite | split | dsimp only | simp only [id_eq])

end Sys2Proof.Machine
end

