-- ==== Sys2Proof/Laws/MovesTime.lean ====
section
/-! SUPPORT. That each operation is made of the updates of `Moves`: the time base, the optical ports, events and power. -/
namespace Sys2Proof.Machine
variable {s t : State}

/-! ## TimeBase -/

theorem State.badWord_moves (h : Moves s t) : Moves s (State.badWord t x1) := by
  unfold State.badWord
  repeat' (with_reducible first | assumption | apply State.bump_moves | apply Moves.ite | split | dsimp only | simp only [id_eq])

theorem State.setLock_moves (h : Moves s t) : Moves s (State.setLock t x1) := by
  unfold State.setLock
  repeat' (with_reducible first | assumption | apply State.setField_moves | apply Moves.ite | split | dsimp only | simp only [id_eq])

theorem execTimeWordSend_moves : OutMoves t (execTimeWordSend x0 x1 t) := by
  have h := Moves.refl (s := t)
  unfold execTimeWordSend
  repeat' (with_reducible first
    | assumption | apply Moves.out | apply Moves.opt | apply OutMoves.mk | apply OutMoves.ite | apply Moves.ite | split | dsimp only
      | simp only [id_eq])

theorem State.hearParent_moves (h : Moves s t) : Moves s (State.hearParent t x1 x2) := by
  unfold State.hearParent
  repeat' (with_reducible first
    | assumption | apply State.setField_moves | apply State.useFree_moves | apply State.setLock_moves | apply Moves.ite | split
      | dsimp only | simp only [id_eq] | apply Moves.other | exact Moves.tallyKeep (by assumption) (by rfl) (by rfl))

theorem State.moveWords_moves (h : Moves s t) : Moves s (State.moveWords t x1) := by
  unfold State.moveWords
  repeat' (with_reducible first
    | assumption | intro _ | apply Moves.opt | apply Moves.ite | apply Moves.foldl | apply Moves.foldl1 | split | dsimp only
      | simp only [id_eq])

theorem State.correct_moves (h : Moves s t) : Moves s (State.correct t x1) := by
  unfold State.correct
  dsimp only
  split
  · split
    · exact State.faultAll_moves (State.log_moves (State.setFlag_moves h))
    · exact .other h ..
  · exact State.moveWords_moves (.other h ..)

theorem State.follow_moves (h : Moves s t) : Moves s (State.follow t x1 x2 x3 x4) := by
  unfold State.follow
  repeat' (with_reducible first
    | assumption | apply Moves.reg | apply State.correct_moves | apply State.hearParent_moves | apply Moves.ite | split | dsimp only
      | simp only [id_eq])

theorem execTimeWordReceive_moves : OutMoves t (execTimeWordReceive x0 x1 t) := by
  have h := Moves.refl (s := t)
  unfold execTimeWordReceive
  repeat' (with_reducible first
    | assumption | apply State.badWord_moves | apply Moves.opt | apply State.hearParent_moves | apply State.follow_moves
      | apply OutMoves.mk | apply OutMoves.ite | apply Moves.ite | split | dsimp only | simp only [id_eq])

theorem execHoldoverEntry_moves : OutMoves t (execHoldoverEntry t) := by
  have h := Moves.refl (s := t)
  unfold execHoldoverEntry
  repeat' (with_reducible first
    | assumption | apply State.setLock_moves | apply OutMoves.mk | apply OutMoves.ite | apply Moves.ite | split | dsimp only
      | simp only [id_eq] | apply Moves.other | exact Moves.tallyKeep (by assumption) (by rfl) (by rfl))

theorem execHoldoverLimit_moves : OutMoves t (execHoldoverLimit t) := by
  have h := Moves.refl (s := t)
  unfold execHoldoverLimit
  repeat' (with_reducible first
    | assumption | apply State.faultAll_moves | apply State.log_moves | apply State.setFlag_moves | apply OutMoves.mk
      | apply OutMoves.ite | apply Moves.ite | split | dsimp only | simp only [id_eq] | apply Moves.other
      | exact Moves.tallyKeep (by assumption) (by rfl) (by rfl))

theorem State.forgetWords_moves (h : Moves s t) : Moves s (State.forgetWords t) := by
  unfold State.forgetWords
  repeat' (with_reducible first
    | assumption | intro _ | apply Moves.opt | apply Moves.ite | apply Moves.foldl | apply Moves.foldl1 | split | dsimp only
      | simp only [id_eq])

theorem State.presetBeat_moves (h : Moves s t) : Moves s (State.presetBeat t x1) := by
  unfold State.presetBeat
  split
  · exact h
  · split
    · exact State.forgetWords_moves (.other h ..)
    · exact State.writeIgnored_moves h

theorem State.slipLimit_moves (h : Moves s t) : Moves s (State.slipLimit t x1) := by
  unfold State.slipLimit
  repeat' (with_reducible first
    | assumption | apply State.faultSlot_moves | apply State.log_moves | apply State.setFlag_moves | apply Moves.ite | split | dsimp only
      | simp only [id_eq])

theorem State.countSlips_moves (h : Moves s t) : Moves s (State.countSlips t x1 x2) := by
  unfold State.countSlips
  repeat' (with_reducible first
    | assumption | apply State.setField_moves | apply State.slipLimit_moves | apply Moves.ite | split | dsimp only | simp only [id_eq])

theorem State.applySlip_moves (h : Moves s t) : Moves s (State.applySlip t x1 x2) := by
  unfold State.applySlip
  repeat' (with_reducible first
    | assumption | intro _ | apply State.bump_moves | apply Moves.reg | apply State.countSlips_moves | apply Moves.ite
      | apply Moves.foldl | apply Moves.foldl1 | split | dsimp only | simp only [id_eq] | apply Moves.other
      | exact Moves.tallyKeep (by assumption) (by rfl) (by rfl))

theorem State.floodToken_moves (h : Moves s t) : Moves s (State.floodToken t x1 x2 x3 x4) := by
  unfold State.floodToken
  repeat' (with_reducible first
    | assumption | intro _ | apply Moves.out | apply State.emitOn_moves | apply Moves.ite | apply Moves.foldl
      | apply Moves.foldl1 | split | dsimp only | simp only [id_eq])

theorem State.originate_moves (h : Moves s t) : Moves s (State.originate t x1) := by
  unfold State.originate
  repeat' (with_reducible first
    | assumption | apply State.log_moves | apply State.setFlag_moves | apply State.bump_moves | apply State.applySlip_moves
      | apply State.floodToken_moves | apply Moves.ite | split | dsimp only | simp only [id_eq] | apply Moves.other
      | exact Moves.tallyKeep (by assumption) (by rfl) (by rfl))

theorem execCheckBeat_moves : OutMoves t (execCheckBeat t) := by
  have h := Moves.refl (s := t)
  unfold execCheckBeat
  repeat' (with_reducible first
    | assumption | apply State.originate_moves | apply OutMoves.mk | apply OutMoves.ite | apply Moves.ite | split | dsimp only
      | simp only [id_eq] | apply Moves.other | exact Moves.tallyKeep (by assumption) (by rfl) (by rfl))

theorem State.tokenLate_moves (h : Moves s t) : Moves s (State.tokenLate t x1 x2) := by
  unfold State.tokenLate
  repeat' (with_reducible first
    | assumption | apply State.faultAll_moves | apply State.log_moves | apply State.setFlag_moves | apply State.bump_moves
      | apply Moves.ite | split | dsimp only | simp only [id_eq])

theorem State.takeToken_moves (h : Moves s t) : Moves s (State.takeToken t x1 x2 x3) := by
  unfold State.takeToken
  repeat' (with_reducible first
    | assumption | apply State.bump_moves | apply State.tokenLate_moves | apply State.applySlip_moves | apply Moves.ite | split
      | dsimp only | simp only [id_eq] | apply Moves.other | exact Moves.tallyKeep (by assumption) (by rfl) (by rfl))

theorem execSlipTokenReceive_moves : OutMoves t (execSlipTokenReceive x0 x1 t) := by
  have h := Moves.refl (s := t)
  unfold execSlipTokenReceive
  repeat' (with_reducible first
    | assumption | apply State.badWord_moves | apply State.bump_moves | apply State.floodToken_moves | apply State.takeToken_moves
      | apply OutMoves.mk | apply OutMoves.ite | apply Moves.ite | split | dsimp only | simp only [id_eq] | apply Moves.other
      | exact Moves.tallyKeep (by assumption) (by rfl) (by rfl))

theorem State.beginFrames_moves (h : Moves s t) : Moves s (State.beginFrames t) := by
  unfold State.beginFrames
  repeat' (with_reducible first
    | assumption | apply Moves.reg | apply Moves.ite | split | dsimp only | simp only [id_eq] | apply Moves.other
      | exact Moves.tallyKeep (by assumption) (by rfl) (by rfl))

theorem State.ftbStart_moves (h : Moves s t) : Moves s (State.ftbStart t) := by
  unfold State.ftbStart
  repeat' (with_reducible first
    | assumption | apply State.setLock_moves | apply State.setField_moves | apply Moves.reg | apply State.beginFrames_moves
      | apply Moves.ite | split | dsimp only | simp only [id_eq] | apply Moves.other
      | exact Moves.tallyKeep (by assumption) (by rfl) (by rfl))

theorem State.ftbStop_moves (h : Moves s t) : Moves s (State.ftbStop t) := by
  unfold State.ftbStop
  repeat' (with_reducible first
    | assumption | apply State.setLock_moves | apply State.setField_moves | apply Moves.ite | split | dsimp only | simp only [id_eq])

theorem State.tickBeat_moves (h : Moves s t) : Moves s (State.tickBeat t) := by
  unfold State.tickBeat
  repeat' (with_reducible first
    | assumption | apply Moves.ite | split | dsimp only | simp only [id_eq] | apply Moves.other
      | exact Moves.tallyKeep (by assumption) (by rfl) (by rfl))

/-! ## Optical -/

theorem State.setOptState_moves (h : Moves s t) : Moves s (State.setOptState t x1 x2) := by
  unfold State.setOptState
  repeat' (with_reducible first | assumption | apply State.setField_moves | apply Moves.ite | split | dsimp only | simp only [id_eq])

theorem State.setMask_moves (h : Moves s t) : Moves s (State.setMask t x1 x2 x3 x4) := by
  unfold State.setMask
  repeat' (with_reducible first
    | assumption | intro _ | apply State.setField_moves | apply Moves.ite | apply Moves.foldl | apply Moves.foldl1 | split | dsimp only
      | simp only [id_eq])

theorem State.setLocked_moves (h : Moves s t) : Moves s (State.setLocked t x1 x2) := by
  unfold State.setLocked
  repeat' (with_reducible first | assumption | apply State.setMask_moves | apply Moves.ite | split | dsimp only | simp only [id_eq])

theorem State.setInUse_moves (h : Moves s t) : Moves s (State.setInUse t x1 x2) := by
  unfold State.setInUse
  repeat' (with_reducible first | assumption | apply State.setMask_moves | apply Moves.ite | split | dsimp only | simp only [id_eq])

theorem State.setFeed_moves (h : Moves s t) : Moves s (State.setFeed t x1 x2) := by
  unfold State.setFeed
  repeat' (with_reducible first | assumption | apply State.setMask_moves | apply Moves.ite | split | dsimp only | simp only [id_eq])

theorem State.linkFailure_moves (h : Moves s t) : Moves s (State.linkFailure t x1 x2) := by
  unfold State.linkFailure
  repeat' (with_reducible first | assumption | apply State.faultAll_moves | apply Moves.ite | split | dsimp only | simp only [id_eq])

theorem State.pumpPort_moves (h : Moves s t) : Moves s (State.pumpPort t x1) := by
  unfold State.pumpPort
  repeat' (with_reducible first | assumption | apply State.pump_moves | apply Moves.ite | split | dsimp only | simp only [id_eq])

theorem State.enterMode_moves (h : Moves s t) : Moves s (State.enterMode t x1 x2 x3) := by
  unfold State.enterMode
  repeat' (with_reducible first
    | assumption | apply State.setField_moves | apply State.setOptState_moves | apply State.setInUse_moves
      | apply State.pumpPort_moves | apply Moves.opt | apply Moves.ite | split | dsimp only | simp only [id_eq])

theorem State.beginHail_moves (h : Moves s t) : Moves s (State.beginHail t x1) := by
  unfold State.beginHail
  repeat' (with_reducible first
    | assumption | apply Moves.opt | apply State.setField_moves | apply State.setInUse_moves | apply State.setOptState_moves
      | apply State.setLocked_moves | apply Moves.ite | split | dsimp only | simp only [id_eq])

theorem execHailDwell_moves : OutMoves t (execHailDwell x0 t) := by
  have h := Moves.refl (s := t)
  unfold execHailDwell
  repeat' (with_reducible first
    | assumption | apply Moves.opt | apply OutMoves.mk | apply OutMoves.ite | apply Moves.ite | split | dsimp only | simp only [id_eq])

theorem execHailSilent_moves : OutMoves t (execHailSilent x0 t) := by
  have h := Moves.refl (s := t)
  unfold execHailSilent
  repeat' (with_reducible first
    | assumption | apply State.bump_moves | apply State.setFlag_moves | apply Moves.opt | apply OutMoves.mk | apply OutMoves.ite
      | apply Moves.ite | split | dsimp only | simp only [id_eq])

theorem State.agree_moves (h : Moves s t) : Moves s (State.agree t x1) := by
  unfold State.agree
  repeat' (with_reducible first
    | assumption | apply State.setField_moves | apply Moves.opt | apply State.setOptState_moves | apply State.linkFailure_moves
      | apply State.log_moves | apply State.setFlag_moves | apply Moves.ite | split | dsimp only | simp only [id_eq])

theorem State.goTrial_moves (h : Moves s t) : Moves s (State.goTrial t x1 x2 x3) := by
  unfold State.goTrial
  repeat' (with_reducible first
    | assumption | apply State.setOptState_moves | apply Moves.opt | apply Moves.ite | split | dsimp only | simp only [id_eq])

theorem State.startTrials_moves (h : Moves s t) : Moves s (State.startTrials t x1) := by
  unfold State.startTrials
  repeat' (with_reducible first
    | assumption | apply State.goTrial_moves | apply Moves.ite | split | dsimp only | simp only [id_eq])

theorem execHailFrameSend_moves : OutMoves t (execHailFrameSend x0 t) := by
  have h := Moves.refl (s := t)
  unfold execHailFrameSend
  repeat' (with_reducible first
    | assumption | apply Moves.out | apply Moves.opt | apply State.startTrials_moves | apply State.agree_moves
      | apply OutMoves.mk | apply OutMoves.ite | apply Moves.ite | split | dsimp only | simp only [id_eq])

theorem State.countTrial_moves (h : Moves s t) : Moves s (State.countTrial t x1 x2 x3 x4) := by
  unfold State.countTrial
  repeat' (with_reducible first
    | assumption | apply State.bump_moves | apply Moves.ite | split | dsimp only | simp only [id_eq])

theorem execTrialEnd_moves : OutMoves t (execTrialEnd x0 x1 x2 x3 t) := by
  have h := Moves.refl (s := t)
  unfold execTrialEnd
  repeat' (with_reducible first
    | assumption | apply State.goTrial_moves | apply State.countTrial_moves | apply Moves.opt | apply OutMoves.mk | apply OutMoves.ite | apply Moves.ite | split
      | dsimp only | simp only [id_eq])

theorem State.capability_moves (h : Moves s t) : Moves s (State.capability t x1 x2 x3) := by
  unfold State.capability
  repeat' (with_reducible first
    | assumption | apply State.setLocked_moves | apply Moves.opt | apply State.log_moves | apply State.setFlag_moves
      | apply State.startTrials_moves | apply Moves.ite | split | dsimp only | simp only [id_eq])

theorem execHailFrameReceive_moves : OutMoves t (execHailFrameReceive x0 x1 x2 t) := by
  have h := Moves.refl (s := t)
  unfold execHailFrameReceive
  repeat' (with_reducible first
    | assumption | apply State.badWord_moves | apply State.bump_moves | apply Moves.opt | apply Moves.reg
      | apply State.setField_moves | apply State.capability_moves | apply State.agree_moves | apply State.startTrials_moves
      | apply OutMoves.mk | apply OutMoves.ite | apply Moves.ite | split | dsimp only | simp only [id_eq])

theorem execModeSwitch_moves : OutMoves t (execModeSwitch x0 t) := by
  have h := Moves.refl (s := t)
  unfold execModeSwitch
  repeat' (with_reducible first
    | assumption | apply State.enterMode_moves | apply Moves.opt | apply OutMoves.mk | apply OutMoves.ite | apply Moves.ite | split
      | dsimp only | simp only [id_eq])

theorem execHailRetry_moves : OutMoves t (execHailRetry x0 t) := by
  have h := Moves.refl (s := t)
  unfold execHailRetry
  repeat' (with_reducible first
    | assumption | apply State.beginHail_moves | apply OutMoves.mk | apply OutMoves.ite | apply Moves.ite | split | dsimp only
      | simp only [id_eq])

theorem execLightReturn_moves : OutMoves t (execLightReturn x0 x1 t) := by
  have h := Moves.refl (s := t)
  unfold execLightReturn
  repeat' (with_reducible first
    | assumption | apply Moves.opt | apply State.pumpPort_moves | apply State.setOptState_moves | apply OutMoves.mk | apply OutMoves.ite
      | apply Moves.ite | split | dsimp only | simp only [id_eq])

theorem State.goDown_moves (h : Moves s t) : Moves s (State.goDown t x1) := by
  unfold State.goDown
  repeat' (with_reducible first
    | assumption | apply State.setOptState_moves | apply Moves.opt | apply State.setFlag_moves | apply State.linkFailure_moves
      | apply State.log_moves | apply Moves.ite | split | dsimp only | simp only [id_eq])

theorem execDarkTimeout_moves : OutMoves t (execDarkTimeout x0 t) := by
  have h := Moves.refl (s := t)
  unfold execDarkTimeout
  repeat' (with_reducible first
    | assumption | apply State.beginHail_moves | apply State.goDown_moves | apply State.bump_moves | apply OutMoves.mk
      | apply OutMoves.ite | apply Moves.ite | split | dsimp only | simp only [id_eq])

theorem State.sendReport_moves (h : Moves s t) : Moves s (State.sendReport t x1 x2 x3 x4) := by
  unfold State.sendReport
  repeat' (with_reducible first
    | assumption | apply State.emitOn_moves | apply Moves.ite | split | dsimp only | simp only [id_eq])

theorem State.askExchange_moves (h : Moves s t) : Moves s (State.askExchange t x1 x2) := by
  unfold State.askExchange
  repeat' (with_reducible first
    | assumption | apply Moves.out | apply Moves.opt | apply State.sendReport_moves | apply Moves.ite | split | dsimp only
      | simp only [id_eq])

theorem State.startDown_moves (h : Moves s t) : Moves s (State.startDown t x1) := by
  unfold State.startDown
  repeat' (with_reducible first
    | assumption | apply State.askExchange_moves | apply State.setOptState_moves | apply Moves.ite | split | dsimp only
      | simp only [id_eq])

theorem State.noteLoss_moves (h : Moves s t) : Moves s (State.noteLoss t x1 x2) := by
  unfold State.noteLoss
  repeat' (with_reducible first
    | assumption | apply State.setLocked_moves | apply State.bump_moves | apply State.setFlag_moves | apply State.log_moves
      | apply Moves.ite | split | dsimp only | simp only [id_eq])

theorem State.loseWls_moves (h : Moves s t) : Moves s (State.loseWls t x1 x2) := by
  unfold State.loseWls
  repeat' (with_reducible first
    | assumption | intro _ | apply State.noteLoss_moves | apply State.startDown_moves | apply Moves.ite | apply Moves.foldl
      | apply Moves.foldl1 | split | dsimp only | simp only [id_eq])

theorem State.loseWl_moves (h : Moves s t) : Moves s (State.loseWl t x1 x2) := by
  unfold State.loseWl
  repeat' (with_reducible first
    | assumption | apply State.loseWls_moves | apply Moves.ite | split | dsimp only | simp only [id_eq])

theorem execWavelengthLost_moves : OutMoves t (execWavelengthLost x0 x1 t) := by
  have h := Moves.refl (s := t)
  unfold execWavelengthLost
  repeat' (with_reducible first
    | assumption | apply State.loseWl_moves | apply OutMoves.mk | apply OutMoves.ite | apply Moves.ite | split | dsimp only
      | simp only [id_eq])

theorem execLightLoss_moves : OutMoves t (execLightLoss x0 x1 t) := by
  have h := Moves.refl (s := t)
  unfold execLightLoss
  repeat' (with_reducible first
    | assumption | apply Moves.opt | apply State.setOptState_moves | apply State.loseWls_moves | apply OutMoves.mk
      | apply OutMoves.ite | apply Moves.ite | split | dsimp only | simp only [id_eq])

theorem execCalibrationLost_moves : OutMoves t (execCalibrationLost x0 x1 t) := by
  have h := Moves.refl (s := t)
  unfold execCalibrationLost
  repeat' (with_reducible first
    | assumption | apply State.setLocked_moves | apply State.loseWl_moves | apply OutMoves.mk | apply OutMoves.ite
      | apply Moves.ite | split | dsimp only | simp only [id_eq])

theorem State.lowFeed_moves (h : Moves s t) : Moves s (State.lowFeed t x1 x2) := by
  unfold State.lowFeed
  repeat' (with_reducible first
    | assumption | apply State.setFeed_moves | apply State.setFlag_moves | apply State.log_moves | apply State.loseWl_moves
      | apply Moves.ite | split | dsimp only | simp only [id_eq])

theorem execFeedLow_moves : OutMoves t (execFeedLow x0 x1 t) := by
  have h := Moves.refl (s := t)
  unfold execFeedLow
  repeat' (with_reducible first
    | assumption | apply State.lowFeed_moves | apply OutMoves.mk | apply OutMoves.ite | apply Moves.ite | split | dsimp only
      | simp only [id_eq])

theorem State.steerHeater_moves (h : Moves s t) : Moves s (State.steerHeater t x1 x2) := by
  unfold State.steerHeater
  repeat' (with_reducible first
    | assumption | apply Moves.opt | apply State.useFree_moves | apply Moves.ite | split | dsimp only | simp only [id_eq])

theorem State.countWords_moves (h : Moves s t) : Moves s (State.countWords t x1 x2) := by
  unfold State.countWords
  repeat' (with_reducible first
    | assumption | apply State.bump_moves | apply Moves.ite | split | dsimp only | simp only [id_eq])

theorem State.relock_moves (h : Moves s t) : Moves s (State.relock t x1 x2 x3) := by
  unfold State.relock
  repeat' (with_reducible first
    | assumption | apply Moves.opt | apply State.setLocked_moves | apply Moves.ite | split | dsimp only | simp only [id_eq])

theorem State.dither_moves (h : Moves s t) : Moves s (State.dither t x1 x2 x3) := by
  unfold State.dither
  repeat' (with_reducible first
    | assumption | apply State.setFeed_moves | apply State.setField_moves | apply Moves.opt | apply State.countWords_moves
      | apply State.lowFeed_moves | apply State.relock_moves | apply State.steerHeater_moves | apply Moves.ite | split
      | dsimp only | simp only [id_eq])

theorem execCalibrationDither_moves : OutMoves t (execCalibrationDither x0 x1 t) := by
  have h := Moves.refl (s := t)
  unfold execCalibrationDither
  repeat' (with_reducible first
    | assumption | intro _ | apply State.dither_moves | apply Moves.opt | apply OutMoves.mk | apply OutMoves.ite
      | apply Moves.ite | apply Moves.foldl | apply Moves.foldl1 | split | dsimp only | simp only [id_eq])

theorem execMarginLoss_moves : OutMoves t (execMarginLoss x0 t) := by
  have h := Moves.refl (s := t)
  unfold execMarginLoss
  repeat' (with_reducible first
    | assumption | apply State.startDown_moves | apply OutMoves.mk | apply OutMoves.ite | apply Moves.ite | split | dsimp only
      | simp only [id_eq])

theorem State.spreadCapacity_moves (h : Moves s t) : Moves s (State.spreadCapacity t x1 x2) := by
  unfold State.spreadCapacity
  exact .foldl (.other h ..) (fun _ _ hu => State.emitOn_moves hu) _

theorem State.originateCapacity_moves (h : Moves s t) : Moves s (State.originateCapacity t x1 x2 x3) := by
  unfold State.originateCapacity
  repeat' (with_reducible first | assumption | apply State.spreadCapacity_moves | apply Moves.ite | split | dsimp only | simp only [id_eq])

theorem State.agreeMode_moves (h : Moves s t) : Moves s (State.agreeMode t x1 x2 x3 x4) := by
  unfold State.agreeMode
  repeat' (with_reducible first
    | assumption | apply Moves.opt | apply State.goDown_moves | apply State.originateCapacity_moves | apply Moves.ite | split
      | dsimp only | simp only [id_eq])

theorem execLockReportReceive_moves : OutMoves t (execLockReportReceive x0 x1 x2 x3 t) := by
  have h := Moves.refl (s := t)
  unfold execLockReportReceive
  repeat' (with_reducible first
    | assumption | apply State.badWord_moves | apply Moves.opt | apply State.agreeMode_moves | apply State.setOptState_moves
      | apply State.sendReport_moves | apply OutMoves.mk | apply OutMoves.ite | apply Moves.ite | split | dsimp only
      | simp only [id_eq])

theorem execLockReportRepeat_moves : OutMoves t (execLockReportRepeat x0 t) := by
  have h := Moves.refl (s := t)
  unfold execLockReportRepeat
  repeat' (with_reducible first
    | assumption | apply Moves.out | apply Moves.opt | apply State.sendReport_moves | apply OutMoves.mk | apply OutMoves.ite
      | apply Moves.ite | split | dsimp only | simp only [id_eq])

theorem execDowngradeTimeout_moves : OutMoves t (execDowngradeTimeout x0 t) := by
  have h := Moves.refl (s := t)
  unfold execDowngradeTimeout
  repeat' (with_reducible first
    | assumption | apply Moves.opt | apply State.goDown_moves | apply OutMoves.mk | apply OutMoves.ite | apply Moves.ite | split
      | dsimp only | simp only [id_eq])

theorem execDowngradeSwitch_moves : OutMoves t (execDowngradeSwitch x0 t) := by
  have h := Moves.refl (s := t)
  unfold execDowngradeSwitch
  repeat' (with_reducible first
    | assumption | apply State.enterMode_moves | apply State.log_moves | apply State.setFlag_moves | apply State.bump_moves
      | apply Moves.opt | apply OutMoves.mk | apply OutMoves.ite | apply Moves.ite | split | dsimp only | simp only [id_eq])

theorem execUpgradeRequest_moves : OutMoves t (execUpgradeRequest x0 t) := by
  have h := Moves.refl (s := t)
  unfold execUpgradeRequest
  repeat' (with_reducible first
    | assumption | apply State.askExchange_moves | apply OutMoves.mk | apply OutMoves.ite | apply Moves.ite | split | dsimp only
      | simp only [id_eq])

theorem State.upgradeAt_moves (h : Moves s t) : Moves s (State.upgradeAt t x1) := by
  unfold State.upgradeAt
  repeat' (with_reducible first
    | assumption | apply State.enterMode_moves | apply State.log_moves | apply State.setFlag_moves | apply State.bump_moves
      | apply State.originateCapacity_moves | apply Moves.ite | split | dsimp only | simp only [id_eq])

theorem State.optStart_moves (h : Moves s t) : Moves s (State.optStart t x1 x2) := by
  unfold State.optStart
  repeat' (with_reducible first
    | assumption | apply State.beginHail_moves | apply State.setFeed_moves | apply Moves.ite | split | dsimp only | simp only [id_eq])

theorem State.optStop_moves (h : Moves s t) : Moves s (State.optStop t x1) := by
  unfold State.optStop
  repeat' (with_reducible first
    | assumption | apply State.setLocked_moves | apply State.setOptState_moves | apply Moves.opt | apply State.setField_moves
      | apply State.setInUse_moves | apply Moves.ite | split | dsimp only | simp only [id_eq])

/-! ## Events -/

theorem State.msix_moves (h : Moves s t) : Moves s (State.msix t x1) := by
  unfold State.msix
  repeat' (with_reducible first
    | assumption | apply State.setFlag_moves | apply Moves.out | apply Moves.ite | split | dsimp only | simp only [id_eq])

theorem State.hostEvent_moves (h : Moves s t) : Moves s (State.hostEvent t x1) := by
  unfold State.hostEvent
  repeat' (with_reducible first
    | assumption | apply State.setFlag_moves | apply State.msix_moves | apply Moves.ite | split | dsimp only | simp only [id_eq])

theorem State.capRecord_moves (h : Moves s t) : Moves s (State.capRecord t x1) := by
  unfold State.capRecord
  repeat' (with_reducible first
    | assumption | apply Moves.other | apply Moves.ite | split | dsimp only | simp only [id_eq]
      | exact Moves.tallyKeep (by assumption) (by rfl) (by rfl))

theorem State.ringPut_moves (h : Moves s t) : Moves s (State.ringPut t e) :=
  State.bump_moves (.tally h _ fun hb => ⟨hb.1, by simp only [List.length_drop]; omega⟩)

theorem State.tallyTake_moves (h : Moves s t) : Moves s (State.tallyTake t e) := by
  have hu : Moves s (match t.mergeAt e with
    | some i =>
      let r := t.tally.ring
      { t with tally := { t.tally with ring := match r[i]? with
          | some x => r.set i { x with repeats := min 255 (x.repeats + 1) }
          | none => r } }.bump .tly TLY_CNT_MERGED
    | none => t.ringPut e) := by
    split
    · refine State.bump_moves (.tally h _ fun hb => ⟨hb.1, ?_⟩)
      dsimp only
      split
      · simpa using hb.2
      · exact hb.2
    · exact State.ringPut_moves h
  exact .ite (State.hostEvent_moves hu) hu

theorem execTallyEntryAccept_moves : OutMoves t (execTallyEntryAccept t) := by
  refine OutMoves.mk ?_
  split
  · exact .refl
  · rename_i e q hq
    refine State.tallyTake_moves (.tally .refl _ fun hb => ⟨?_, hb.2⟩)
    have := hb.1
    rw [hq] at this
    simp only [List.length_cons] at this
    dsimp only
    omega

theorem execTallyDiscardReport_moves : OutMoves t (execTallyDiscardReport t) :=
  OutMoves.mk (.ite .refl (State.ringPut_moves (.tallyKeep (State.useFree_moves .refl) rfl rfl)))

theorem State.rollRefresh_moves (h : Moves s t) : Moves s (State.rollRefresh t) := by
  unfold State.rollRefresh
  split
  · exact h
  · dsimp only
    exact .reg (.tallyKeep h (by rfl) (by rfl)) ..

theorem execRollupRefresh_moves : OutMoves t (execRollupRefresh t) :=
  OutMoves.mk (.ite .refl (State.rollRefresh_moves (.tallyKeep .refl rfl rfl)))

theorem State.capFirst_moves (h : Moves s t) : Moves s (State.capFirst t x1 x2) := by
  unfold State.capFirst
  split
  · exact h
  · exact State.capRecord_moves (.other (State.log_moves h) ..)

theorem State.takeCapacity_moves (h : Moves s t) : Moves s (State.takeCapacity t x1 x2) := by
  unfold State.takeCapacity
  exact State.hostEvent_moves (.ite (State.capFirst_moves h) (State.spreadCapacity_moves (State.capFirst_moves h)))

theorem execCapacityWordReceive_moves : OutMoves t (execCapacityWordReceive x0 x1 t) := by
  have h := Moves.refl (s := t)
  unfold execCapacityWordReceive
  repeat' (with_reducible first
    | assumption | apply State.badWord_moves | apply Moves.reg | apply State.setFlag_moves | apply State.takeCapacity_moves
      | apply OutMoves.mk | apply OutMoves.ite | apply Moves.ite | split | dsimp only | simp only [id_eq])

/-! ## Access -/

theorem State.setBox_moves (h : Moves s t) : Moves s (State.setBox t x1 x2) := by
  unfold State.setBox
  repeat' (with_reducible first
    | assumption | apply Moves.ite | split | dsimp only | simp only [id_eq] | apply Moves.other
      | exact Moves.tallyKeep (by assumption) (by rfl) (by rfl))

theorem State.afterRead_moves (h : Moves s t) : Moves s (State.afterRead t x1 x2) := by
  unfold State.afterRead
  repeat' (with_reducible first
    | assumption | apply Moves.reg | apply Moves.ite | split | dsimp only | simp only [id_eq] | apply Moves.other
      | exact Moves.tallyKeep (by assumption) (by rfl) (by rfl))

theorem State.readReg_moves (h : Moves s t) : Moves.snd s (State.readReg t x1 x2) := by
  unfold State.readReg
  repeat' (with_reducible first | assumption | apply State.afterRead_moves | apply Moves.ite | split | dsimp only | simp only [id_eq])

theorem readAll_moves (h : Moves s t) : Moves.snd s (readAll l t) := by
  induction l generalizing t with
  | nil => exact h
  | cons a l ih =>
    refine ih ?_
    split
    · exact State.readReg_moves h
    · exact h

/-! ## Blaze -/

theorem State.latchBlock_moves (h : Moves s t) : Moves s (State.latchBlock w t b) := by
  unfold State.latchBlock
  split
  · exact .snap (State.setFlag_moves (State.clearFlag_moves h)) ..
  · exact h

theorem State.latchAll_moves (h : Moves s t) : Moves s (State.latchAll t) := by
  unfold State.latchAll
  repeat' (with_reducible first
    | assumption | intro _ | apply State.rollRefresh_moves | apply State.latchBlock_moves | apply Moves.ite | apply Moves.foldl
      | apply Moves.foldl1 | split | dsimp only | simp only [id_eq] | apply Moves.other
      | exact Moves.tallyKeep (by assumption) (by rfl) (by rfl))

theorem State.settleBlaze_moves (h : Moves s t) : Moves s (State.settleBlaze t) := by
  unfold State.settleBlaze
  repeat' (with_reducible first | assumption | apply State.latchAll_moves | apply Moves.ite | split | dsimp only | simp only [id_eq])

theorem State.rearmBlaze_moves (h : Moves s t) : Moves s (State.rearmBlaze t) := by
  unfold State.rearmBlaze
  repeat' (with_reducible first
    | assumption | intro _ | apply Moves.reg | apply State.setPair_moves | apply State.setFlag_moves | apply Moves.ite
      | apply Moves.foldl | apply Moves.foldl1 | split | dsimp only | simp only [id_eq] | apply Moves.other
      | exact Moves.tallyKeep (by assumption) (by rfl) (by rfl))

theorem execBlazeMatch_moves : OutMoves t (execBlazeMatch t) := by
  have h := Moves.refl (s := t)
  unfold execBlazeMatch
  repeat' (with_reducible first
    | assumption | apply State.settleBlaze_moves | apply State.fireBlaze_moves | apply OutMoves.mk | apply OutMoves.ite | apply Moves.ite
      | split | dsimp only | simp only [id_eq])

theorem State.writeArm_moves (h : Moves s t) : Moves s (State.writeArm t x1 x2) := by
  unfold State.writeArm
  repeat' (with_reducible first
    | assumption | apply State.setFlag_moves | apply State.clearFlag_moves | apply Moves.ite | split | dsimp only | simp only [id_eq])

/-! ## Units -/

theorem State.loadMapFor_moves (h : Moves s t) : Moves.fst s (State.loadMapFor t x1 x2 x3 x4) := by
  unfold State.loadMapFor
  repeat' (with_reducible first
    | assumption | apply Moves.reg | apply Moves.fst_ite | apply Moves.ite | split | dsimp only | simp only [id_eq])

theorem State.enableCru_moves (h : Moves s t) : Moves s (State.enableCru t x1) := by
  unfold State.enableCru
  repeat' (with_reducible first
    | assumption | intro _ | apply State.loadMapFor_moves | apply State.enableWith_moves | apply Moves.cruiser | apply Moves.ite | split
      | dsimp only | simp only [id_eq])

theorem State.disableCru_moves (h : Moves s t) : Moves s (State.disableCru t x1) := by
  unfold State.disableCru
  repeat' (with_reducible first
    | assumption | intro _ | apply State.disableWith_moves | apply Moves.ite | split | dsimp only | simp only [id_eq])

theorem State.enableSkd_moves (h : Moves s t) : Moves s (State.enableSkd t x1) := by
  unfold State.enableSkd
  repeat' (with_reducible first
    | assumption | intro _ | apply State.loadMapFor_moves | apply State.enableWith_moves | apply Moves.skidder | apply Moves.ite | split
      | dsimp only | simp only [id_eq])

theorem State.disableSkd_moves (h : Moves s t) : Moves s (State.disableSkd t x1) := by
  unfold State.disableSkd
  repeat' (with_reducible first
    | assumption | intro _ | apply State.disableWith_moves | apply Moves.ite | split | dsimp only | simp only [id_eq])

theorem State.silStart_moves (h : Moves s t) : Moves s (State.silStart t x1) := by
  unfold State.silStart
  repeat' (with_reducible first | assumption | apply Moves.sillage | apply Moves.ite | split | dsimp only | simp only [id_eq])

theorem State.enableSil_moves (h : Moves s t) : Moves s (State.enableSil t x1) := by
  unfold State.enableSil
  repeat' (with_reducible first
    | assumption | intro _ | apply State.enableWith_moves | apply State.silStart_moves | apply Moves.ite | split | dsimp only
      | simp only [id_eq])

theorem State.disableSil_moves (h : Moves s t) : Moves s (State.disableSil t x1) := by
  unfold State.disableSil
  repeat' (with_reducible first
    | assumption | intro _ | apply State.disableWith_moves | apply State.silDrop_moves | apply Moves.sillage | apply Moves.ite | split
      | dsimp only | simp only [id_eq])

theorem State.corStart_moves (h : Moves s t) : Moves s (State.corStart t x1) := by
  unfold State.corStart
  repeat' (with_reducible first
    | assumption | apply Moves.reg | apply State.setPc_moves | apply Moves.core | apply Moves.ite | split | dsimp only
      | simp only [id_eq])

theorem State.enableCor_moves (h : Moves s t) : Moves s (State.enableCor t x1) := by
  unfold State.enableCor
  repeat' (with_reducible first
    | assumption | intro _ | apply State.enableWith_moves | apply State.corStart_moves | apply Moves.ite | split | dsimp only
      | simp only [id_eq])

theorem State.corStop_moves (h : Moves s t) : Moves s (State.corStop t x1) := by
  unfold State.corStop
  repeat' (with_reducible first
    | assumption | apply State.setStall_moves | apply State.clearFlag_moves | apply State.kick_moves
      | apply State.closeIdle_moves | apply State.leaveBarrier_moves | apply Moves.ite | split | dsimp only | simp only [id_eq])

theorem State.disableCor_moves (h : Moves s t) : Moves s (State.disableCor t x1) := by
  unfold State.disableCor
  repeat' (with_reducible first
    | assumption | intro _ | apply State.disableWith_moves | apply State.corStop_moves | apply Moves.ite | split | dsimp only
      | simp only [id_eq])

theorem State.cluStart_moves (h : Moves s t) : Moves s (State.cluStart t x1) := by
  unfold State.cluStart
  repeat' (with_reducible first
    | assumption | intro _ | apply Moves.reg | apply State.setField_moves | apply State.releaseWaiter_moves | apply Moves.ite
      | apply Moves.foldl | apply Moves.foldl1 | split | dsimp only | simp only [id_eq])

theorem State.disableCch_moves (h : Moves s t) : Moves s (State.disableCch t x1) := by
  unfold State.disableCch
  repeat' (with_reducible first
    | assumption | intro _ | apply State.disableWith_moves | apply State.flushCache_moves | apply Moves.ite | split
      | dsimp only | simp only [id_eq])

theorem State.ctlStart_moves (h : Moves s t) : Moves s (State.ctlStart t x1) := by
  unfold State.ctlStart
  repeat' (with_reducible first | assumption | apply State.setFlag_moves | apply Moves.ite | split | dsimp only | simp only [id_eq])

theorem State.enableOpt_moves (h : Moves s t) : Moves s (State.enableOpt t x1) :=
  State.enableWith_moves (.opt (State.useFree_moves h) ..) fun _ hu => State.optStart_moves hu

theorem State.enableBlk_moves (h : Moves s t) : Moves s (State.enableBlk t x1) := by
  unfold State.enableBlk
  repeat' (with_reducible first
    | assumption | intro _ | apply State.enableWith_moves | apply State.ftbStart_moves | apply State.tilStart_moves
      | apply State.lndStart_moves | apply State.ctlStart_moves | apply State.cluStart_moves | apply State.enableCru_moves
      | apply State.enableSkd_moves | apply State.enableSil_moves | apply State.enableCor_moves | apply State.enableOpt_moves
      | apply Moves.ite | split | dsimp only | simp only [id_eq])

theorem State.disableBlk_moves (h : Moves s t) : Moves s (State.disableBlk t x1) := by
  unfold State.disableBlk
  repeat' (with_reducible first
    | assumption | intro _ | apply State.disableWith_moves | apply State.ftbStop_moves | apply State.tilStop_moves
      | apply State.lndClear_moves | apply State.optStop_moves | apply State.clearFlag_moves | apply State.disableCru_moves
      | apply State.disableSkd_moves | apply State.disableSil_moves | apply State.disableCch_moves | apply State.disableCor_moves
      | apply Moves.ite | split | dsimp only | simp only [id_eq])

theorem execCruEnable_moves : OutMoves t (execCruEnable x0 t) := by
  have h := Moves.refl (s := t)
  unfold execCruEnable
  repeat' (with_reducible first
    | assumption | apply State.enableCru_moves | apply OutMoves.mk | apply OutMoves.ite | apply Moves.ite | split | dsimp only
      | simp only [id_eq])

theorem execCruDisable_moves : OutMoves t (execCruDisable x0 t) := by
  have h := Moves.refl (s := t)
  unfold execCruDisable
  repeat' (with_reducible first
    | assumption | apply State.disableCru_moves | apply OutMoves.mk | apply OutMoves.ite | apply Moves.ite | split | dsimp only
      | simp only [id_eq])

theorem execSkdEnable_moves : OutMoves t (execSkdEnable x0 t) := by
  have h := Moves.refl (s := t)
  unfold execSkdEnable
  repeat' (with_reducible first
    | assumption | apply State.enableSkd_moves | apply OutMoves.mk | apply OutMoves.ite | apply Moves.ite | split | dsimp only
      | simp only [id_eq])

theorem execSkdDisable_moves : OutMoves t (execSkdDisable x0 t) := by
  have h := Moves.refl (s := t)
  unfold execSkdDisable
  repeat' (with_reducible first
    | assumption | apply State.disableSkd_moves | apply OutMoves.mk | apply OutMoves.ite | apply Moves.ite | split | dsimp only
      | simp only [id_eq])

theorem execSilEnable_moves : OutMoves t (execSilEnable x0 t) := by
  have h := Moves.refl (s := t)
  unfold execSilEnable
  repeat' (with_reducible first
    | assumption | apply State.enableSil_moves | apply OutMoves.mk | apply OutMoves.ite | apply Moves.ite | split | dsimp only
      | simp only [id_eq])

theorem execSilDisable_moves : OutMoves t (execSilDisable x0 t) := by
  have h := Moves.refl (s := t)
  unfold execSilDisable
  repeat' (with_reducible first
    | assumption | apply State.disableSil_moves | apply OutMoves.mk | apply OutMoves.ite | apply Moves.ite | split | dsimp only
      | simp only [id_eq])

theorem execCorEnable_moves : OutMoves t (execCorEnable x0 t) := by
  have h := Moves.refl (s := t)
  unfold execCorEnable
  repeat' (with_reducible first
    | assumption | apply State.enableCor_moves | apply OutMoves.mk | apply OutMoves.ite | apply Moves.ite | split | dsimp only
      | simp only [id_eq])

theorem execCorDisable_moves : OutMoves t (execCorDisable x0 t) := by
  have h := Moves.refl (s := t)
  unfold execCorDisable
  repeat' (with_reducible first
    | assumption | apply State.disableCor_moves | apply OutMoves.mk | apply OutMoves.ite | apply Moves.ite | split | dsimp only
      | simp only [id_eq])

theorem execCchDisable_moves : OutMoves t (execCchDisable x0 t) := by
  have h := Moves.refl (s := t)
  unfold execCchDisable
  repeat' (with_reducible first
    | assumption | apply State.disableCch_moves | apply OutMoves.mk | apply OutMoves.ite | apply Moves.ite | split | dsimp only
      | simp only [id_eq])

/-! ## Power -/

theorem State.clearMain_moves (h : Moves s t) : Moves s (State.clearMain t) := by
  have k1 : Moves s { t with
      mem := [], cores := [], clusters := [], fabrics := [], routes := [], ports := [], loopback := [],
      mailrooms := [], cruisers := [], skidders := [], sillages := [], landings := [], opts := [], shape := 0,
      regs := t.regs.filter fun p => standbyAddr p.1, snaps := t.snaps.filter fun p => standbyAddr p.1,
      posted := t.posted.filter fun p => standbyAddr p.1 } :=
    .other (.dropRegs (.loseMain h standbyAddr) fun p => standbyAddr p.1) t.beat t.time t.blaze [] 0 t.foe t.lko t.pwr
  have k2 (x : State) (hx : Moves s x) : Moves s
      { x with foe := x.foe.lostMain, tally := { x.tally with rollPrev := [] } } :=
    .tallyKeep (.other hx x.beat x.time x.blaze x.loopback x.shape x.foe.lostMain x.lko x.pwr)
      (v := { x.tally with rollPrev := [] }) rfl rfl
  exact .reg (k2 _ (.foldl k1 (fun _ _ hu => .job hu ..) _)) ..

theorem State.loadPort_moves (h : Moves s t) : Moves s (State.loadPort t x1) := by
  unfold State.loadPort
  repeat' (with_reducible first
    | assumption | apply Moves.reg | apply Moves.ite | split | dsimp only | simp only [id_eq])

theorem State.enterRom_moves (h : Moves s t) : Moves s (State.enterRom t) := by
  unfold State.enterRom
  have k : Moves s (State.rearmBlaze { t with tally := { t.tally with rollMark := t.clock, rollAt := t.clock } }) :=
    State.rearmBlaze_moves (.tallyKeep h rfl rfl)
  generalize State.rearmBlaze { t with tally := { t.tally with rollMark := t.clock, rollAt := t.clock } } = x at k
  exact .foldl k (fun _ _ hu => State.loadPort_moves hu) _

theorem State.powerDown_moves (h : Moves s t) : Moves s (State.powerDown t) := by
  unfold State.powerDown
  split
  · have hx := State.clearMain_moves h
    generalize State.clearMain t = x at hx
    exact .other (.mainOff hx) x.beat x.time x.blaze x.loopback x.shape x.foe x.lko t.pwr.restart
  · exact h

theorem State.powerUp_moves (h : Moves s t) : Moves s (State.powerUp t) := by
  unfold State.powerUp
  split
  · exact h
  · rename_i hc
    have k (hs : t.standbyOn = true) : Moves s
        { t with mainOn := true, foe := { t.foe with heldOff := false, stage := .rom }, pwr := t.pwr.restart } :=
      .other (.mainOn h hs) t.beat t.time t.blaze t.loopback t.shape
        { t.foe with heldOff := false, stage := .rom } t.lko t.pwr.restart
    exact State.enterRom_moves (State.bump_moves (State.setField_moves (k (by simpa using (not_or.mp hc).2))))

theorem State.powerSequence_moves (h : Moves s t) : Moves s (State.powerSequence t x1) := by
  unfold State.powerSequence
  repeat' (with_reducible first
    | assumption | apply State.powerDown_moves | apply State.powerUp_moves | apply Moves.ite | split | dsimp only
      | simp only [id_eq])

theorem execMainPowerUp_moves : OutMoves t (execMainPowerUp x0 t) := by
  have h := Moves.refl (s := t)
  unfold execMainPowerUp
  repeat' (with_reducible first
    | assumption | apply State.powerSequence_moves | apply OutMoves.mk | apply OutMoves.ite | apply Moves.ite | split
      | dsimp only | simp only [id_eq])

theorem execMainDomainReset_moves : OutMoves t (execMainDomainReset t) := by
  have h := Moves.refl (s := t)
  unfold execMainDomainReset
  repeat' (with_reducible first
    | assumption | apply State.enterRom_moves | apply State.clearMain_moves | apply State.rollRefresh_moves | apply OutMoves.mk
      | apply OutMoves.ite | apply Moves.ite | split | dsimp only | simp only [id_eq])

theorem State.trip_moves (h : Moves s t) : Moves s (State.trip t e c) := by
  have k (x : State) (hx : Moves s x) : Moves s { x with foe := { x.foe with heldOff := true } } :=
    .other hx x.beat x.time x.blaze x.loopback x.shape { x.foe with heldOff := true } x.lko x.pwr
  exact k _ (State.powerDown_moves (State.bump_moves (State.log_moves (State.setFlag_moves h))))

theorem State.supplyTrip_moves (h : Moves s t) : Moves s (State.supplyTrip t x1) := by
  unfold State.supplyTrip
  repeat' (with_reducible first
    | assumption | apply State.trip_moves | apply Moves.ite | split | dsimp only | simp only [id_eq])

theorem execSupplyTrip_moves : OutMoves t (execSupplyTrip x0 t) := by
  have h := Moves.refl (s := t)
  unfold execSupplyTrip
  repeat' (with_reducible first
    | assumption | intro _ | apply State.supplyTrip_moves | apply OutMoves.mk | apply OutMoves.ite | apply Moves.ite
      | apply Moves.foldl | apply Moves.foldl1 | split | dsimp only | simp only [id_eq])

theorem thermalTrip_moves (h : Moves s t) : Moves s (thermalTrip t) := State.trip_moves h

theorem execThermalTrip_moves : OutMoves t (execThermalTrip t) := by
  have h := Moves.refl (s := t)
  unfold execThermalTrip
  repeat' (with_reducible first
    | assumption | apply thermalTrip_moves | apply OutMoves.mk | apply OutMoves.ite | apply Moves.ite | split | dsimp only
      | simp only [id_eq])

theorem State.storeReadings_moves (h : Moves s t) : Moves s (State.storeReadings t x1) := by
  unfold State.storeReadings
  exact .foldl (.reg (.reg (.reg (.reg (.power h _) ..) ..) ..) ..) (fun _ _ hu => .reg hu ..) _

theorem State.latchStep_moves (h : Moves s t) : Moves s (State.latchStep t x1) := by
  unfold State.latchStep
  repeat' (with_reducible first
    | assumption | apply State.setField_moves | apply Moves.ite | split | dsimp only | simp only [id_eq] | apply Moves.other
      | exact Moves.tallyKeep (by assumption) (by rfl) (by rfl))

theorem State.coolantWatch_moves (h : Moves s t) : Moves s (State.coolantWatch t x1) := by
  unfold State.coolantWatch
  exact .power (.ite (State.log_moves (State.setFlag_moves h)) h) _

theorem execSensorEvaluation_moves : OutMoves t (execSensorEvaluation x0 t) := by
  have h : Moves t ((t.storeReadings x0).coolantWatch (coolantBad x0)) := State.coolantWatch_moves (State.storeReadings_moves .refl)
  unfold execSensorEvaluation
  generalize (t.storeReadings x0).coolantWatch (coolantBad x0) = u at h
  refine .mk (.ite .refl ?_)
  extract_lets _ ovf v
  have hv : Moves t v := .ite (State.bump_moves h) h
  exact .ite hv (State.latchStep_moves (.power hv _))

theorem State.takeStep_moves (h : Moves s t) : Moves s (State.takeStep t x1) := by
  unfold State.takeStep
  repeat' (with_reducible first
    | assumption | apply State.setFlag_moves | apply State.setField_moves | apply State.bump_moves | apply State.log_moves
      | apply State.useFree_moves | apply Moves.ite | split | dsimp only | simp only [id_eq] | apply Moves.other
      | exact Moves.tallyKeep (by assumption) (by rfl) (by rfl))

theorem State.stepAt_moves (h : Moves s t) : Moves s (State.stepAt t x1) := by
  unfold State.stepAt
  have k := Moves.power h (t.pwr.after x1)
  exact .ite k (.ite (State.takeStep_moves k) (.ite (State.takeStep_moves k) k))

theorem execAlignedIntervalBoundary_moves : OutMoves t (execAlignedIntervalBoundary t) := by
  have h := Moves.refl (s := t)
  unfold execAlignedIntervalBoundary
  repeat' (with_reducible first
    | assumption | apply State.stepAt_moves | apply OutMoves.mk | apply OutMoves.ite | apply Moves.ite | split | dsimp only
      | simp only [id_eq])

end Sys2Proof.Machine
end

