-- ==== Sys2Proof/Laws/MovesHost.lean ====
section
/-! SUPPORT. That each operation is made of the updates of `Moves`: jobs, boot, the core’s own commands, the mailbox and Lookout. -/
namespace Sys2Proof.Machine
variable {s t : State}

/-! ## Issue -/

theorem State.retireTo_moves (h : Moves s t) : Moves s (State.retireTo t x1 x2) := by
  unfold State.retireTo
  repeat' (with_reducible first
    | assumption | apply State.bump_moves | apply State.setPc_moves | apply Moves.ite | split | dsimp only | simp only [id_eq])

theorem State.retire_moves (h : Moves s t) : Moves s (State.retire t x1) := by
  unfold State.retire
  repeat' (with_reducible first | assumption | apply State.retireTo_moves | apply Moves.ite | split | dsimp only | simp only [id_eq])

theorem State.issue_moves (h : Moves s t) (hf : ∀ u, Moves s u → Moves s (f u)) : Moves s (State.issue t k r z f) :=
  .ite h (.ite (State.coreFault_moves h) (.ite h (hf _ h)))

theorem State.illegal_moves (h : Moves s t) : Moves s (State.illegal t x1) := by
  unfold State.illegal
  repeat' (with_reducible first | assumption | apply State.coreFault_moves | apply Moves.ite | split | dsimp only | simp only [id_eq])

theorem State.issueTo_moves (h : Moves s t) : Moves s (State.issueTo t k r e x) :=
  State.issue_moves h fun _ hu => State.enqueue_moves (State.retire_moves hu)

theorem State.issueVec_moves (h : Moves s t) : Moves s (State.issueVec t x1 x2) := by
  unfold State.issueVec
  repeat' (with_reducible first
    | assumption | intro _ | apply State.issueTo_moves | apply Moves.ite | split | dsimp only | simp only [id_eq])

theorem State.loadResult_moves (h : Moves s t) : Moves s (State.loadResult t x1 x2 x3 x4) := by
  unfold State.loadResult
  repeat' (with_reducible first
    | assumption | apply State.setGpr_moves | apply State.useFree_moves | apply Moves.ite | split | dsimp only | simp only [id_eq])

/-! ## Service -/

theorem State.writeTail_moves (h : Moves s t) : Moves s (State.writeTail t x1 x2 x3 x4) := by
  unfold State.writeTail
  repeat' (with_reducible first
    | assumption | apply State.writeIgnored_moves | apply Moves.reg | apply Moves.ite | split | dsimp only | simp only [id_eq])

theorem State.svcSignal_moves (h : Moves s t) : Moves s (State.svcSignal t x1 x2) := by
  unfold State.svcSignal
  repeat' (with_reducible first | assumption | apply State.signal_moves | apply Moves.ite | split | dsimp only | simp only [id_eq])

theorem execSvcFrameSent_moves : OutMoves t (execSvcFrameSent x0 t) := by
  have h := Moves.refl (s := t)
  unfold execSvcFrameSent
  repeat' (with_reducible first
    | assumption | apply Moves.out | apply State.outsideWrite_moves | apply Moves.reg | apply State.svcSignal_moves
      | apply State.bump_moves | apply Moves.port | apply OutMoves.mk | apply OutMoves.ite | apply Moves.ite | split
      | dsimp only | simp only [id_eq])

theorem execSvcFrameReceive_moves : OutMoves t (execSvcFrameReceive x0 x1 x2 t) := by
  have h := Moves.refl (s := t)
  unfold execSvcFrameReceive
  repeat' (with_reducible first
    | assumption | apply State.bump_moves | apply State.outsideWrite_moves | apply Moves.reg | apply State.svcSignal_moves
      | apply OutMoves.mk | apply OutMoves.ite | apply Moves.ite | split | dsimp only | simp only [id_eq])

/-! ## RegWrite -/

theorem State.planRefused_moves (h : Moves s t) : Moves s (State.planRefused t x1 x2) := by
  unfold State.planRefused
  repeat' (with_reducible first
    | assumption | apply State.log_moves | apply State.setFlag_moves | apply Moves.ite | split | dsimp only | simp only [id_eq])

theorem State.refuseNext_moves (h : Moves s t) : Moves s (State.refuseNext t x1) := by
  unfold State.refuseNext
  repeat' (with_reducible first
    | assumption | apply State.clearFlag_moves | apply Moves.job | apply State.planRefused_moves | apply Moves.ite | split
      | dsimp only | simp only [id_eq])

theorem State.writeSwitch_moves (h : Moves s t) : Moves s (State.writeSwitch t x1 x2) := by
  unfold State.writeSwitch
  repeat' (with_reducible first
    | assumption | apply Moves.reg | apply Moves.job | apply State.refuseNext_moves | apply Moves.ite | split | dsimp only
      | simp only [id_eq])

theorem State.storeReg_moves (h : Moves s t) : Moves s (State.storeReg t x1 x2 x3) := by
  unfold State.storeReg
  repeat' (with_reducible first
    | assumption | apply Moves.reg | apply State.presetBeat_moves | apply State.writeSwitch_moves
      | apply State.writeIgnored_moves | apply Moves.route | apply State.writeTail_moves | apply Moves.cluster
      | apply State.setField_moves | apply State.cruQueueHi_moves | apply State.skdQueueHi_moves | apply State.skdKick_moves
      | apply State.silQueueHi_moves | apply State.park_moves | apply State.adopt_moves | apply State.applyDone_moves
      | apply Moves.core | apply State.settleBarrier_moves | apply Moves.ite | split | dsimp only | simp only [id_eq])

theorem State.writeOwn_moves (h : Moves s t) : Moves s (State.writeOwn t x1 x2 x3) := by
  unfold State.writeOwn
  repeat' (with_reducible first
    | assumption | apply State.storeReg_moves | apply State.writeIgnored_moves | apply Moves.ite | split | dsimp only | simp only [id_eq])

theorem State.writeMsix_moves (h : Moves s t) : Moves s (State.writeMsix t x1 x2) := by
  unfold State.writeMsix
  repeat' (with_reducible first
    | assumption | apply Moves.reg | apply State.msix_moves | apply State.clearFlag_moves | apply State.setBox_moves
      | apply Moves.ite | split | dsimp only | simp only [id_eq])

theorem State.writeEffect_moves (h : Moves s t) : Moves s (State.writeEffect t x1 x2 x3) := by
  unfold State.writeEffect
  repeat' (with_reducible first
    | assumption | apply State.writeArm_moves | apply State.enableBlk_moves | apply State.disableBlk_moves
      | apply State.writeIgnored_moves | apply Moves.reg | apply State.writeMsix_moves | apply State.writeOwn_moves | apply Moves.ite
      | split | dsimp only | simp only [id_eq])

theorem State.writeReg_moves (h : Moves s t) : Moves s (State.writeReg t x1 x2 x3) := by
  unfold State.writeReg
  repeat' (with_reducible first
    | assumption | apply State.writeEffect_moves | apply State.writeIgnored_moves | apply Moves.posted | apply Moves.ite | split
      | dsimp only | simp only [id_eq])

theorem execFtbBeatPreset_moves : OutMoves t (execFtbBeatPreset x0 x1 t) := by
  have h := Moves.refl (s := t)
  unfold execFtbBeatPreset
  repeat' (with_reducible first
    | assumption | apply State.writeReg_moves | apply State.writeEffect_moves | apply OutMoves.mk | apply OutMoves.ite
      | apply Moves.ite | split | dsimp only | simp only [id_eq])

theorem execOptEnable_moves : OutMoves t (execOptEnable x0 x1 t) := by
  have h := Moves.refl (s := t)
  unfold execOptEnable
  repeat' (with_reducible first
    | assumption | intro _ | apply Moves.opt | apply State.writeReg_moves | apply OutMoves.mk | apply OutMoves.ite
      | apply Moves.ite | split | dsimp only | simp only [id_eq])

theorem execOptDisable_moves : OutMoves t (execOptDisable x0 t) := by
  have h := Moves.refl (s := t)
  unfold execOptDisable
  repeat' (with_reducible first
    | assumption | intro _ | apply State.writeReg_moves | apply OutMoves.mk | apply OutMoves.ite | apply Moves.ite | split
      | dsimp only | simp only [id_eq])

theorem execSvcTxTailWrite_moves : OutMoves t (execSvcTxTailWrite x0 x1 t) := by
  have h := Moves.refl (s := t)
  unfold execSvcTxTailWrite
  repeat' (with_reducible first
    | assumption | apply State.writeReg_moves | apply OutMoves.mk | apply OutMoves.ite | apply Moves.ite | split | dsimp only
      | simp only [id_eq])

theorem execSvcRxTailWrite_moves : OutMoves t (execSvcRxTailWrite x0 x1 t) := by
  have h := Moves.refl (s := t)
  unfold execSvcRxTailWrite
  repeat' (with_reducible first
    | assumption | apply State.writeReg_moves | apply OutMoves.mk | apply OutMoves.ite | apply Moves.ite | split | dsimp only
      | simp only [id_eq])

theorem withBlk_moves (h : Moves s t) (hf : ∀ b o, Moves s (f b o)) : Moves s (withBlk a f t) := by
  unfold withBlk
  split
  · exact hf ..
  · exact h

theorem execPostedWriteEffect_moves : OutMoves t (execPostedWriteEffect x0 t) := by
  have h := Moves.refl (s := t)
  unfold execPostedWriteEffect
  repeat' (with_reducible first
    | assumption | intro _ | apply withBlk_moves | apply State.writeEffect_moves | apply Moves.posted | apply OutMoves.mk
      | apply OutMoves.ite | apply Moves.ite | split | dsimp only | simp only [id_eq])

theorem execBlkEnable_moves : OutMoves t (execBlkEnable x0 t) := by
  have h := Moves.refl (s := t)
  unfold execBlkEnable
  repeat' (with_reducible first
    | assumption | intro _ | apply withBlk_moves | apply State.writeReg_moves | apply OutMoves.mk | apply OutMoves.ite | apply Moves.ite
      | split | dsimp only | simp only [id_eq])

theorem execBlkDisable_moves : OutMoves t (execBlkDisable x0 t) := by
  have h := Moves.refl (s := t)
  unfold execBlkDisable
  repeat' (with_reducible first
    | assumption | intro _ | apply withBlk_moves | apply State.writeReg_moves | apply OutMoves.mk | apply OutMoves.ite | apply Moves.ite
      | split | dsimp only | simp only [id_eq])

theorem execSnapArmWrite_moves : OutMoves t (execSnapArmWrite x0 x1 t) := by
  have h := Moves.refl (s := t)
  unfold execSnapArmWrite
  repeat' (with_reducible first
    | assumption | intro _ | apply withBlk_moves | apply State.writeReg_moves | apply OutMoves.mk | apply OutMoves.ite | apply Moves.ite
      | split | dsimp only | simp only [id_eq])

theorem State.haltUnits_moves (h : Moves s t) : Moves s (State.haltUnits t x1) := by
  unfold State.haltUnits
  repeat' (with_reducible first
    | assumption | apply State.setStall_moves | apply State.clearFlag_moves | apply Moves.core | apply Moves.cruiser
      | apply Moves.skidder | apply State.silDrop_moves | apply Moves.sillage | apply State.tilStop_moves
      | apply State.lndClear_moves | apply State.optStop_moves | apply State.ftbStop_moves | apply State.leaveBarrier_moves
      | apply Moves.ite | split | dsimp only | simp only [id_eq])

theorem State.crcHalt_moves (h : Moves s t) : Moves s (State.crcHalt t x1) := by
  unfold State.crcHalt
  repeat' (with_reducible first
    | assumption | apply thermalTrip_moves | apply State.log_moves | apply State.setFlag_moves | apply State.haltUnits_moves
      | apply State.clearFlag_moves | apply State.faultAll_moves | apply Moves.ite | split | dsimp only | simp only [id_eq])

theorem State.damageCfg_moves (h : Moves s t) : Moves s (State.damageCfg t x1 x2) := by
  unfold State.damageCfg
  repeat' (with_reducible first | assumption | apply Moves.reg | apply Moves.route | apply Moves.ite | split | dsimp only | simp only [id_eq])

theorem execCfgCrcCompare_moves : OutMoves t (execCfgCrcCompare x0 x1 t) := by
  have h := Moves.refl (s := t)
  unfold execCfgCrcCompare
  repeat' (with_reducible first
    | assumption | intro _ | apply withBlk_moves | apply State.damageCfg_moves | apply State.crcHalt_moves | apply OutMoves.mk
      | apply OutMoves.ite | apply Moves.ite | split | dsimp only | simp only [id_eq])

theorem execLrd_moves : OutMoves t (execLrd x0 x1 x2 x3 t) := by
  have h := Moves.refl (s := t)
  unfold execLrd
  repeat' (with_reducible first
    | assumption | intro _ | apply State.issue_moves | apply State.coreFault_moves | apply State.retire_moves | apply State.setGpr_moves
      | apply OutMoves.mk | apply OutMoves.ite | apply Moves.ite | split | dsimp only | simp only [id_eq])

theorem execLwr_moves : OutMoves t (execLwr x0 x1 x2 x3 t) := by
  have h := Moves.refl (s := t)
  unfold execLwr
  repeat' (with_reducible first
    | assumption | intro _ | apply State.issue_moves | apply State.coreFault_moves | apply State.writeEffect_moves
      | apply State.retire_moves | apply OutMoves.mk | apply OutMoves.ite | apply Moves.ite | split | dsimp only | simp only [id_eq])

theorem execPatrolScrub_moves : OutMoves t (execPatrolScrub x0 x1 x2 t) := by
  have h := Moves.refl (s := t)
  unfold execPatrolScrub
  repeat' (with_reducible first
    | assumption | apply State.setFlag_moves | apply State.bump_moves | apply State.dramUncorrectable_moves | apply OutMoves.mk
      | apply OutMoves.ite | apply Moves.ite | split | dsimp only | simp only [id_eq])

theorem execRngHealthFail_moves : OutMoves t (execRngHealthFail t) := by
  have h := Moves.refl (s := t)
  unfold execRngHealthFail
  repeat' (with_reducible first
    | assumption | apply State.log_moves | apply State.bump_moves | apply State.setFlag_moves | apply OutMoves.mk | apply OutMoves.ite
      | apply Moves.ite | split | dsimp only | simp only [id_eq])

/-! ## Jobs -/

theorem State.dropJobFabric_moves (h : Moves s t) : Moves s (State.dropJobFabric t x1 x2) := by
  unfold State.dropJobFabric
  repeat' (with_reducible first
    | assumption | intro _ | apply Moves.fabric | apply Moves.ite | apply Moves.foldl | apply Moves.foldl1 | split | dsimp only
      | simp only [id_eq])

theorem State.dropJobUnits_moves (h : Moves s t) : Moves s (State.dropJobUnits t x1 x2) := by
  unfold State.dropJobUnits
  repeat' (with_reducible first
    | assumption | apply Moves.mailroom | apply Moves.cruiser | apply Moves.cluster | apply Moves.ite | split | dsimp only
      | simp only [id_eq])

theorem State.stopCoreIssue_moves (h : Moves s t) : Moves s (State.stopCoreIssue t x1) := by
  unfold State.stopCoreIssue
  repeat' (with_reducible first
    | assumption | apply State.clearFlag_moves | apply Moves.core | apply Moves.ite | split | dsimp only | simp only [id_eq])

theorem State.stopIssuing_moves (h : Moves s t) : Moves s (State.stopIssuing t x1) := by
  unfold State.stopIssuing
  repeat' (with_reducible first
    | assumption | intro _ | apply State.stopCoreIssue_moves | apply Moves.ite | apply Moves.foldl | apply Moves.foldl1 | split
      | dsimp only | simp only [id_eq])

theorem State.reportForce_moves (h : Moves s t) : Moves s (State.reportForce t x1) := by
  unfold State.reportForce
  repeat' (with_reducible first
    | assumption | apply State.fireBlaze_moves | apply State.hostEvent_moves | apply Moves.ite | split | dsimp only
      | simp only [id_eq])

theorem State.reportStop_moves (h : Moves s t) : Moves s (State.reportStop t x1 x2 x3) := by
  unfold State.reportStop
  repeat' (with_reducible first
    | assumption | apply State.hostEvent_moves | apply State.fireBlaze_moves | apply State.reportForce_moves | apply Moves.ite
      | split | dsimp only | simp only [id_eq])

theorem State.stopJob_moves (h : Moves s t) : Moves s (State.stopJob t j r b u f) := by
  have k (u : State) (hu : Moves s u) : Moves s { u with tally := { u.tally with jobFaults := u.tally.jobFaults + 1 } } :=
    .tallyKeep hu rfl rfl
  unfold State.stopJob
  extract_lets v fault a1 a2 a3 a4 a5 a6
  have h5 : Moves s a5 := State.log_moves (.job (.foldl (.foldl (.foldl h (fun _ _ hu => State.dropJobFabric_moves hu) _)
      (fun _ _ hu => State.writeLndSlot_moves hu) _) (fun _ _ hu => State.stopIssuing_moves (State.dropJobUnits_moves hu)) _) ..)
  clear_value a5
  exact State.reportStop_moves (.ite (k _ h5) h5)

theorem State.stopsAt_moves (h : Moves s t) : Moves s (State.stopsAt t x1 x2) := by
  unfold State.stopsAt
  repeat' (with_reducible first
    | assumption | intro _ | apply State.stopJob_moves | apply Moves.ite | apply Moves.foldl | apply Moves.foldl1 | split | dsimp only
      | simp only [id_eq])

theorem State.forgetSteps_moves (h : Moves s t) : Moves s (State.forgetSteps t x1 x2) := by
  unfold State.forgetSteps
  repeat' (with_reducible first
    | assumption | intro _ | apply Moves.job | apply Moves.fabric | apply Moves.landing | apply State.opened_moves
      | apply Moves.ite | apply Moves.foldl | apply Moves.foldl1 | split | dsimp only | simp only [id_eq])

theorem State.enterStep_moves (h : Moves s t) : Moves s (State.enterStep t x1 x2 x3 x4) := by
  unfold State.enterStep
  repeat' (with_reducible first
    | assumption | apply Moves.reg | apply Moves.job | apply State.openStep_moves | apply State.forgetSteps_moves
      | apply Moves.ite | split | dsimp only | simp only [id_eq])

theorem State.rematch_moves (h : Moves s t) : Moves s (State.rematch t x1 x2) := by
  unfold State.rematch
  repeat' (with_reducible first
    | assumption | intro _ | apply Moves.job | apply State.markComplete_moves | apply State.countBatch_moves | apply Moves.ite
      | apply Moves.foldl | apply Moves.foldl1 | split | dsimp only | simp only [id_eq])

theorem State.switchPlan_moves (h : Moves s t) : Moves s (State.switchPlan t x1 x2 x3 x4) := by
  unfold State.switchPlan
  repeat' (with_reducible first
    | assumption | apply Moves.reg | apply Moves.job | apply State.clearFlag_moves | apply State.rematch_moves
      | apply Moves.ite | split | dsimp only | simp only [id_eq])

theorem State.advanceJob_moves (h : Moves s t) : Moves s (State.advanceJob t x1 x2 x3) := by
  unfold State.advanceJob
  repeat' (with_reducible first
    | assumption | apply State.enterStep_moves | apply State.switchPlan_moves | apply Moves.ite | split | dsimp only
      | simp only [id_eq])

theorem State.refuseLate_moves (h : Moves s t) : Moves s (State.refuseLate t x1 x2) := by
  unfold State.refuseLate
  repeat' (with_reducible first
    | assumption | apply State.refuseNext_moves | apply Moves.ite | split | dsimp only | simp only [id_eq])

theorem State.startJob_moves (h : Moves s t) : Moves s (State.startJob t x1 x2 x3) := by
  unfold State.startJob
  repeat' (with_reducible first
    | assumption | apply State.enterStep_moves | apply Moves.job | apply State.switchPlan_moves | apply Moves.ite | split
      | dsimp only | simp only [id_eq])

theorem State.unwatch_moves (h : Moves s t) : Moves s (State.unwatch t x1 x2) := by
  unfold State.unwatch
  repeat' (with_reducible first
    | assumption | apply Moves.job | apply Moves.ite | split | dsimp only | simp only [id_eq])

theorem State.profileOne_moves (h : Moves s t) : Moves s (State.profileOne t x1 x2) := by
  unfold State.profileOne
  repeat' (with_reducible first
    | assumption | apply Moves.cluster | apply State.setField_moves | apply Moves.ite | split | dsimp only | simp only [id_eq])

theorem State.profileAt_moves (h : Moves s t) : Moves s (State.profileAt t x1) := by
  unfold State.profileAt
  repeat' (with_reducible first
    | assumption | intro _ | apply State.profileOne_moves | apply Moves.ite | apply Moves.foldl | apply Moves.foldl1 | split | dsimp only
      | simp only [id_eq])

theorem State.invalidateXlat_moves (h : Moves s t) : Moves s (State.invalidateXlat t x1) := by
  unfold State.invalidateXlat
  repeat' (with_reducible first
    | assumption | intro _ | apply Moves.core | apply State.bump_moves | apply Moves.cluster | apply Moves.ite | apply Moves.foldl
      | apply Moves.foldl1 | split | dsimp only | simp only [id_eq])

theorem State.invalsAt_moves (h : Moves s t) : Moves s (State.invalsAt t x1) := by
  unfold State.invalsAt
  repeat' (with_reducible first
    | assumption | intro _ | apply State.invalidateXlat_moves | apply Moves.ite | apply Moves.foldl | apply Moves.foldl1 | split
      | dsimp only | simp only [id_eq] | apply Moves.other | exact Moves.tallyKeep (by assumption) (by rfl) (by rfl))

theorem State.marksAt_moves (h : Moves s t) : Moves s (State.marksAt t) :=
  .foldl (.dropRegs h fun p => !frameUsedAddr t p.1) (fun _ _ hu => .core hu ..) _

theorem State.capsAt_moves (h : Moves s t) : Moves s (State.capsAt t x1) := by
  unfold State.capsAt
  repeat' (with_reducible first
    | assumption | apply Moves.ite | split | dsimp only | simp only [id_eq] | apply Moves.other
      | exact Moves.tallyKeep (by assumption) (by rfl) (by rfl))

theorem State.tokensAt_moves (h : Moves s t) : Moves s (State.tokensAt t x1) := by
  unfold State.tokensAt
  repeat' (with_reducible first
    | assumption | intro _ | apply State.applySlip_moves | apply Moves.ite | apply Moves.foldl | apply Moves.foldl1 | split | dsimp only
      | simp only [id_eq] | apply Moves.other | exact Moves.tallyKeep (by assumption) (by rfl) (by rfl))

theorem State.openFrame_moves (h : Moves s t) : Moves s (State.openFrame t x1) := by
  unfold State.openFrame
  exact .other (.reg (.reg (.foldl h (fun _ _ hu => State.unwatch_moves hu) _) ..) ..) ..

theorem State.opened_moves (h : Moves s t) : Moves s (State.opened t x1) := by
  unfold State.opened
  repeat' (with_reducible first
    | assumption | intro _ | apply State.marksAt_moves | apply State.stopsAt_moves | apply State.startJob_moves
      | apply State.advanceJob_moves | apply State.refuseLate_moves | apply State.invalsAt_moves | apply State.capsAt_moves
      | apply State.profileAt_moves | apply State.upgradeAt_moves | apply State.stepAt_moves | apply State.tokensAt_moves | apply State.settleBlaze_moves | apply Moves.ite
      | apply Moves.foldl | apply Moves.foldl1 | split | dsimp only | simp only [id_eq])

theorem State.boundaryAt_moves (h : Moves s t) : Moves s (State.boundaryAt t x1) := by
  unfold State.boundaryAt
  repeat' (with_reducible first
    | assumption | intro _ | apply State.openFrame_moves | apply State.profileAt_moves | apply State.stepAt_moves
      | apply State.opened_moves | apply Moves.ite | apply Moves.foldl | apply Moves.foldl1 | split | dsimp only
      | simp only [id_eq])

theorem State.originAt_moves (h : Moves s t) : Moves s (State.originAt t) := by
  unfold State.originAt
  repeat' (with_reducible first
    | assumption | apply State.beginFrames_moves | apply State.opened_moves | apply Moves.ite | split | dsimp only
      | simp only [id_eq])

theorem State.frameBoundary_moves (h : Moves s t) : Moves s (State.frameBoundary t) := by
  unfold State.frameBoundary
  repeat' (with_reducible first
    | assumption | apply State.boundaryAt_moves | apply State.originAt_moves | apply Moves.ite | split | dsimp only
      | simp only [id_eq])

/-! ## Boot -/

theorem State.showProv_moves (h : Moves s t) : Moves s (State.showProv t) := by
  unfold State.showProv
  repeat' (with_reducible first
    | assumption | apply Moves.reg | apply State.setField_moves | apply Moves.ite | split | dsimp only | simp only [id_eq])

theorem State.selectProv_moves (h : Moves s t) : Moves s (State.selectProv t) := by
  unfold State.selectProv
  repeat' (with_reducible first
    | assumption | apply State.log_moves | apply State.setFlag_moves | apply State.showProv_moves | apply Moves.ite | split | dsimp only
      | simp only [id_eq] | apply Moves.other | exact Moves.tallyKeep (by assumption) (by rfl) (by rfl))

theorem State.rebuildIdentity_moves (h : Moves s t) : Moves s (State.rebuildIdentity t) := by
  unfold State.rebuildIdentity
  repeat' (with_reducible first
    | assumption | apply State.log_moves | apply State.setFlag_moves | apply Moves.ite | split | dsimp only | simp only [id_eq]
      | apply Moves.other | exact Moves.tallyKeep (by assumption) (by rfl) (by rfl))

theorem State.bringUpLookout_moves (h : Moves s t) : Moves s (State.bringUpLookout t) := by
  unfold State.bringUpLookout
  repeat' (with_reducible first
    | assumption | apply State.freeBytes_moves | apply Moves.reg | apply State.setField_moves | apply Moves.ite | split | dsimp only
      | simp only [id_eq] | apply Moves.other | exact Moves.tallyKeep (by assumption) (by rfl) (by rfl))

theorem execStandbyPowerUp_moves : OutMoves t (execStandbyPowerUp t) := by
  refine OutMoves.mk (.ite .refl ?_)
  have k : Moves t { t with standbyOn := true, foe := { t.foe with romDone := true, romDigest := sha512 Config.romImage } } :=
    .other (.standbyOn .refl) t.beat t.time t.blaze t.loopback t.shape
      { t.foe with romDone := true, romDigest := sha512 Config.romImage } t.lko t.pwr
  exact State.log_moves (State.bringUpLookout_moves (State.rebuildIdentity_moves (State.selectProv_moves (State.setFlag_moves (.reg k ..)))))

theorem execStandbyPowerLoss_moves : OutMoves t (execStandbyPowerLoss t) := OutMoves.mk (.lose .refl)

theorem State.openImage_moves (h : Moves s t) : Moves.fst s (State.openImage t x1 x2) := by
  unfold State.openImage
  repeat' (with_reducible first
    | assumption | apply Moves.fst_ite | apply Moves.ite | split | dsimp only | simp only [id_eq] | apply Moves.other
      | exact Moves.tallyKeep (by assumption) (by rfl) (by rfl))

theorem State.writeImage_moves (h : Moves s t) : Moves.fst s (State.writeImage t x1 x2 x3) := by
  unfold State.writeImage
  repeat' (with_reducible first
    | assumption | apply Moves.fst_ite | apply Moves.ite | split | dsimp only | simp only [id_eq] | apply Moves.other
      | exact Moves.tallyKeep (by assumption) (by rfl) (by rfl))

theorem execImageBufferIdle_moves : OutMoves t (execImageBufferIdle t) := by
  have h := Moves.refl (s := t)
  unfold execImageBufferIdle
  repeat' (with_reducible first
    | assumption | apply State.log_moves | apply State.setFlag_moves | apply OutMoves.mk | apply OutMoves.ite | apply Moves.ite | split
      | dsimp only | simp only [id_eq] | apply Moves.other | exact Moves.tallyKeep (by assumption) (by rfl) (by rfl))

theorem State.provAfter_moves (h : Moves s t) : Moves s (State.provAfter t) := .forester h _

theorem State.putCopy_moves (h : Moves s t) : Moves s (State.putCopy t c l f) := .forester (.flash h ..) f

theorem State.writeProv_moves (h : Moves s t) : Moves.fst s (State.writeProv t c l ok) := by
  unfold State.writeProv
  split
  · exact State.log_moves (State.bump_moves (State.setFlag_moves (State.showProv_moves (State.provAfter_moves
      (State.putCopy_moves h)))))
  · exact State.log_moves (State.setFlag_moves (State.putCopy_moves (State.freeBytes_moves h)))

theorem State.applyRecords_moves (h : Moves s t) : Moves.fst s (State.applyRecords t x1 x2) := by
  unfold State.applyRecords
  repeat' (with_reducible first
    | assumption | intro _ | apply State.writeProv_moves | apply Moves.fst_ite | apply Moves.ite | apply Moves.foldl | apply Moves.foldl1
      | split | dsimp only | simp only [id_eq])

theorem State.rejectImage_moves (h : Moves s t) : Moves s (State.rejectImage t x1 x2 x3) := by
  unfold State.rejectImage
  repeat' (with_reducible first
    | assumption | apply State.setFlag_moves | apply Moves.reg | apply State.log_moves | apply State.bump_moves | apply Moves.ite | split
      | dsimp only | simp only [id_eq] | apply Moves.other | exact Moves.tallyKeep (by assumption) (by rfl) (by rfl))

theorem State.startFirmware_moves (h : Moves s t) : Moves s (State.startFirmware t x1) := by
  unfold State.startFirmware
  repeat' (with_reducible first
    | assumption | apply State.log_moves | apply State.bump_moves | apply Moves.reg | apply Moves.ite | split | dsimp only
      | simp only [id_eq] | apply Moves.other | exact Moves.tallyKeep (by assumption) (by rfl) (by rfl))

theorem State.commitImage_moves (h : Moves s t) : Moves.fst s (State.commitImage t x1 x2) := by
  unfold State.commitImage
  repeat' (with_reducible first
    | assumption | apply State.applyRecords_moves | apply State.startFirmware_moves | apply State.rejectImage_moves
      | apply State.log_moves | apply State.setFlag_moves | apply Moves.fst_ite | apply Moves.ite | split | dsimp only
      | simp only [id_eq])

/-! ## CoreMem -/

theorem State.jobAccess_moves (h : Moves s t) : Moves s (State.jobAccess t x1 x2 x3 x4 x5 x6 x7) := by
  unfold State.jobAccess
  repeat' (with_reducible first
    | assumption | apply State.coreFault_moves | apply State.retire_moves | apply State.bump_moves | apply State.reach_moves
      | apply State.dmaYield_moves | apply State.takeSlot_moves | apply State.demand_moves | apply State.walkError_moves
      | apply Moves.ite | split | dsimp only | simp only [id_eq])

theorem execLoad_moves : OutMoves t (execLoad x0 x1 x2 x3 x4 t) := by
  have h := Moves.refl (s := t)
  unfold execLoad
  repeat' (with_reducible first
    | assumption | intro _ | apply State.issue_moves | apply State.illegal_moves | apply State.coreFault_moves
      | apply State.scratchEcc_moves | apply State.retire_moves | apply State.loadResult_moves | apply State.jobAccess_moves
      | apply OutMoves.mk | apply OutMoves.ite | apply Moves.ite | split | dsimp only | simp only [id_eq])

theorem execStore_moves : OutMoves t (execStore x0 x1 x2 x3 t) := by
  have h := Moves.refl (s := t)
  unfold execStore
  repeat' (with_reducible first
    | assumption | intro _ | apply State.issue_moves | apply State.illegal_moves | apply State.coreFault_moves
      | apply State.retire_moves | apply State.scrWr_moves | apply State.jobAccess_moves | apply State.scratchEcc_moves
      | apply OutMoves.mk | apply OutMoves.ite | apply Moves.ite | split | dsimp only | simp only [id_eq])

theorem State.slotFreed_moves (h : Moves s t) : Moves s (State.slotFreed t x1) := by
  unfold State.slotFreed
  repeat' (with_reducible first
    | assumption | apply State.coreProgress_moves | apply State.advanceAll_moves | apply Moves.ite | split | dsimp only
      | simp only [id_eq])

theorem execJobLoadReturn_moves : OutMoves t (execJobLoadReturn x0 x1 x2 t) := by
  have h := Moves.refl (s := t)
  unfold execJobLoadReturn
  repeat' (with_reducible first
    | assumption | apply State.lineError_moves | apply State.dropSlot_moves | apply State.slotFreed_moves
      | apply State.coreFault_moves | apply State.loadResult_moves | apply State.windowEcc_moves | apply OutMoves.mk
      | apply OutMoves.ite | apply Moves.ite | split | dsimp only | simp only [id_eq])

theorem execJobStorePerformed_moves : OutMoves t (execJobStorePerformed x0 x1 t) := by
  have h := Moves.refl (s := t)
  unfold execJobStorePerformed
  repeat' (with_reducible first
    | assumption | apply State.dropSlot_moves | apply Moves.mem | apply State.slotFreed_moves
      | apply State.invalidateLine_moves | apply State.windowEcc_moves | apply State.coreFault_moves | apply OutMoves.mk
      | apply OutMoves.ite | apply Moves.ite | split | dsimp only | simp only [id_eq])

theorem State.fillError_moves (h : Moves s t) : Moves.fst s (State.fillError t x1 x2 x3) := by
  unfold State.fillError
  repeat' (with_reducible first
    | assumption | apply State.lineError_moves | apply Moves.fst_ite | apply Moves.ite | split | dsimp only | simp only [id_eq])

theorem execPrefetchFill_moves : OutMoves t (execPrefetchFill x0 x1 t) := by
  have h := Moves.refl (s := t)
  unfold execPrefetchFill
  repeat' (with_reducible first
    | assumption | apply State.dropSlot_moves | apply State.cacheInsert_moves | apply State.slotFreed_moves
      | apply State.fillError_moves | apply OutMoves.mk | apply OutMoves.ite | apply Moves.ite | split | dsimp only
      | simp only [id_eq])

/-! ## CoreScalar -/

theorem execBranch_moves : OutMoves t (execBranch x0 x1 x2 x3 t) := by
  have h := Moves.refl (s := t)
  unfold execBranch
  repeat' (with_reducible first
    | assumption | intro _ | apply State.issue_moves | apply State.retireTo_moves | apply State.retire_moves | apply OutMoves.mk
      | apply OutMoves.ite | apply Moves.ite | split | dsimp only | simp only [id_eq])

theorem execJump_moves : OutMoves t (execJump x0 x1 t) := by
  have h := Moves.refl (s := t)
  unfold execJump
  repeat' (with_reducible first
    | assumption | intro _ | apply State.issue_moves | apply State.retireTo_moves | apply OutMoves.mk | apply OutMoves.ite
      | apply Moves.ite | split | dsimp only | simp only [id_eq])

theorem execJumpAndLink_moves : OutMoves t (execJumpAndLink x0 x1 x2 t) := by
  have h := Moves.refl (s := t)
  unfold execJumpAndLink
  repeat' (with_reducible first
    | assumption | intro _ | apply State.issue_moves | apply State.retireTo_moves | apply State.setGpr_moves | apply OutMoves.mk
      | apply OutMoves.ite | apply Moves.ite | split | dsimp only | simp only [id_eq])

theorem execFence_moves : OutMoves t (execFence x0 t) := by
  have h := Moves.refl (s := t)
  unfold execFence
  repeat' (with_reducible first
    | assumption | intro _ | apply State.issue_moves | apply State.coreProgress_moves | apply State.setStall_moves
      | apply State.retire_moves | apply OutMoves.mk | apply OutMoves.ite | apply Moves.ite | split | dsimp only | simp only [id_eq])

theorem execMarkFrame_moves : OutMoves t (execMarkFrame x0 t) := by
  have h := Moves.refl (s := t)
  unfold execMarkFrame
  repeat' (with_reducible first
    | assumption | intro _ | apply State.issue_moves | apply Moves.reg | apply State.retire_moves | apply Moves.core | apply OutMoves.mk
      | apply OutMoves.ite | apply Moves.ite | split | dsimp only | simp only [id_eq])

theorem execMarkStep_moves : OutMoves t (execMarkStep x0 t) := by
  have h := Moves.refl (s := t)
  unfold execMarkStep
  repeat' (with_reducible first
    | assumption | intro _ | apply State.issue_moves | apply State.bump_moves | apply Moves.reg | apply State.retire_moves
      | apply Moves.core | apply OutMoves.mk | apply OutMoves.ite | apply Moves.ite | split | dsimp only | simp only [id_eq])

theorem execHalt_moves : OutMoves t (execHalt x0 t) := by
  have h := Moves.refl (s := t)
  unfold execHalt
  repeat' (with_reducible first
    | assumption | intro _ | apply State.issue_moves | apply State.coreProgress_moves | apply State.setStall_moves
      | apply State.retire_moves | apply OutMoves.mk | apply OutMoves.ite | apply Moves.ite | split | dsimp only | simp only [id_eq])

/-! ## Dma -/

theorem execDmaIssue_moves : OutMoves t (execDmaIssue x0 x1 t) := by
  have h := Moves.refl (s := t)
  unfold execDmaIssue
  repeat' (with_reducible first
    | assumption | intro _ | apply State.issue_moves | apply State.coreFault_moves | apply State.enqueue_moves
      | apply State.retire_moves | apply State.scratchEcc_moves | apply OutMoves.mk | apply OutMoves.ite | apply Moves.ite
      | split | dsimp only | simp only [id_eq])

theorem State.dmaError_moves (h : Moves s t) : Moves.fst s (State.dmaError t x1 x2 x3) := by
  unfold State.dmaError
  repeat' (with_reducible first
    | assumption | apply State.windowEcc_moves | apply State.lineError_moves | apply Moves.fst_ite | apply Moves.ite | split
      | dsimp only | simp only [id_eq])

theorem State.endRun_moves (h : Moves s t) : Moves s (State.endRun t x1 x2) := by
  unfold State.endRun
  repeat' (with_reducible first
    | assumption | apply Moves.core | apply Moves.ite | split | dsimp only | simp only [id_eq])

theorem execDmaDone_moves : OutMoves t (execDmaDone x0 x1 x2 t) := by
  have h := Moves.refl (s := t)
  unfold execDmaDone
  repeat' (with_reducible first
    | assumption | apply State.coreFault_moves | apply Moves.core | apply State.kick_moves | apply State.signal_moves
      | apply State.bump_moves | apply State.dmaError_moves | apply State.endRun_moves | apply State.dmaFinish_moves
      | apply OutMoves.mk | apply OutMoves.ite | apply Moves.ite | split | dsimp only | simp only [id_eq])

theorem execDmaPageFault_moves : OutMoves t (execDmaPageFault x0 x1 t) := by
  have h := Moves.refl (s := t)
  unfold execDmaPageFault
  repeat' (with_reducible first
    | assumption | apply State.coreFault_moves | apply Moves.core | apply State.dmaFinish_moves | apply State.endRun_moves
      | apply OutMoves.mk | apply OutMoves.ite | apply Moves.ite | split | dsimp only | simp only [id_eq])

/-! ## Plan -/

theorem State.loadPlan_moves (h : Moves s t) : Moves.fst s (State.loadPlan t x1 x2) := by
  unfold State.loadPlan
  repeat' (with_reducible first
    | assumption | apply Moves.reg | apply Moves.job | apply State.planRefused_moves | apply Moves.fst_ite | apply Moves.ite | split
      | dsimp only | simp only [id_eq])

theorem State.loadNext_moves (h : Moves s t) : Moves.fst s (State.loadNext t x1 x2 x3) := by
  unfold State.loadNext
  repeat' (with_reducible first
    | assumption | apply Moves.reg | apply Moves.job | apply State.planRefused_moves | apply Moves.fst_ite | apply Moves.ite | split
      | dsimp only | simp only [id_eq])

/-! ## Request -/

theorem State.setGrant_moves (h : Moves s t) : Moves s (State.setGrant t x1 x2) := by
  unfold State.setGrant
  repeat' (with_reducible first
    | assumption | apply Moves.ite | split | dsimp only | simp only [id_eq] | apply Moves.other
      | exact Moves.tallyKeep (by assumption) (by rfl) (by rfl))

theorem State.giveCluster_moves (h : Moves s t) : Moves s (State.giveCluster t x1 x2) := by
  unfold State.giveCluster
  repeat' (with_reducible first
    | assumption | intro _ | apply Moves.job | apply Moves.ite | apply Moves.foldl | apply Moves.foldl1 | split | dsimp only
      | simp only [id_eq])

theorem State.bad_moves (h : Moves s t) : Ran.moves s (State.bad t x1) := by
  unfold State.bad
  repeat' (with_reducible first
    | assumption | apply Ran.moves_ite | apply Ran.moves_refused | apply Ran.moves_done | apply Ran.moves_waits | apply Moves.ite | split
      | dsimp only | simp only [id_eq])

theorem State.good_moves (h : Moves s t) : Ran.moves s (State.good t x1) := by
  unfold State.good
  repeat' (with_reducible first
    | assumption | apply Ran.moves_ite | apply Ran.moves_refused | apply Ran.moves_done | apply Ran.moves_waits | apply Moves.ite | split
      | dsimp only | simp only [id_eq])

/-! ## Slice -/

theorem State.writeSliceTime_moves (h : Moves s t) : Moves s (State.writeSliceTime t x1) := by
  unfold State.writeSliceTime
  repeat' (with_reducible first
    | assumption | apply Moves.reg | apply State.setPair_moves | apply Moves.ite | split | dsimp only | simp only [id_eq])

theorem State.writeSliceTile_moves (h : Moves s t) : Moves s (State.writeSliceTile t x1 x2) := by
  unfold State.writeSliceTile
  repeat' (with_reducible first
    | assumption | intro _ | apply Moves.reg | apply State.setPair_moves | apply Moves.route | apply Moves.ite | apply Moves.foldl
      | apply Moves.foldl1 | split | dsimp only | simp only [id_eq])

theorem State.writeSlice_moves (h : Moves s t) : Moves s (State.writeSlice t x1) := by
  unfold State.writeSlice
  repeat' (with_reducible first
    | assumption | intro _ | apply State.writeSliceTile_moves | apply State.writeSliceTime_moves | apply Moves.ite | apply Moves.foldl
      | apply Moves.foldl1 | split | dsimp only | simp only [id_eq])

theorem State.commitBlk_moves (h : Moves s t) : Moves s (State.commitBlk t x1) := by
  unfold State.commitBlk
  repeat' (with_reducible first
    | assumption | apply State.enableBlk_moves | apply Moves.reg | apply Moves.ite | split | dsimp only | simp only [id_eq])

theorem State.joinPort_moves (h : Moves s t) : Moves s (State.joinPort t x1 x2) := by
  unfold State.joinPort
  repeat' (with_reducible first
    | assumption | apply State.disableBlk_moves | apply Moves.reg | apply State.setField_moves | apply State.commitBlk_moves
      | apply Moves.ite | split | dsimp only | simp only [id_eq])

theorem State.joinSlice_moves (h : Moves s t) : Moves s (State.joinSlice t x1) := by
  unfold State.joinSlice
  repeat' (with_reducible first
    | assumption | intro _ | apply State.disableBlk_moves | apply State.writeSlice_moves | apply State.joinPort_moves
      | apply State.commitBlk_moves | apply Moves.ite | apply Moves.foldl | apply Moves.foldl1 | split | dsimp only | simp only [id_eq]
      | apply Moves.other | exact Moves.tallyKeep (by assumption) (by rfl) (by rfl))

theorem State.resetCfg_moves (h : Moves s t) : Moves s (State.resetCfg t x1) := by
  unfold State.resetCfg
  repeat' (with_reducible first
    | assumption | intro _ | apply Moves.reg | apply Moves.ite | apply Moves.foldl | apply Moves.foldl1 | split | dsimp only
      | simp only [id_eq])

theorem State.leaveSlice_moves (h : Moves s t) : Moves s (State.leaveSlice t) := by
  have k (u : State) (hu : Moves s u) : Moves s { u with routes := [], shape := 0, foe := { u.foe with stage := .ready } } :=
    .other (.clearRoutes hu) u.beat u.time u.blaze u.loopback 0 { u.foe with stage := .ready } u.lko u.pwr
  exact k _ (.foldl (.foldl h (fun _ _ hu => State.disableBlk_moves hu) _) (fun _ _ hu => State.resetCfg_moves hu) _)

/-! ## Context -/

theorem State.runCtxSave_moves (h : Moves s t) : Ran.moves s (State.runCtxSave t x1) := by
  unfold State.runCtxSave
  repeat' (with_reducible first
    | assumption | apply State.bad_moves | apply State.good_moves | apply State.outsideWrite_moves | apply Ran.moves_ite
      | apply Ran.moves_refused | apply Ran.moves_done | apply Ran.moves_waits | apply Moves.ite | split | dsimp only | simp only [id_eq])

theorem State.restoreCore_moves (h : Moves s t) : Moves s (State.restoreCore t x1 x2 x3) := by
  unfold State.restoreCore
  repeat' (with_reducible first
    | assumption | intro _ | apply Moves.core | apply State.setField_moves | apply State.kick_moves
      | apply State.manualSet_moves | apply Moves.ite | apply Moves.foldl | apply Moves.foldl1 | split | dsimp only
      | simp only [id_eq])

theorem State.restoreCluster_moves (h : Moves s t) : Moves s (State.restoreCluster t x1) := by
  unfold State.restoreCluster
  repeat' (with_reducible first
    | assumption | intro _ | apply Moves.reg | apply Moves.ite | apply Moves.foldl | apply Moves.foldl1 | split | dsimp only
      | simp only [id_eq])

theorem State.runCtxRestore_moves (h : Moves s t) : Ran.moves s (State.runCtxRestore t x1) := by
  unfold State.runCtxRestore
  extract_lets p src n l form ps u
  have hu : Moves s u := by
    clear_value ps form
    refine .foldl h (fun _ q hu => ?_) _
    split
    · exact State.restoreCore_moves hu
    · exact hu
  clear_value u ps form
  have hv : Ran.moves s ((imageClusters l).foldl State.restoreCluster u).good := by
    clear_value l
    exact State.good_moves (.foldl hu (fun _ _ hv => State.restoreCluster_moves hv) _)
  split
  · exact State.bad_moves h
  clear_value n
  split
  · exact State.bad_moves h
  clear_value l
  exact Ran.moves_ite (State.bad_moves h) (Ran.moves_ite (Ran.moves_refused h) (Ran.moves_ite (Ran.moves_refused h)
    (Ran.moves_ite (State.bad_moves h) hv)))

/-! ## Commands -/

theorem State.runHello_moves (h : Moves s t) : Ran.moves s (State.runHello t x1) := by
  unfold State.runHello
  repeat' (with_reducible first
    | assumption | apply State.bad_moves | apply State.good_moves | apply State.log_moves | apply Ran.moves_ite | apply Ran.moves_refused
      | apply Ran.moves_done | apply Ran.moves_waits | apply Moves.ite | split | dsimp only | simp only [id_eq] | apply Moves.other
      | exact Moves.tallyKeep (by assumption) (by rfl) (by rfl))

theorem State.runIdentity_moves (h : Moves s t) : Ran.moves s (State.runIdentity t x1) := by
  unfold State.runIdentity
  repeat' (with_reducible first
    | assumption | apply State.good_moves | apply State.bad_moves | apply Ran.moves_ite | apply Ran.moves_refused | apply Ran.moves_done
      | apply Ran.moves_waits | apply Moves.ite | split | dsimp only | simp only [id_eq])

theorem finish_moves {r : State × Status} (h : Moves.fst s r) : Ran.moves s (finish r) := by
  unfold finish
  split <;> exact h

theorem State.runFwBegin_moves (h : Moves s t) : Ran.moves s (State.runFwBegin t x1) := by
  unfold State.runFwBegin
  repeat' (with_reducible first
    | assumption | intro _ | apply State.bad_moves | apply finish_moves | apply State.openImage_moves | apply Ran.moves_ite
      | apply Ran.moves_refused | apply Ran.moves_done | apply Ran.moves_waits | apply Moves.ite | split | dsimp only | simp only [id_eq])

theorem State.runFwChunk_moves (h : Moves s t) : Ran.moves s (State.runFwChunk t x1) := by
  unfold State.runFwChunk
  repeat' (with_reducible first
    | assumption | intro _ | apply State.bad_moves | apply finish_moves | apply State.writeImage_moves | apply Ran.moves_ite
      | apply Ran.moves_refused | apply Ran.moves_done | apply Ran.moves_waits | apply Moves.ite | split | dsimp only | simp only [id_eq])

theorem State.runFwCommit_moves (h : Moves s t) : Ran.moves s (State.runFwCommit t x1 x2) := by
  unfold State.runFwCommit
  repeat' (with_reducible first
    | assumption | apply State.bad_moves | apply State.commitImage_moves | apply State.good_moves | apply Ran.moves_ite
      | apply Ran.moves_refused | apply Ran.moves_done | apply Ran.moves_waits | apply Moves.ite | split | dsimp only | simp only [id_eq])

theorem State.trainOne_moves (h : Moves s t) : Moves s (State.trainOne t x1) := by
  unfold State.trainOne
  repeat' (with_reducible first
    | assumption | apply State.setField_moves | apply State.log_moves | apply Moves.ite | split | dsimp only | simp only [id_eq])

theorem State.failTile_moves (h : Moves s t) : Moves s (State.failTile t x1) := by
  unfold State.failTile
  repeat' (with_reducible first
    | assumption | apply State.useFree_moves | apply State.log_moves | apply Moves.ite | split | dsimp only | simp only [id_eq])

theorem State.failTiles_moves (h : Moves s t) : Moves s (State.failTiles t x1) := by
  unfold State.failTiles
  repeat' (with_reducible first
    | assumption | intro _ | apply State.failTile_moves | apply Moves.ite | apply Moves.foldl | apply Moves.foldl1 | split
      | dsimp only | simp only [id_eq])

theorem State.trainAll_moves (h : Moves s t) : Moves s (State.trainAll t r) := by
  have k := State.failTiles_moves (x1 := r) (.foldl (f := State.trainOne) h (fun _ _ hu => State.trainOne_moves hu) (memCtls r))
  unfold State.trainAll
  generalize State.failTiles ((memCtls r).foldl State.trainOne t) r = x at k
  exact .other k x.beat x.time x.blaze x.loopback x.shape { x.foe with window := x.foe.windowNext, repairs := x.repairBytes } x.lko x.pwr

theorem State.runInit_moves (h : Moves s t) : Ran.moves s (State.runInit t x1 x2) := by
  unfold State.runInit
  repeat' (with_reducible first
    | assumption | intro _ | apply State.bad_moves | apply State.trainAll_moves | apply State.good_moves | apply Ran.moves_ite
      | apply Ran.moves_refused | apply Ran.moves_done | apply Ran.moves_waits | apply Moves.ite | apply Moves.foldl | apply Moves.foldl1
      | split | dsimp only | simp only [id_eq] | apply Moves.other | exact Moves.tallyKeep (by assumption) (by rfl) (by rfl))

theorem State.runHostWindow_moves (h : Moves s t) : Ran.moves s (State.runHostWindow t x1) := by
  unfold State.runHostWindow
  repeat' (with_reducible first
    | assumption | apply State.bad_moves | apply State.good_moves | apply Ran.moves_ite | apply Ran.moves_refused | apply Ran.moves_done
      | apply Ran.moves_waits | apply Moves.ite | split | dsimp only | simp only [id_eq] | apply Moves.other
      | exact Moves.tallyKeep (by assumption) (by rfl) (by rfl))

theorem State.runSliceJoin_moves (h : Moves s t) : Ran.moves s (State.runSliceJoin t x1) := by
  unfold State.runSliceJoin
  extract_lets p a l
  have hv : Ran.moves s (if t.sliceRefused l then (t.log .fo 0x0130 2).bad 0x0130 else (t.joinSlice l).good) := by
    clear_value l
    exact Ran.moves_ite (State.bad_moves (State.log_moves h)) (State.good_moves (State.joinSlice_moves h))
  clear_value l
  split
  · exact State.bad_moves h
  · exact hv

theorem State.runSliceLeave_moves (h : Moves s t) : Ran.moves s (State.runSliceLeave t x1) := by
  unfold State.runSliceLeave
  repeat' (with_reducible first
    | assumption | apply State.good_moves | apply State.leaveSlice_moves | apply State.bad_moves | apply Ran.moves_ite
      | apply Ran.moves_refused | apply Ran.moves_done | apply Ran.moves_waits | apply Moves.ite | split | dsimp only | simp only [id_eq])

theorem State.runPlanLoad_moves (h : Moves s t) : Ran.moves s (State.runPlanLoad t x1) := by
  unfold State.runPlanLoad
  repeat' (with_reducible first
    | assumption | apply State.bad_moves | apply State.loadPlan_moves | apply State.loadNext_moves | apply State.good_moves
      | apply Ran.moves_ite | apply Ran.moves_refused | apply Ran.moves_done | apply Ran.moves_waits | apply Moves.ite | split
      | dsimp only | simp only [id_eq])

theorem State.loadProgram_moves (h : Moves s t) : Moves s (State.loadProgram x0 t x2) := by
  unfold State.loadProgram
  repeat' (with_reducible first
    | assumption | apply State.writeEffect_moves | apply State.giveCluster_moves | apply State.outsideWrite_moves
      | apply Moves.ite | split | dsimp only | simp only [id_eq])

theorem State.runProgramLoad_moves (h : Moves s t) : Ran.moves s (State.runProgramLoad t x1) := by
  unfold State.runProgramLoad
  repeat' (with_reducible first
    | assumption | intro _ | apply State.bad_moves | apply State.good_moves | apply State.loadProgram_moves | apply Ran.moves_ite
      | apply Ran.moves_refused | apply Ran.moves_done | apply Ran.moves_waits | apply Moves.ite | apply Moves.foldl | apply Moves.foldl1
      | split | dsimp only | simp only [id_eq])

theorem State.settlePosted_moves (h : Moves s t) : Moves s (State.settlePosted t x1) := by
  unfold State.settlePosted
  repeat' (with_reducible first
    | assumption | apply State.writeEffect_moves | apply Moves.posted | apply Moves.ite | split | dsimp only | simp only [id_eq])

theorem State.listWrite_moves (h : Moves s t) : Moves s (State.listWrite t x1) := by
  unfold State.listWrite
  repeat' (with_reducible first
    | assumption | apply State.writeArm_moves | apply State.writeEffect_moves | apply Moves.ite | split | dsimp only | simp only [id_eq])

theorem State.ownBlock_moves (h : Moves s t) : Moves s (State.ownBlock t x1 x2) := by
  unfold State.ownBlock
  repeat' (with_reducible first | assumption | apply State.giveCluster_moves | apply Moves.ite | split | dsimp only | simp only [id_eq])

theorem State.applyBlocks_moves (h : Moves s t) : Ran.moves s (State.applyBlocks j l i n t) := by
  induction l generalizing t i n with
  | nil => exact State.good_moves h
  | cons g l ih =>
    have hd : Moves s ((t.settlePosted g.1).disableBlk g.1) := State.disableBlk_moves (State.settlePosted_moves h)
    have he : Moves s (((g.2.foldl State.listWrite ((t.settlePosted g.1).disableBlk g.1)).ownBlock j g.1).enableBlk g.1) :=
      State.enableBlk_moves (State.ownBlock_moves (.foldl hd (fun _ _ hu => State.listWrite_moves hu) g.2))
    exact Ran.moves_ite (Ran.moves_waits hd) (Ran.moves_ite (ih he) (State.good_moves he))

theorem State.runConfigApply_moves (h : Moves s t) : Ran.moves s (State.runConfigApply t x1) := by
  unfold State.runConfigApply
  repeat' (with_reducible first
    | assumption | apply State.bad_moves | apply State.applyBlocks_moves | apply Ran.moves_ite | apply Ran.moves_refused
      | apply Ran.moves_done | apply Ran.moves_waits | apply Moves.ite | split | dsimp only | simp only [id_eq])

theorem State.resumeConfig_moves (h : Moves s t) : Ran.moves s (State.resumeConfig t x1 x2 x3) := by
  unfold State.resumeConfig
  repeat' (with_reducible first
    | assumption | apply State.applyBlocks_moves | apply Ran.moves_ite | apply Ran.moves_refused | apply Ran.moves_done
      | apply Ran.moves_waits | apply Moves.ite | split | dsimp only | simp only [id_eq])

theorem State.startSlot_moves (h : Moves s t) : Moves s (State.startSlot t x1 x2) := by
  unfold State.startSlot
  repeat' (with_reducible first
    | assumption | intro _ | apply Moves.job | apply State.writeLndSlot_moves | apply Moves.ite | apply Moves.foldl | apply Moves.foldl1
      | split | dsimp only | simp only [id_eq])

theorem State.runJobStart_moves (h : Moves s t) : Ran.moves s (State.runJobStart t x1) := by
  unfold State.runJobStart
  repeat' (with_reducible first
    | assumption | apply State.bad_moves | apply State.good_moves | apply State.startSlot_moves | apply Ran.moves_ite
      | apply Ran.moves_refused | apply Ran.moves_done | apply Ran.moves_waits | apply Moves.ite | split | dsimp only | simp only [id_eq])

theorem State.latchStop_moves (h : Moves s t) : Moves s (State.latchStop x0 t x2) := by
  unfold State.latchStop
  repeat' (with_reducible first | assumption | apply Moves.job | apply Moves.ite | split | dsimp only | simp only [id_eq])

theorem State.withdrawStop_moves (h : Moves s t) : Moves s (State.withdrawStop t x1) := by
  unfold State.withdrawStop
  repeat' (with_reducible first
    | assumption | apply Moves.job | apply Moves.ite | split | dsimp only | simp only [id_eq])

theorem State.runJobStop_moves (h : Moves s t) : Ran.moves s (State.runJobStop t x1) := by
  unfold State.runJobStop
  repeat' (with_reducible first
    | assumption | intro _ | apply State.bad_moves | apply State.latchStop_moves | apply Ran.moves_ite | apply Ran.moves_refused
      | apply Ran.moves_done | apply Ran.moves_waits | apply Moves.ite | apply Moves.foldl | apply Moves.foldl1 | split | dsimp only
      | simp only [id_eq])

theorem State.resumeJobStop_moves (h : Moves s t) : Ran.moves s (State.resumeJobStop t x1) := by
  unfold State.resumeJobStop
  repeat' (with_reducible first
    | assumption | apply State.good_moves | apply Ran.moves_ite | apply Ran.moves_refused | apply Ran.moves_done | apply Ran.moves_waits
      | apply Moves.ite | split | dsimp only | simp only [id_eq])

theorem State.discardSlot_moves (h : Moves s t) : Moves s (State.discardSlot t x1) := by
  unfold State.discardSlot
  repeat' (with_reducible first
    | assumption | intro _ | apply State.writeLndSlot_moves | apply State.clearFlag_moves | apply Moves.job | apply Moves.ite
      | apply Moves.foldl | apply Moves.foldl1 | split | dsimp only | simp only [id_eq])

theorem State.runRecover_moves (h : Moves s t) : Ran.moves s (State.runRecover t x1) := by
  unfold State.runRecover
  repeat' (with_reducible first
    | assumption | intro _ | apply State.good_moves | apply State.leaveSlice_moves | apply State.rearmBlaze_moves
      | apply State.discardSlot_moves | apply State.bad_moves | apply Ran.moves_ite | apply Ran.moves_refused | apply Ran.moves_done
      | apply Ran.moves_waits | apply Moves.ite | apply Moves.foldl | apply Moves.foldl1 | split | dsimp only | simp only [id_eq])

theorem State.setRoot_moves (h : Moves s t) : Moves s (State.setRoot x0 t x2) := by
  unfold State.setRoot
  repeat' (with_reducible first | assumption | apply Moves.reg | apply Moves.ite | split | dsimp only | simp only [id_eq])

theorem State.runMemMap_moves (h : Moves s t) : Ran.moves s (State.runMemMap t x1) := by
  unfold State.runMemMap
  repeat' (with_reducible first
    | assumption | intro _ | apply State.bad_moves | apply State.setRoot_moves | apply State.giveCluster_moves
      | apply State.invalidateXlat_moves | apply State.good_moves | apply Ran.moves_ite | apply Ran.moves_refused | apply Ran.moves_done
      | apply Ran.moves_waits | apply Moves.ite | apply Moves.foldl | apply Moves.foldl1 | split | dsimp only | simp only [id_eq]
      | apply Moves.other | exact Moves.tallyKeep (by assumption) (by rfl) (by rfl))

theorem State.resumeMemMap_moves (h : Moves s t) : Ran.moves s (State.resumeMemMap t x1) := by
  unfold State.resumeMemMap
  repeat' (with_reducible first
    | assumption | apply State.good_moves | apply Ran.moves_ite | apply Ran.moves_refused | apply Ran.moves_done | apply Ran.moves_waits
      | apply Moves.ite | split | dsimp only | simp only [id_eq])

theorem State.runMemGrant_moves (h : Moves s t) : Ran.moves s (State.runMemGrant t x1) := by
  unfold State.runMemGrant
  repeat' (with_reducible first
    | assumption | apply State.bad_moves | apply State.good_moves | apply State.setGrant_moves | apply Ran.moves_ite
      | apply Ran.moves_refused | apply Ran.moves_done | apply Ran.moves_waits | apply Moves.ite | split | dsimp only | simp only [id_eq])

theorem State.runMemRevoke_moves (h : Moves s t) : Ran.moves s (State.runMemRevoke t x1) := by
  unfold State.runMemRevoke
  repeat' (with_reducible first
    | assumption | apply State.bad_moves | apply State.good_moves | apply State.setGrant_moves | apply Ran.moves_ite
      | apply Ran.moves_refused | apply Ran.moves_done | apply Ran.moves_waits | apply Moves.ite | split | dsimp only | simp only [id_eq])

theorem State.runSnapTrigger_moves (h : Moves s t) : Ran.moves s (State.runSnapTrigger t x1) := by
  unfold State.runSnapTrigger
  repeat' (with_reducible first
    | assumption | apply State.bad_moves | apply State.good_moves | apply State.fireBlaze_moves | apply State.setFlag_moves
      | apply State.setPair_moves | apply Ran.moves_ite | apply Ran.moves_refused | apply Ran.moves_done | apply Ran.moves_waits
      | apply Moves.ite | split | dsimp only | simp only [id_eq])

theorem snapRecords_moves (h : Moves s t) : Moves.snd s (snapRecords l t) := by
  induction l generalizing t with
  | nil => exact h
  | cons b l ih => exact ih (readAll_moves h)

theorem State.snapRead_moves (h : Moves s t) : Ran.moves s (State.snapRead t x1 x2) := by
  unfold State.snapRead
  repeat' (with_reducible first
    | assumption | apply State.bad_moves | apply snapRecords_moves | apply State.good_moves | apply Ran.moves_ite
      | apply Ran.moves_refused | apply Ran.moves_done | apply Ran.moves_waits | apply Moves.ite | split | dsimp only | simp only [id_eq])

theorem State.runSnapRead_moves (h : Moves s t) : Ran.moves s (State.runSnapRead t x1) := by
  unfold State.runSnapRead
  repeat' (with_reducible first
    | assumption | apply State.snapRead_moves | apply Ran.moves_ite | apply Ran.moves_refused | apply Ran.moves_done
      | apply Ran.moves_waits | apply Moves.ite | split | dsimp only | simp only [id_eq])

theorem State.releaseSnaps_moves (h : Moves s t) : Moves s (State.releaseSnaps t) := by
  unfold State.releaseSnaps
  repeat' (with_reducible first
    | assumption | intro _ | apply State.rearmBlaze_moves | apply Moves.job | apply Moves.ite | apply Moves.foldl | apply Moves.foldl1
      | split | dsimp only | simp only [id_eq])

theorem State.runSnapRearm_moves (h : Moves s t) : Ran.moves s (State.runSnapRearm t x1) := by
  unfold State.runSnapRearm
  repeat' (with_reducible first
    | assumption | apply State.good_moves | apply State.releaseSnaps_moves | apply State.bad_moves | apply Ran.moves_ite
      | apply Ran.moves_refused | apply Ran.moves_done | apply Ran.moves_waits | apply Moves.ite | split | dsimp only | simp only [id_eq])

theorem State.selectLast_moves (h : Moves s t) : Moves s (State.selectLast t x1 x2) := by
  unfold State.selectLast
  repeat' (with_reducible first
    | assumption | apply Moves.reg | apply Moves.ite | split | dsimp only | simp only [id_eq])

theorem State.logRead_moves (h : Moves s t) : Ran.moves s (State.logRead t x1 x2) := by
  unfold State.logRead
  repeat' (with_reducible first
    | assumption | apply State.bad_moves | apply State.selectLast_moves | apply State.good_moves | apply Ran.moves_ite | apply Ran.moves_refused | apply Ran.moves_done
      | apply Ran.moves_waits | apply Moves.ite | split | dsimp only | simp only [id_eq])

theorem State.runLogRead_moves (h : Moves s t) : Ran.moves s (State.runLogRead t x1) := by
  unfold State.runLogRead
  repeat' (with_reducible first
    | assumption | apply State.logRead_moves | apply Ran.moves_ite | apply Ran.moves_refused | apply Ran.moves_done
      | apply Ran.moves_waits | apply Moves.ite | split | dsimp only | simp only [id_eq])

theorem State.runEventRead_moves (h : Moves s t) : Ran.moves s (State.runEventRead t x1) := by
  unfold State.runEventRead
  repeat' (with_reducible first
    | assumption | apply State.readReg_moves | apply State.good_moves | apply State.bad_moves | apply Ran.moves_ite
      | apply Ran.moves_refused | apply Ran.moves_done | apply Ran.moves_waits | apply Moves.ite | split | dsimp only | simp only [id_eq])

theorem State.runDebugMode_moves (h : Moves s t) : Ran.moves s (State.runDebugMode t x1) := by
  unfold State.runDebugMode
  repeat' (with_reducible first
    | assumption | apply State.bad_moves | apply State.good_moves | apply Ran.moves_ite | apply Ran.moves_refused | apply Ran.moves_done
      | apply Ran.moves_waits | apply Moves.ite | split | dsimp only | simp only [id_eq] | apply Moves.other
      | exact Moves.tallyKeep (by assumption) (by rfl) (by rfl))

theorem State.regRead_moves (h : Moves s t) : Ran.moves s (State.regRead t x1 x2) := by
  unfold State.regRead
  repeat' (with_reducible first
    | assumption | apply State.bad_moves | apply readAll_moves | apply State.good_moves | apply Ran.moves_ite | apply Ran.moves_refused
      | apply Ran.moves_done | apply Ran.moves_waits | apply Moves.ite | split | dsimp only | simp only [id_eq])

theorem State.runRegRead_moves (h : Moves s t) : Ran.moves s (State.runRegRead t x1) := by
  unfold State.runRegRead
  repeat' (with_reducible first
    | assumption | apply State.regRead_moves | apply Ran.moves_ite | apply Ran.moves_refused | apply Ran.moves_done
      | apply Ran.moves_waits | apply Moves.ite | split | dsimp only | simp only [id_eq])

theorem State.runRegWrite_moves (h : Moves s t) : Ran.moves s (State.runRegWrite t x1) := by
  unfold State.runRegWrite
  repeat' (with_reducible first
    | assumption | intro _ | apply State.bad_moves | apply State.good_moves | apply State.writeReg_moves | apply Ran.moves_ite
      | apply Ran.moves_refused | apply Ran.moves_done | apply Ran.moves_waits | apply Moves.ite | apply Moves.foldl | apply Moves.foldl1
      | split | dsimp only | simp only [id_eq])

theorem State.runSyncSet_moves (h : Moves s t) : Ran.moves s (State.runSyncSet t x1) := by
  unfold State.runSyncSet
  repeat' (with_reducible first
    | assumption | apply State.bad_moves | apply State.manualSet_moves
      | apply State.good_moves | apply State.kick_moves | apply Ran.moves_ite | apply Ran.moves_refused | apply Ran.moves_done
      | apply Ran.moves_waits | apply Moves.ite | split | dsimp only | simp only [id_eq])

theorem calRecords_moves (h : Moves s t) : Moves.snd s (calRecords l t) := by
  induction l generalizing t with
  | nil => exact h
  | cons b l ih =>
    unfold calRecords
    exact ih (readAll_moves h)

theorem State.runCalStatus_moves (h : Moves s t) : Ran.moves s (State.runCalStatus t x1) := by
  unfold State.runCalStatus
  repeat' (with_reducible first
    | assumption | apply State.bad_moves | apply calRecords_moves | apply State.good_moves | apply Ran.moves_ite
      | apply Ran.moves_refused | apply Ran.moves_done | apply Ran.moves_waits | apply Moves.ite | split | dsimp only | simp only [id_eq])

theorem State.attest_moves (h : Moves s t) : Ran.moves s (State.attest t x1) := by
  unfold State.attest
  repeat' (with_reducible first
    | assumption | apply State.bad_moves | apply State.good_moves | apply Ran.moves_ite | apply Ran.moves_refused | apply Ran.moves_done
      | apply Ran.moves_waits | apply Moves.ite | split | dsimp only | simp only [id_eq])

theorem State.runAttest_moves (h : Moves s t) : Ran.moves s (State.runAttest t x1) := by
  unfold State.runAttest
  repeat' (with_reducible first
    | assumption | apply State.attest_moves | apply Ran.moves_ite | apply Ran.moves_refused | apply Ran.moves_done
      | apply Ran.moves_waits | apply Moves.ite | split | dsimp only | simp only [id_eq])

/-! ## Mailbox -/

theorem State.logStatus_moves (h : Moves s t) : Moves s (State.logStatus t x1 x2 x3 x4) := by
  unfold State.logStatus
  repeat' (with_reducible first | assumption | apply State.log_moves | apply Moves.ite | split | dsimp only | simp only [id_eq])

theorem State.giveBack_moves (h : Moves s t) : Moves s (State.giveBack t x1 x2) := by
  unfold State.giveBack
  repeat' (with_reducible first
    | assumption | apply State.setBox_moves | apply State.msix_moves | apply Moves.ite | split | dsimp only | simp only [id_eq])

theorem State.complete_moves (h : Moves s t) : Moves s (State.complete t x1 x2 x3 x4 x5 x6) := by
  unfold State.complete
  repeat' (with_reducible first
    | assumption | apply State.logStatus_moves | apply State.giveBack_moves | apply Moves.ite | split | dsimp only | simp only [id_eq])

theorem State.runCmd_moves (h : Moves s t) : Ran.moves s (State.runCmd t x1 x2) := by
  unfold State.runCmd
  repeat' (with_reducible first
    | assumption | apply State.runHello_moves | apply State.runIdentity_moves | apply State.runFwBegin_moves
      | apply State.runFwChunk_moves | apply State.runFwCommit_moves | apply State.runInit_moves | apply State.runHostWindow_moves
      | apply State.runSliceJoin_moves | apply State.runSliceLeave_moves | apply State.runPlanLoad_moves
      | apply State.runProgramLoad_moves | apply State.runConfigApply_moves | apply State.runJobStart_moves
      | apply State.runJobStop_moves | apply State.runRecover_moves | apply State.runMemMap_moves | apply State.runMemGrant_moves
      | apply State.runMemRevoke_moves | apply State.runSnapTrigger_moves | apply State.runSnapRead_moves
      | apply State.runSnapRearm_moves | apply State.runLogRead_moves | apply State.runEventRead_moves | apply State.runDebugMode_moves
      | apply State.runRegRead_moves | apply State.runRegWrite_moves | apply State.runSyncSet_moves | apply State.runCtxSave_moves
      | apply State.runCtxRestore_moves | apply State.runCalStatus_moves | apply State.runAttest_moves | apply Ran.moves_ite
      | apply Ran.moves_refused | apply Ran.moves_done | apply Ran.moves_waits | apply Moves.ite | split | dsimp only | simp only [id_eq])

theorem State.beginCmd_moves (h : Moves s t) : Ran.moves s (State.beginCmd t c x) := by
  unfold State.beginCmd
  split
  · exact h
  · have hr := State.runCmd_moves (x1 := c) (x2 := x) h
    split
    · rename_i he
      rw [he] at hr
      exact hr
    · exact Ran.moves_ite h hr

theorem State.resumeCmd_moves (h : Moves s t) : Ran.moves s (State.resumeCmd t x1) := by
  unfold State.resumeCmd
  repeat' (with_reducible first
    | assumption | apply State.resumeJobStop_moves | apply State.resumeMemMap_moves | apply State.resumeConfig_moves
      | apply State.runCmd_moves | apply Ran.moves_ite | apply Ran.moves_refused | apply Ran.moves_done | apply Ran.moves_waits
      | apply Moves.ite | split | dsimp only | simp only [id_eq])

theorem State.closeCmd_moves (h : Moves s t) : Moves s (State.closeCmd t x1 x2 x3 x4 x5) := by
  unfold State.closeCmd
  repeat' (with_reducible first | assumption | apply State.complete_moves | apply Moves.ite | split | dsimp only | simp only [id_eq])

theorem State.setWaiting_moves (h : Moves s t) : Moves s (State.setWaiting t x1) := by
  unfold State.setWaiting
  repeat' (with_reducible first
    | assumption | apply Moves.ite | split | dsimp only | simp only [id_eq] | apply Moves.other
      | exact Moves.tallyKeep (by assumption) (by rfl) (by rfl))

theorem State.pumpBoxes_moves (h : Moves s t) : Moves s (State.pumpBoxes n t) := by
  induction n generalizing t with
  | zero => exact h
  | succ n ih =>
    unfold State.pumpBoxes
    split
    · exact h
    · rename_i w rest _
      have hr : Ran.moves s (if w.began then t.resumeCmd w else t.beginCmd w.cmd w.h) :=
        Ran.moves_ite (State.resumeCmd_moves h) (State.beginCmd_moves h)
      split <;> rename_i he <;> rw [he] at hr
      · exact ih (State.closeCmd_moves (State.setWaiting_moves hr))
      · exact ih (State.closeCmd_moves (State.setWaiting_moves hr))
      · exact State.setWaiting_moves hr

theorem State.advanceBoxes_moves (h : Moves s t) : Moves s (State.advanceBoxes t) := by
  unfold State.advanceBoxes
  repeat' (with_reducible first | assumption | apply State.pumpBoxes_moves | apply Moves.ite | split | dsimp only | simp only [id_eq])

theorem State.accept_moves (h : Moves s t) : Moves s (State.accept t c x) := by
  refine .ite ?_ (State.advanceBoxes_moves (State.setWaiting_moves h))
  have hr := State.beginCmd_moves (c := c) (x := x) h
  split <;> rename_i he <;> rw [he] at hr
  · exact State.closeCmd_moves hr
  · exact State.closeCmd_moves hr
  · exact hr

theorem State.ownedWrite_moves (h : Moves s t) : Moves s (State.ownedWrite t x1) := by
  unfold State.ownedWrite
  repeat' (with_reducible first
    | assumption | apply State.log_moves | apply State.setBox_moves | apply Moves.ite | split | dsimp only | simp only [id_eq])

theorem State.takeBox_moves (h : Moves s t) (hf : ∀ u, Moves s u → Moves s (f u)) : Moves s (State.takeBox t op x f) := by
  unfold State.takeBox
  repeat' (with_reducible first | assumption | apply hf | apply State.ownedWrite_moves | apply State.giveBack_moves | apply State.setBox_moves
                                | apply Moves.ite | split | dsimp only)

theorem State.mailbox_moves (h : Moves s t) : Moves s (State.mailbox t x1 x2) := by
  unfold State.mailbox
  repeat' (with_reducible first
    | assumption | intro _ | apply State.takeBox_moves | apply State.accept_moves | apply Moves.ite | split | dsimp only
      | simp only [id_eq])

theorem execHello_moves : OutMoves t (execHello x0 t) := by
  have h := Moves.refl (s := t)
  unfold execHello
  repeat' (with_reducible first
    | assumption | apply State.mailbox_moves | apply OutMoves.mk | apply OutMoves.ite | apply Moves.ite | split | dsimp only
      | simp only [id_eq])

theorem execIdentity_moves : OutMoves t (execIdentity x0 t) := by
  have h := Moves.refl (s := t)
  unfold execIdentity
  repeat' (with_reducible first
    | assumption | apply State.mailbox_moves | apply OutMoves.mk | apply OutMoves.ite | apply Moves.ite | split | dsimp only
      | simp only [id_eq])

theorem execFwBegin_moves : OutMoves t (execFwBegin x0 t) := by
  have h := Moves.refl (s := t)
  unfold execFwBegin
  repeat' (with_reducible first
    | assumption | apply State.mailbox_moves | apply OutMoves.mk | apply OutMoves.ite | apply Moves.ite | split | dsimp only
      | simp only [id_eq])

theorem execFwChunk_moves : OutMoves t (execFwChunk x0 t) := by
  have h := Moves.refl (s := t)
  unfold execFwChunk
  repeat' (with_reducible first
    | assumption | apply State.mailbox_moves | apply OutMoves.mk | apply OutMoves.ite | apply Moves.ite | split | dsimp only
      | simp only [id_eq])

theorem execFwCommit_moves : OutMoves t (execFwCommit x0 x1 t) := by
  have h := Moves.refl (s := t)
  unfold execFwCommit
  repeat' (with_reducible first
    | assumption | apply State.mailbox_moves | apply OutMoves.mk | apply OutMoves.ite | apply Moves.ite | split | dsimp only
      | simp only [id_eq])

theorem execInit_moves : OutMoves t (execInit x0 x1 t) := by
  have h := Moves.refl (s := t)
  unfold execInit
  repeat' (with_reducible first
    | assumption | apply State.mailbox_moves | apply OutMoves.mk | apply OutMoves.ite | apply Moves.ite | split | dsimp only
      | simp only [id_eq])

theorem execHostWindow_moves : OutMoves t (execHostWindow x0 t) := by
  have h := Moves.refl (s := t)
  unfold execHostWindow
  repeat' (with_reducible first
    | assumption | apply State.mailbox_moves | apply OutMoves.mk | apply OutMoves.ite | apply Moves.ite | split | dsimp only
      | simp only [id_eq])

theorem execSliceJoin_moves : OutMoves t (execSliceJoin x0 t) := by
  have h := Moves.refl (s := t)
  unfold execSliceJoin
  repeat' (with_reducible first
    | assumption | apply State.mailbox_moves | apply OutMoves.mk | apply OutMoves.ite | apply Moves.ite | split | dsimp only
      | simp only [id_eq])

theorem execSliceLeave_moves : OutMoves t (execSliceLeave x0 t) := by
  have h := Moves.refl (s := t)
  unfold execSliceLeave
  repeat' (with_reducible first
    | assumption | apply State.mailbox_moves | apply OutMoves.mk | apply OutMoves.ite | apply Moves.ite | split | dsimp only
      | simp only [id_eq])

theorem execPlanLoad_moves : OutMoves t (execPlanLoad x0 t) := by
  have h := Moves.refl (s := t)
  unfold execPlanLoad
  repeat' (with_reducible first
    | assumption | apply State.mailbox_moves | apply OutMoves.mk | apply OutMoves.ite | apply Moves.ite | split | dsimp only
      | simp only [id_eq])

theorem execProgramLoad_moves : OutMoves t (execProgramLoad x0 t) := by
  have h := Moves.refl (s := t)
  unfold execProgramLoad
  repeat' (with_reducible first
    | assumption | apply State.mailbox_moves | apply OutMoves.mk | apply OutMoves.ite | apply Moves.ite | split | dsimp only
      | simp only [id_eq])

theorem execConfigApply_moves : OutMoves t (execConfigApply x0 t) := by
  have h := Moves.refl (s := t)
  unfold execConfigApply
  repeat' (with_reducible first
    | assumption | apply State.mailbox_moves | apply OutMoves.mk | apply OutMoves.ite | apply Moves.ite | split | dsimp only
      | simp only [id_eq])

theorem execJobStart_moves : OutMoves t (execJobStart x0 t) := by
  have h := Moves.refl (s := t)
  unfold execJobStart
  repeat' (with_reducible first
    | assumption | apply State.mailbox_moves | apply OutMoves.mk | apply OutMoves.ite | apply Moves.ite | split | dsimp only
      | simp only [id_eq])

theorem execJobStop_moves : OutMoves t (execJobStop x0 t) := by
  have h := Moves.refl (s := t)
  unfold execJobStop
  repeat' (with_reducible first
    | assumption | apply State.mailbox_moves | apply OutMoves.mk | apply OutMoves.ite | apply Moves.ite | split | dsimp only
      | simp only [id_eq])

theorem execRecover_moves : OutMoves t (execRecover x0 t) := by
  have h := Moves.refl (s := t)
  unfold execRecover
  repeat' (with_reducible first
    | assumption | apply State.mailbox_moves | apply OutMoves.mk | apply OutMoves.ite | apply Moves.ite | split | dsimp only
      | simp only [id_eq])

theorem execMemMap_moves : OutMoves t (execMemMap x0 t) := by
  have h := Moves.refl (s := t)
  unfold execMemMap
  repeat' (with_reducible first
    | assumption | apply State.mailbox_moves | apply OutMoves.mk | apply OutMoves.ite | apply Moves.ite | split | dsimp only
      | simp only [id_eq])

theorem execMemGrant_moves : OutMoves t (execMemGrant x0 t) := by
  have h := Moves.refl (s := t)
  unfold execMemGrant
  repeat' (with_reducible first
    | assumption | apply State.mailbox_moves | apply OutMoves.mk | apply OutMoves.ite | apply Moves.ite | split | dsimp only
      | simp only [id_eq])

theorem execMemRevoke_moves : OutMoves t (execMemRevoke x0 t) := by
  have h := Moves.refl (s := t)
  unfold execMemRevoke
  repeat' (with_reducible first
    | assumption | apply State.mailbox_moves | apply OutMoves.mk | apply OutMoves.ite | apply Moves.ite | split | dsimp only
      | simp only [id_eq])

theorem execSnapTrigger_moves : OutMoves t (execSnapTrigger x0 t) := by
  have h := Moves.refl (s := t)
  unfold execSnapTrigger
  repeat' (with_reducible first
    | assumption | apply State.mailbox_moves | apply OutMoves.mk | apply OutMoves.ite | apply Moves.ite | split | dsimp only
      | simp only [id_eq])

theorem execSnapRead_moves : OutMoves t (execSnapRead x0 t) := by
  have h := Moves.refl (s := t)
  unfold execSnapRead
  repeat' (with_reducible first
    | assumption | apply State.mailbox_moves | apply State.snapRead_moves | apply OutMoves.mk | apply OutMoves.ite
      | apply Moves.ite | split | dsimp only | simp only [id_eq])

theorem execSnapRearm_moves : OutMoves t (execSnapRearm x0 t) := by
  have h := Moves.refl (s := t)
  unfold execSnapRearm
  repeat' (with_reducible first
    | assumption | apply State.mailbox_moves | apply OutMoves.mk | apply OutMoves.ite | apply Moves.ite | split | dsimp only
      | simp only [id_eq])

theorem execLogRead_moves : OutMoves t (execLogRead x0 t) := by
  have h := Moves.refl (s := t)
  unfold execLogRead
  repeat' (with_reducible first
    | assumption | apply State.mailbox_moves | apply State.logRead_moves | apply OutMoves.mk | apply OutMoves.ite
      | apply Moves.ite | split | dsimp only | simp only [id_eq])

theorem execEventRead_moves : OutMoves t (execEventRead x0 t) := by
  have h := Moves.refl (s := t)
  unfold execEventRead
  repeat' (with_reducible first
    | assumption | apply State.mailbox_moves | apply OutMoves.mk | apply OutMoves.ite | apply Moves.ite | split | dsimp only
      | simp only [id_eq])

theorem execDebugMode_moves : OutMoves t (execDebugMode x0 t) := by
  have h := Moves.refl (s := t)
  unfold execDebugMode
  repeat' (with_reducible first
    | assumption | apply State.mailbox_moves | apply OutMoves.mk | apply OutMoves.ite | apply Moves.ite | split | dsimp only
      | simp only [id_eq])

theorem execRegRead_moves : OutMoves t (execRegRead x0 t) := by
  have h := Moves.refl (s := t)
  unfold execRegRead
  repeat' (with_reducible first
    | assumption | apply State.mailbox_moves | apply State.regRead_moves | apply OutMoves.mk | apply OutMoves.ite
      | apply Moves.ite | split | dsimp only | simp only [id_eq])

theorem execRegWrite_moves : OutMoves t (execRegWrite x0 t) := by
  have h := Moves.refl (s := t)
  unfold execRegWrite
  repeat' (with_reducible first
    | assumption | apply State.mailbox_moves | apply OutMoves.mk | apply OutMoves.ite | apply Moves.ite | split | dsimp only
      | simp only [id_eq])

theorem execSyncSet_moves : OutMoves t (execSyncSet x0 t) := by
  have h := Moves.refl (s := t)
  unfold execSyncSet
  repeat' (with_reducible first
    | assumption | apply State.mailbox_moves | apply OutMoves.mk | apply OutMoves.ite | apply Moves.ite | split | dsimp only
      | simp only [id_eq])

theorem execCtxSave_moves : OutMoves t (execCtxSave x0 t) := by
  have h := Moves.refl (s := t)
  unfold execCtxSave
  repeat' (with_reducible first
    | assumption | apply State.mailbox_moves | apply OutMoves.mk | apply OutMoves.ite | apply Moves.ite | split | dsimp only
      | simp only [id_eq])

theorem execCtxRestore_moves : OutMoves t (execCtxRestore x0 t) := by
  have h := Moves.refl (s := t)
  unfold execCtxRestore
  repeat' (with_reducible first
    | assumption | apply State.mailbox_moves | apply OutMoves.mk | apply OutMoves.ite | apply Moves.ite | split | dsimp only
      | simp only [id_eq])

theorem execCalStatus_moves : OutMoves t (execCalStatus x0 t) := by
  have h := Moves.refl (s := t)
  unfold execCalStatus
  repeat' (with_reducible first
    | assumption | apply State.mailbox_moves | apply OutMoves.mk | apply OutMoves.ite | apply Moves.ite | split | dsimp only
      | simp only [id_eq])

theorem execAttest_moves : OutMoves t (execAttest x0 t) := by
  have h := Moves.refl (s := t)
  unfold execAttest
  repeat' (with_reducible first
    | assumption | apply State.mailbox_moves | apply State.attest_moves | apply OutMoves.mk | apply OutMoves.ite
      | apply Moves.ite | split | dsimp only | simp only [id_eq])

theorem State.unlisted_moves (h : Moves s t) : Moves s (State.unlisted t x1 x2) :=
  State.takeBox_moves h fun _ hu => State.complete_moves hu

theorem execMailboxUnlistedOpcode_moves : OutMoves t (execMailboxUnlistedOpcode x0 x1 t) := by
  have h := Moves.refl (s := t)
  unfold execMailboxUnlistedOpcode
  repeat' (with_reducible first
    | assumption | intro _ | apply State.complete_moves | apply State.unlisted_moves | apply OutMoves.mk | apply OutMoves.ite
      | apply Moves.ite | split | dsimp only | simp only [id_eq])

theorem execMailboxOwnedWrite_moves : OutMoves t (execMailboxOwnedWrite x0 t) := by
  have h := Moves.refl (s := t)
  unfold execMailboxOwnedWrite
  repeat' (with_reducible first
    | assumption | apply State.ownedWrite_moves | apply OutMoves.mk | apply OutMoves.ite | apply Moves.ite | split | dsimp only
      | simp only [id_eq])

theorem State.handOverBox_moves (h : Moves s t) : Moves s (State.handOverBox t x1) := by
  unfold State.handOverBox
  repeat' (with_reducible first
    | assumption | apply State.useFree_moves | apply State.mailbox_moves | apply State.unlisted_moves | apply Moves.ite | split
      | dsimp only | simp only [id_eq])

theorem State.boxWrite_moves (h : Moves s t) : Moves s (State.boxWrite t x1 x2 x3) := by
  unfold State.boxWrite
  repeat' (with_reducible first
    | assumption | apply State.ownedWrite_moves | apply State.setBox_moves | apply State.handOverBox_moves | apply Moves.ite
      | split | dsimp only | simp only [id_eq])

theorem execRegisterWrite_moves : OutMoves t (execRegisterWrite x0 x1 t) := by
  have h := Moves.refl (s := t)
  unfold execRegisterWrite
  repeat' (with_reducible first
    | assumption | intro _ | apply withBlk_moves | apply State.writeReg_moves | apply State.boxWrite_moves | apply OutMoves.mk
      | apply OutMoves.ite | apply Moves.ite | split | dsimp only | simp only [id_eq])

theorem execCommandTimeout_moves : OutMoves t (execCommandTimeout x0 t) := by
  have h := Moves.refl (s := t)
  unfold execCommandTimeout
  repeat' (with_reducible first
    | assumption | apply State.advanceBoxes_moves | apply State.closeCmd_moves | apply State.setWaiting_moves | apply OutMoves.mk
      | apply OutMoves.ite | apply Moves.ite | split | dsimp only | simp only [id_eq])

theorem execUcieTrain_moves : OutMoves t (execUcieTrain x0 x1 x2 t) := by
  have h := Moves.refl (s := t)
  unfold execUcieTrain
  repeat' (with_reducible first
    | assumption | apply State.log_moves | apply OutMoves.mk | apply OutMoves.ite | apply Moves.ite | split | dsimp only
      | simp only [id_eq] | apply Moves.other | exact Moves.tallyKeep (by assumption) (by rfl) (by rfl))

theorem State.bulkLog_moves (h : Moves s t) : Moves s (State.bulkLog t x1 x2) := by
  unfold State.bulkLog
  repeat' (with_reducible first | assumption | apply State.logAs_moves | apply Moves.ite | split | dsimp only | simp only [id_eq])

theorem execBulkWrite_moves : OutMoves t (execBulkWrite x0 x1 t) := by
  have h := Moves.refl (s := t)
  unfold execBulkWrite
  repeat' (with_reducible first
    | assumption | apply State.outsideWrite_moves | apply State.bulkLog_moves | apply OutMoves.mk | apply OutMoves.ite | apply Moves.ite
      | split | dsimp only | simp only [id_eq])

theorem State.bulkData_moves (h : Moves s t) : Moves s (State.bulkData t x1 x2 x3) := by
  unfold State.bulkData
  repeat' (with_reducible first
    | assumption | apply Moves.out | apply State.outsideRead_moves | apply Moves.ite | split | dsimp only | simp only [id_eq])

theorem execBulkRead_moves : OutMoves t (execBulkRead x0 x1 x2 t) := by
  have h := Moves.refl (s := t)
  unfold execBulkRead
  repeat' (with_reducible first
    | assumption | apply State.bulkData_moves | apply Moves.out | apply State.bulkLog_moves | apply OutMoves.mk | apply OutMoves.ite
      | apply Moves.ite | split | dsimp only | simp only [id_eq])

/-! ## Lookout -/

theorem State.respond_moves (h : Moves s t) : Moves s (State.respond t x1 x2 x3 x4 x5 x6 x7) := by
  unfold State.respond
  repeat' (with_reducible first
    | assumption | apply State.bump_moves | apply Moves.out | apply Moves.ite | split | dsimp only | simp only [id_eq]
      | apply Moves.other | exact Moves.tallyKeep (by assumption) (by rfl) (by rfl))

theorem State.answer_moves (h : Moves s t) : Moves s (State.answer t x1 x2 x3 x4 x5) := by
  unfold State.answer
  repeat' (with_reducible first | assumption | apply State.respond_moves | apply Moves.ite | split | dsimp only | simp only [id_eq])

theorem State.lkoTake_moves (h : Moves s t) (hf : ∀ u, Moves s u → Moves s (f u)) : Moves s (State.lkoTake t op m f) := by
  unfold State.lkoTake
  repeat' (with_reducible first | assumption | apply hf | apply State.answer_moves | apply Moves.out | apply State.bump_moves
                                | apply Moves.ite | split | dsimp only | apply Moves.other)

theorem answerRan_moves (h : Ran.moves s r) : Moves s (answerRan op m r) := by
  unfold answerRan
  split
  · exact State.answer_moves h
  · exact State.answer_moves h
  · exact h

theorem State.lkoAsk_moves (h : Moves s t) (hf : ∀ u, Moves s u → Ran.moves s (f u)) : Moves s (State.lkoAsk t op m ok f) :=
  State.lkoTake_moves h fun _ hu => .ite (answerRan_moves (hf _ hu)) (State.answer_moves hu)

theorem State.drawNonce_moves (h : Moves s t) : Moves s (State.drawNonce t) := by
  have hr : Moves.snd s (State.freeBytes 16 t) := State.freeBytes_moves h
  unfold State.drawNonce
  generalize State.freeBytes 16 t = r at hr
  exact .ite h (.lookout hr _)

theorem State.lkoExecuted_moves (h : Moves s t) : Moves s (State.lkoExecuted t x1) :=
  State.hostEvent_moves (State.log_moves (State.drawNonce_moves h))

theorem answerPriv_moves (h : Ran.moves s r) : Moves s (answerPriv op m r) := by
  unfold answerPriv
  split
  · exact State.answer_moves h
  · exact State.answer_moves (.ite h (State.lkoExecuted_moves h))
  · exact h

theorem State.lkoPriv_moves (h : Moves s t) (hf : ∀ u, Moves s u → Ran.moves s (f u)) : Moves s (State.lkoPriv t op m ok f) :=
  State.lkoTake_moves h fun _ hu => .ite (State.answer_moves hu) (.ite (State.answer_moves hu)
    (.ite (State.answer_moves (State.bump_moves (State.log_moves hu))) (.ite (State.answer_moves hu) (answerPriv_moves (hf _ hu)))))

theorem execLookoutStatus_moves : OutMoves t (execLookoutStatus x0 t) := by
  have h := Moves.refl (s := t)
  unfold execLookoutStatus
  repeat' (with_reducible first
    | assumption | intro _ | apply State.lkoAsk_moves | apply State.good_moves | apply State.bad_moves | apply OutMoves.mk
      | apply OutMoves.ite | apply Moves.ite | apply Ran.moves_ite | apply Ran.moves_refused | apply Ran.moves_done
      | apply Ran.moves_waits | split | dsimp only | simp only [id_eq])

theorem execLookoutIdentity_moves : OutMoves t (execLookoutIdentity x0 t) := by
  have h := Moves.refl (s := t)
  unfold execLookoutIdentity
  repeat' (with_reducible first
    | assumption | intro _ | apply State.lkoAsk_moves | apply State.good_moves | apply State.bad_moves | apply OutMoves.mk
      | apply OutMoves.ite | apply Moves.ite | apply Ran.moves_ite | apply Ran.moves_refused | apply Ran.moves_done
      | apply Ran.moves_waits | split | dsimp only | simp only [id_eq])

theorem execLookoutLogRead_moves : OutMoves t (execLookoutLogRead x0 t) := by
  have h := Moves.refl (s := t)
  unfold execLookoutLogRead
  repeat' (with_reducible first
    | assumption | intro _ | apply State.lkoAsk_moves | apply State.logRead_moves | apply OutMoves.mk | apply OutMoves.ite
      | apply Moves.ite | apply Ran.moves_ite | apply Ran.moves_refused | apply Ran.moves_done | apply Ran.moves_waits | split
      | dsimp only | simp only [id_eq])

theorem execLookoutSnapRead_moves : OutMoves t (execLookoutSnapRead x0 t) := by
  have h := Moves.refl (s := t)
  unfold execLookoutSnapRead
  repeat' (with_reducible first
    | assumption | intro _ | apply State.lkoAsk_moves | apply State.snapRead_moves | apply OutMoves.mk | apply OutMoves.ite
      | apply Moves.ite | apply Ran.moves_ite | apply Ran.moves_refused | apply Ran.moves_done | apply Ran.moves_waits | split
      | dsimp only | simp only [id_eq])

theorem execLookoutRegRead_moves : OutMoves t (execLookoutRegRead x0 t) := by
  have h := Moves.refl (s := t)
  unfold execLookoutRegRead
  repeat' (with_reducible first
    | assumption | intro _ | apply State.lkoAsk_moves | apply State.regRead_moves | apply OutMoves.mk | apply OutMoves.ite
      | apply Moves.ite | apply Ran.moves_ite | apply Ran.moves_refused | apply Ran.moves_done | apply Ran.moves_waits | split
      | dsimp only | simp only [id_eq])

theorem execLookoutAttest_moves : OutMoves t (execLookoutAttest x0 t) := by
  have h := Moves.refl (s := t)
  unfold execLookoutAttest
  repeat' (with_reducible first
    | assumption | intro _ | apply State.lkoAsk_moves | apply State.attest_moves | apply OutMoves.mk | apply OutMoves.ite
      | apply Moves.ite | apply Ran.moves_ite | apply Ran.moves_refused | apply Ran.moves_done | apply Ran.moves_waits | split
      | dsimp only | simp only [id_eq])

theorem State.endCmd_moves (h : Moves s t) : Moves s (State.endCmd t x1) := by
  unfold State.endCmd
  repeat' (with_reducible first
    | assumption | intro _ | apply State.withdrawStop_moves | apply State.closeCmd_moves | apply Moves.ite | apply Moves.foldl
      | apply Moves.foldl1 | split | dsimp only | simp only [id_eq])

theorem State.endUncommitted_moves (h : Moves s t) : Moves s (State.endUncommitted t) := by
  unfold State.endUncommitted
  repeat' (with_reducible first
    | assumption | intro _ | apply State.setWaiting_moves | apply State.endCmd_moves | apply Moves.ite | apply Moves.foldl
      | apply Moves.foldl1 | split | dsimp only | simp only [id_eq])

theorem State.forceStop_moves (h : Moves s t) : Ran.moves s (State.forceStop t x1) := by
  unfold State.forceStop
  repeat' (with_reducible first
    | assumption | intro _ | apply State.bad_moves | apply State.endUncommitted_moves | apply State.good_moves
      | apply State.useFree_moves | apply State.latchStop_moves | apply Ran.moves_ite | apply Ran.moves_refused | apply Ran.moves_done
      | apply Ran.moves_waits | apply Moves.ite | apply Moves.foldl | apply Moves.foldl1 | split | dsimp only | simp only [id_eq]
      | apply Moves.other | exact Moves.tallyKeep (by assumption) (by rfl) (by rfl))

theorem execForceStop_moves : OutMoves t (execForceStop x0 t) := by
  have h := Moves.refl (s := t)
  unfold execForceStop
  repeat' (with_reducible first
    | assumption | intro _ | apply State.lkoPriv_moves | apply State.forceStop_moves | apply OutMoves.mk | apply OutMoves.ite
      | apply Moves.ite | apply Ran.moves_ite | apply Ran.moves_refused | apply Ran.moves_done | apply Ran.moves_waits | split
      | dsimp only | simp only [id_eq])

theorem State.finishForce_moves (h : Moves s t) : Moves s (State.finishForce t) := by
  unfold State.finishForce
  repeat' (with_reducible first
    | assumption | apply State.lkoExecuted_moves | apply State.respond_moves | apply Moves.ite | split | dsimp only | simp only [id_eq]
      | apply Moves.other | exact Moves.tallyKeep (by assumption) (by rfl) (by rfl))

theorem State.commandedDown_moves (h : Moves s t) : Moves s (State.commandedDown t) := by
  unfold State.commandedDown
  repeat' (with_reducible first
    | assumption | apply State.powerDown_moves | apply State.rollRefresh_moves | apply State.endUncommitted_moves | apply Moves.ite
      | split | dsimp only | simp only [id_eq])

theorem execLookoutPowerOff_moves : OutMoves t (execLookoutPowerOff x0 t) := by
  have h := Moves.refl (s := t)
  unfold execLookoutPowerOff
  repeat' (with_reducible first
    | assumption | intro _ | apply State.lkoPriv_moves | apply State.commandedDown_moves | apply State.good_moves | apply State.bad_moves
      | apply OutMoves.mk | apply OutMoves.ite | apply Moves.ite | apply Ran.moves_ite | apply Ran.moves_refused | apply Ran.moves_done
      | apply Ran.moves_waits | split | dsimp only | simp only [id_eq] | apply Moves.other
      | exact Moves.tallyKeep (by assumption) (by rfl) (by rfl))

theorem State.tryUp_moves (h : Moves s t) : Moves s (State.tryUp t x1) := by
  unfold State.tryUp
  exact .ite (State.powerSequence_moves (.forester h _)) (.forester h _)

theorem execLookoutPowerOn_moves : OutMoves t (execLookoutPowerOn x0 x1 t) := by
  have h := Moves.refl (s := t)
  unfold execLookoutPowerOn
  repeat' (with_reducible first
    | assumption | intro _ | apply State.lkoPriv_moves | apply State.good_moves | apply State.tryUp_moves | apply State.bad_moves
      | apply OutMoves.mk | apply OutMoves.ite | apply Moves.ite | apply Ran.moves_ite | apply Ran.moves_refused | apply Ran.moves_done
      | apply Ran.moves_waits | split | dsimp only | simp only [id_eq])

theorem execLookoutPowerCycle_moves : OutMoves t (execLookoutPowerCycle x0 x1 t) := by
  have h := Moves.refl (s := t)
  unfold execLookoutPowerCycle
  repeat' (with_reducible first
    | assumption | intro _ | apply State.lkoPriv_moves | apply State.good_moves | apply State.tryUp_moves
      | apply State.commandedDown_moves | apply State.bad_moves | apply OutMoves.mk | apply OutMoves.ite | apply Moves.ite
      | apply Ran.moves_ite | apply Ran.moves_refused | apply Ran.moves_done | apply Ran.moves_waits | split | dsimp only
      | simp only [id_eq])

theorem execLookoutFence_moves : OutMoves t (execLookoutFence x0 t) := by
  have h := Moves.refl (s := t)
  unfold execLookoutFence
  repeat' (with_reducible first
    | assumption | intro _ | apply State.lkoPriv_moves | apply State.bad_moves | apply State.good_moves | apply State.log_moves
      | apply OutMoves.mk | apply OutMoves.ite | apply Moves.ite | apply Ran.moves_ite | apply Ran.moves_refused | apply Ran.moves_done
      | apply Ran.moves_waits | split | dsimp only | simp only [id_eq] | apply Moves.other
      | exact Moves.tallyKeep (by assumption) (by rfl) (by rfl))

theorem execLookoutFwBegin_moves : OutMoves t (execLookoutFwBegin x0 t) := by
  have h := Moves.refl (s := t)
  unfold execLookoutFwBegin
  repeat' (with_reducible first
    | assumption | intro _ | apply State.lkoPriv_moves | apply State.bad_moves | apply finish_moves | apply State.openImage_moves
      | apply OutMoves.mk | apply OutMoves.ite | apply Moves.ite | apply Ran.moves_ite | apply Ran.moves_refused | apply Ran.moves_done
      | apply Ran.moves_waits | split | dsimp only | simp only [id_eq])

theorem execLookoutFwChunk_moves : OutMoves t (execLookoutFwChunk x0 t) := by
  have h := Moves.refl (s := t)
  unfold execLookoutFwChunk
  repeat' (with_reducible first
    | assumption | intro _ | apply State.lkoPriv_moves | apply State.bad_moves | apply finish_moves | apply State.writeImage_moves
      | apply OutMoves.mk | apply OutMoves.ite | apply Moves.ite | apply Ran.moves_ite | apply Ran.moves_refused | apply Ran.moves_done
      | apply Ran.moves_waits | split | dsimp only | simp only [id_eq])

theorem execLookoutFwCommit_moves : OutMoves t (execLookoutFwCommit x0 x1 t) := by
  have h := Moves.refl (s := t)
  unfold execLookoutFwCommit
  repeat' (with_reducible first
    | assumption | intro _ | apply State.lkoPriv_moves | apply State.commitImage_moves | apply State.good_moves | apply State.bad_moves
      | apply OutMoves.mk | apply OutMoves.ite | apply Moves.ite | apply Ran.moves_ite | apply Ran.moves_refused | apply Ran.moves_done
      | apply Ran.moves_waits | split | dsimp only | simp only [id_eq])

theorem execLookoutUnlistedOpcode_moves : OutMoves t (execLookoutUnlistedOpcode x0 x1 t) := by
  have h := Moves.refl (s := t)
  unfold execLookoutUnlistedOpcode
  repeat' (with_reducible first
    | assumption | intro _ | apply State.lkoTake_moves | apply State.answer_moves | apply OutMoves.mk | apply OutMoves.ite
      | apply Moves.ite | apply Ran.moves_ite | apply Ran.moves_refused | apply Ran.moves_done | apply Ran.moves_waits | split
      | dsimp only | simp only [id_eq])

theorem execLookoutFrameDropped_moves : OutMoves t (execLookoutFrameDropped t) := by
  have h := Moves.refl (s := t)
  unfold execLookoutFrameDropped
  repeat' (with_reducible first
    | assumption | apply State.bump_moves | apply OutMoves.mk | apply OutMoves.ite | apply Moves.ite | apply Ran.moves_ite
      | apply Ran.moves_refused | apply Ran.moves_done | apply Ran.moves_waits | split | dsimp only | simp only [id_eq])

theorem execLookoutLinkChange_moves : OutMoves t (execLookoutLinkChange x0 t) := by
  have h := Moves.refl (s := t)
  unfold execLookoutLinkChange
  repeat' (with_reducible first
    | assumption | apply State.setField_moves | apply OutMoves.mk | apply OutMoves.ite | apply Moves.ite | apply Ran.moves_ite
      | apply Ran.moves_refused | apply Ran.moves_done | apply Ran.moves_waits | split | dsimp only | simp only [id_eq])

theorem execNeighbourSolicitation_moves : OutMoves t (execNeighbourSolicitation x0 x1 t) := by
  have h := Moves.refl (s := t)
  unfold execNeighbourSolicitation
  repeat' (with_reducible first
    | assumption | apply Moves.out | apply State.bump_moves | apply OutMoves.mk | apply OutMoves.ite | apply Moves.ite
      | apply Ran.moves_ite | apply Ran.moves_refused | apply Ran.moves_done | apply Ran.moves_waits | split | dsimp only
      | simp only [id_eq])

theorem execFrameBoundary_moves : OutMoves t (execFrameBoundary t) := by
  have h := Moves.refl (s := t)
  unfold execFrameBoundary
  repeat' (with_reducible first
    | assumption | apply State.advanceBoxes_moves | apply State.finishForce_moves | apply State.frameBoundary_moves | apply OutMoves.mk
      | apply OutMoves.ite | apply Moves.ite | apply Ran.moves_ite | apply Ran.moves_refused | apply Ran.moves_done
      | apply Ran.moves_waits | split | dsimp only | simp only [id_eq])

end Sys2Proof.Machine
end

