-- ==== Sys2Proof/Laws/MovesExec.lean ====
section
/-! SUPPORT. That each operation is made of the updates of `Moves`: the matrix, barrier and vector commands, and every command of the table. -/
namespace Sys2Proof.Machine
variable {s t : State}

/-! ## MatrixIssue -/

theorem State.named_moves (h : Moves s t) (hf : ∀ u, Moves s u → Moves s (f u)) : Moves s (State.named t k x f) :=
  .ite (State.illegal_moves h) (hf _ h)

theorem execMbegin_moves : OutMoves t (execMbegin x0 x1 x2 x3 t) := by
  have h := Moves.refl (s := t)
  unfold execMbegin
  repeat' (with_reducible first
    | assumption | intro _ | apply State.issue_moves | apply State.illegal_moves | apply State.enqueue_moves | apply State.retire_moves
      | apply OutMoves.mk | apply OutMoves.ite | apply Moves.ite | split | dsimp only | simp only [id_eq])

theorem execMacc_moves : OutMoves t (execMacc x0 x1 x2 x3 x4 x5 t) := by
  have h := Moves.refl (s := t)
  unfold execMacc
  repeat' (with_reducible first
    | assumption | intro _ | apply State.issue_moves | apply State.named_moves | apply State.enqueue_moves | apply State.retire_moves
      | apply OutMoves.mk | apply OutMoves.ite | apply Moves.ite | split | dsimp only | simp only [id_eq])

theorem execMend_moves : OutMoves t (execMend x0 x1 x2 x3 x4 t) := by
  have h := Moves.refl (s := t)
  unfold execMend
  repeat' (with_reducible first
    | assumption | intro _ | apply State.issue_moves | apply State.named_moves | apply State.enqueue_moves | apply State.retire_moves
      | apply OutMoves.mk | apply OutMoves.ite | apply Moves.ite | split | dsimp only | simp only [id_eq])

theorem execMabort_moves : OutMoves t (execMabort x0 x1 x2 t) := by
  have h := Moves.refl (s := t)
  unfold execMabort
  repeat' (with_reducible first
    | assumption | intro _ | apply State.issue_moves | apply State.named_moves | apply State.enqueue_moves | apply State.retire_moves
      | apply OutMoves.mk | apply OutMoves.ite | apply Moves.ite | split | dsimp only | simp only [id_eq])

theorem execMqcfg_moves : OutMoves t (execMqcfg x0 x1 x2 t) := by
  have h := Moves.refl (s := t)
  unfold execMqcfg
  repeat' (with_reducible first
    | assumption | intro _ | apply State.issue_moves | apply State.named_moves | apply State.mtxRefuse_moves | apply State.retire_moves
      | apply Moves.reg | apply OutMoves.mk | apply OutMoves.ite | apply Moves.ite | split | dsimp only | simp only [id_eq])

theorem execMqset_moves : OutMoves t (execMqset x0 x1 x2 t) := by
  have h := Moves.refl (s := t)
  unfold execMqset
  repeat' (with_reducible first
    | assumption | intro _ | apply State.issue_moves | apply State.named_moves | apply State.mtxRefuse_moves | apply State.retire_moves
      | apply Moves.reg | apply OutMoves.mk | apply OutMoves.ite | apply Moves.ite | split | dsimp only | simp only [id_eq])

theorem execMtake_moves : OutMoves t (execMtake x0 x1 x2 t) := by
  have h := Moves.refl (s := t)
  unfold execMtake
  repeat' (with_reducible first
    | assumption | intro _ | apply State.issue_moves | apply State.named_moves | apply State.retire_moves
      | apply State.bump_moves | apply Moves.reg | apply State.setGpr_moves | apply State.scratchEcc_moves | apply OutMoves.mk
      | apply OutMoves.ite | apply Moves.ite | split | dsimp only | simp only [id_eq])

theorem execMsteal_moves : OutMoves t (execMsteal x0 x1 x2 t) := by
  have h := Moves.refl (s := t)
  unfold execMsteal
  repeat' (with_reducible first
    | assumption | intro _ | apply State.issue_moves | apply State.named_moves | apply Moves.reg | apply State.setGpr_moves
      | apply State.retire_moves | apply State.bump_moves | apply State.windowEcc_moves | apply State.coreFault_moves
      | apply OutMoves.mk | apply OutMoves.ite | apply Moves.ite | split | dsimp only | simp only [id_eq])

/-! ## SyncIssue -/

theorem execSsig_moves : OutMoves t (execSsig x0 x1 x2 x3 x4 x5 x6 t) := by
  have h := Moves.refl (s := t)
  unfold execSsig
  repeat' (with_reducible first
    | assumption | intro _ | apply State.issue_moves | apply State.illegal_moves | apply State.signal_moves | apply State.retire_moves
      | apply State.enqueue_moves | apply OutMoves.mk | apply OutMoves.ite | apply Moves.ite | split | dsimp only | simp only [id_eq])

theorem execSwait_moves : OutMoves t (execSwait x0 x1 x2 x3 x4 x5 x6 t) := by
  have h := Moves.refl (s := t)
  unfold execSwait
  repeat' (with_reducible first
    | assumption | intro _ | apply State.issue_moves | apply State.illegal_moves | apply State.kick_moves | apply State.takeWait_moves
      | apply State.retire_moves | apply State.beginWait_moves | apply State.enqueue_moves | apply OutMoves.mk | apply OutMoves.ite
      | apply Moves.ite | split | dsimp only | simp only [id_eq])

theorem execSdec_moves : OutMoves t (execSdec x0 x1 x2 x3 t) := by
  have h := Moves.refl (s := t)
  unfold execSdec
  repeat' (with_reducible first
    | assumption | intro _ | apply State.issue_moves | apply State.illegal_moves | apply State.syncStop_moves | apply State.retire_moves
      | apply State.setSyncCount_moves | apply OutMoves.mk | apply OutMoves.ite | apply Moves.ite | split | dsimp only
      | simp only [id_eq])

theorem execSread_moves : OutMoves t (execSread x0 x1 x2 x3 t) := by
  have h := Moves.refl (s := t)
  unfold execSread
  repeat' (with_reducible first
    | assumption | intro _ | apply State.issue_moves | apply State.illegal_moves | apply State.retire_moves | apply State.setGpr_moves
      | apply OutMoves.mk | apply OutMoves.ite | apply Moves.ite | split | dsimp only | simp only [id_eq])

theorem State.markReported_moves (h : Moves s t) : Moves s (State.markReported t x1 x2 x3 x4 x5) := by
  unfold State.markReported
  repeat' (with_reducible first
    | assumption | apply State.setStall_moves | apply State.setQueue_moves | apply Moves.ite | split | dsimp only
      | simp only [id_eq])

theorem execSyncWatchdog_moves : OutMoves t (execSyncWatchdog x0 x1 t) := by
  have h := Moves.refl (s := t)
  unfold execSyncWatchdog
  repeat' (with_reducible first
    | assumption | apply State.bump_moves | apply State.log_moves | apply State.markReported_moves | apply OutMoves.mk
      | apply OutMoves.ite | apply Moves.ite | split | dsimp only | simp only [id_eq])

theorem State.barIssue_moves (h : Moves s t) (hf : ∀ u, Moves s u → Moves s (f u)) : Moves s (State.barIssue t k b x f) :=
  State.issue_moves h fun _ hu => .ite (State.illegal_moves hu) (.ite (State.barNonpart_moves hu) (hf _ (State.retire_moves hu)))

theorem execBarr_moves : OutMoves t (execBarr x0 x1 x2 t) := by
  have h := Moves.refl (s := t)
  unfold execBarr
  repeat' (with_reducible first
    | assumption | intro _ | apply State.barIssue_moves | apply State.barArrive_moves | apply OutMoves.mk | apply OutMoves.ite
      | apply Moves.ite | split | dsimp only | simp only [id_eq])

theorem execBwait_moves : OutMoves t (execBwait x0 x1 x2 t) := by
  have h := Moves.refl (s := t)
  unfold execBwait
  repeat' (with_reducible first
    | assumption | intro _ | apply State.barIssue_moves | apply State.beginWait_moves | apply OutMoves.mk | apply OutMoves.ite
      | apply Moves.ite | split | dsimp only | simp only [id_eq])

theorem execBsync_moves : OutMoves t (execBsync x0 x1 x2 t) := by
  have h := Moves.refl (s := t)
  unfold execBsync
  repeat' (with_reducible first
    | assumption | intro _ | apply State.barIssue_moves | apply State.barArrive_moves | apply OutMoves.mk | apply OutMoves.ite
      | apply Moves.ite | split | dsimp only | simp only [id_eq])

theorem execBarrierTimeout_moves : OutMoves t (execBarrierTimeout x0 t) := by
  have h := Moves.refl (s := t)
  unfold execBarrierTimeout
  repeat' (with_reducible first
    | assumption | apply State.log_moves | apply State.setStall_moves | apply State.bump_moves | apply State.setFlag_moves
      | apply OutMoves.mk | apply OutMoves.ite | apply Moves.ite | split | dsimp only | simp only [id_eq])

/-! ## VectorIssue -/

theorem execVadd_moves : OutMoves t (execVadd x0 x1 t) := by
  have h := Moves.refl (s := t)
  unfold execVadd
  repeat' (with_reducible first
    | assumption | apply State.issueVec_moves | apply OutMoves.mk | apply OutMoves.ite | apply Moves.ite | split | dsimp only
      | simp only [id_eq])

theorem execVsub_moves : OutMoves t (execVsub x0 x1 t) := by
  have h := Moves.refl (s := t)
  unfold execVsub
  repeat' (with_reducible first
    | assumption | apply State.issueVec_moves | apply OutMoves.mk | apply OutMoves.ite | apply Moves.ite | split | dsimp only
      | simp only [id_eq])

theorem execVmul_moves : OutMoves t (execVmul x0 x1 t) := by
  have h := Moves.refl (s := t)
  unfold execVmul
  repeat' (with_reducible first
    | assumption | apply State.issueVec_moves | apply OutMoves.mk | apply OutMoves.ite | apply Moves.ite | split | dsimp only
      | simp only [id_eq])

theorem execVfma_moves : OutMoves t (execVfma x0 x1 t) := by
  have h := Moves.refl (s := t)
  unfold execVfma
  repeat' (with_reducible first
    | assumption | apply State.issueVec_moves | apply OutMoves.mk | apply OutMoves.ite | apply Moves.ite | split | dsimp only
      | simp only [id_eq])

theorem execVmin_moves : OutMoves t (execVmin x0 x1 t) := by
  have h := Moves.refl (s := t)
  unfold execVmin
  repeat' (with_reducible first
    | assumption | apply State.issueVec_moves | apply OutMoves.mk | apply OutMoves.ite | apply Moves.ite | split | dsimp only
      | simp only [id_eq])

theorem execVmax_moves : OutMoves t (execVmax x0 x1 t) := by
  have h := Moves.refl (s := t)
  unfold execVmax
  repeat' (with_reducible first
    | assumption | apply State.issueVec_moves | apply OutMoves.mk | apply OutMoves.ite | apply Moves.ite | split | dsimp only
      | simp only [id_eq])

theorem execVdiv_moves : OutMoves t (execVdiv x0 x1 t) := by
  have h := Moves.refl (s := t)
  unfold execVdiv
  repeat' (with_reducible first
    | assumption | apply State.issueVec_moves | apply OutMoves.mk | apply OutMoves.ite | apply Moves.ite | split | dsimp only
      | simp only [id_eq])

theorem execVsqrt_moves : OutMoves t (execVsqrt x0 x1 t) := by
  have h := Moves.refl (s := t)
  unfold execVsqrt
  repeat' (with_reducible first
    | assumption | apply State.issueVec_moves | apply OutMoves.mk | apply OutMoves.ite | apply Moves.ite | split | dsimp only
      | simp only [id_eq])

theorem execVrcp_moves : OutMoves t (execVrcp x0 x1 t) := by
  have h := Moves.refl (s := t)
  unfold execVrcp
  repeat' (with_reducible first
    | assumption | apply State.issueVec_moves | apply OutMoves.mk | apply OutMoves.ite | apply Moves.ite | split | dsimp only
      | simp only [id_eq])

theorem execVexp_moves : OutMoves t (execVexp x0 x1 t) := by
  have h := Moves.refl (s := t)
  unfold execVexp
  repeat' (with_reducible first
    | assumption | apply State.issueVec_moves | apply OutMoves.mk | apply OutMoves.ite | apply Moves.ite | split | dsimp only
      | simp only [id_eq])

theorem execVlog_moves : OutMoves t (execVlog x0 x1 t) := by
  have h := Moves.refl (s := t)
  unfold execVlog
  repeat' (with_reducible first
    | assumption | apply State.issueVec_moves | apply OutMoves.mk | apply OutMoves.ite | apply Moves.ite | split | dsimp only
      | simp only [id_eq])

theorem execVtanh_moves : OutMoves t (execVtanh x0 x1 t) := by
  have h := Moves.refl (s := t)
  unfold execVtanh
  repeat' (with_reducible first
    | assumption | apply State.issueVec_moves | apply OutMoves.mk | apply OutMoves.ite | apply Moves.ite | split | dsimp only
      | simp only [id_eq])

theorem execVsigm_moves : OutMoves t (execVsigm x0 x1 t) := by
  have h := Moves.refl (s := t)
  unfold execVsigm
  repeat' (with_reducible first
    | assumption | apply State.issueVec_moves | apply OutMoves.mk | apply OutMoves.ite | apply Moves.ite | split | dsimp only
      | simp only [id_eq])

theorem execVabs_moves : OutMoves t (execVabs x0 x1 t) := by
  have h := Moves.refl (s := t)
  unfold execVabs
  repeat' (with_reducible first
    | assumption | apply State.issueVec_moves | apply OutMoves.mk | apply OutMoves.ite | apply Moves.ite | split | dsimp only
      | simp only [id_eq])

theorem execVneg_moves : OutMoves t (execVneg x0 x1 t) := by
  have h := Moves.refl (s := t)
  unfold execVneg
  repeat' (with_reducible first
    | assumption | apply State.issueVec_moves | apply OutMoves.mk | apply OutMoves.ite | apply Moves.ite | split | dsimp only
      | simp only [id_eq])

theorem execVcmpeq_moves : OutMoves t (execVcmpeq x0 x1 t) := by
  have h := Moves.refl (s := t)
  unfold execVcmpeq
  repeat' (with_reducible first
    | assumption | apply State.issueVec_moves | apply OutMoves.mk | apply OutMoves.ite | apply Moves.ite | split | dsimp only
      | simp only [id_eq])

theorem execVcmplt_moves : OutMoves t (execVcmplt x0 x1 t) := by
  have h := Moves.refl (s := t)
  unfold execVcmplt
  repeat' (with_reducible first
    | assumption | apply State.issueVec_moves | apply OutMoves.mk | apply OutMoves.ite | apply Moves.ite | split | dsimp only
      | simp only [id_eq])

theorem execVcmple_moves : OutMoves t (execVcmple x0 x1 t) := by
  have h := Moves.refl (s := t)
  unfold execVcmple
  repeat' (with_reducible first
    | assumption | apply State.issueVec_moves | apply OutMoves.mk | apply OutMoves.ite | apply Moves.ite | split | dsimp only
      | simp only [id_eq])

theorem execVcmpne_moves : OutMoves t (execVcmpne x0 x1 t) := by
  have h := Moves.refl (s := t)
  unfold execVcmpne
  repeat' (with_reducible first
    | assumption | apply State.issueVec_moves | apply OutMoves.mk | apply OutMoves.ite | apply Moves.ite | split | dsimp only
      | simp only [id_eq])

theorem execVsel_moves : OutMoves t (execVsel x0 x1 t) := by
  have h := Moves.refl (s := t)
  unfold execVsel
  repeat' (with_reducible first
    | assumption | apply State.issueVec_moves | apply OutMoves.mk | apply OutMoves.ite | apply Moves.ite | split | dsimp only
      | simp only [id_eq])

theorem execVand_moves : OutMoves t (execVand x0 x1 t) := by
  have h := Moves.refl (s := t)
  unfold execVand
  repeat' (with_reducible first
    | assumption | apply State.issueVec_moves | apply OutMoves.mk | apply OutMoves.ite | apply Moves.ite | split | dsimp only
      | simp only [id_eq])

theorem execVor_moves : OutMoves t (execVor x0 x1 t) := by
  have h := Moves.refl (s := t)
  unfold execVor
  repeat' (with_reducible first
    | assumption | apply State.issueVec_moves | apply OutMoves.mk | apply OutMoves.ite | apply Moves.ite | split | dsimp only
      | simp only [id_eq])

theorem execVxor_moves : OutMoves t (execVxor x0 x1 t) := by
  have h := Moves.refl (s := t)
  unfold execVxor
  repeat' (with_reducible first
    | assumption | apply State.issueVec_moves | apply OutMoves.mk | apply OutMoves.ite | apply Moves.ite | split | dsimp only
      | simp only [id_eq])

theorem execVshl_moves : OutMoves t (execVshl x0 x1 t) := by
  have h := Moves.refl (s := t)
  unfold execVshl
  repeat' (with_reducible first
    | assumption | apply State.issueVec_moves | apply OutMoves.mk | apply OutMoves.ite | apply Moves.ite | split | dsimp only
      | simp only [id_eq])

theorem execVshr_moves : OutMoves t (execVshr x0 x1 t) := by
  have h := Moves.refl (s := t)
  unfold execVshr
  repeat' (with_reducible first
    | assumption | apply State.issueVec_moves | apply OutMoves.mk | apply OutMoves.ite | apply Moves.ite | split | dsimp only
      | simp only [id_eq])

theorem execVmov_moves : OutMoves t (execVmov x0 x1 t) := by
  have h := Moves.refl (s := t)
  unfold execVmov
  repeat' (with_reducible first
    | assumption | apply State.issueVec_moves | apply OutMoves.mk | apply OutMoves.ite | apply Moves.ite | split | dsimp only
      | simp only [id_eq])

theorem execVldexp_moves : OutMoves t (execVldexp x0 x1 t) := by
  have h := Moves.refl (s := t)
  unfold execVldexp
  repeat' (with_reducible first
    | assumption | apply State.issueVec_moves | apply OutMoves.mk | apply OutMoves.ite | apply Moves.ite | split | dsimp only
      | simp only [id_eq])

theorem execVresadd_moves : OutMoves t (execVresadd x0 x1 t) := by
  have h := Moves.refl (s := t)
  unfold execVresadd
  repeat' (with_reducible first
    | assumption | apply State.issueVec_moves | apply OutMoves.mk | apply OutMoves.ite | apply Moves.ite | split | dsimp only
      | simp only [id_eq])

theorem execVupd_moves : OutMoves t (execVupd x0 x1 t) := by
  have h := Moves.refl (s := t)
  unfold execVupd
  repeat' (with_reducible first
    | assumption | apply State.issueVec_moves | apply OutMoves.mk | apply OutMoves.ite | apply Moves.ite | split | dsimp only
      | simp only [id_eq])

theorem execVcvtw_moves : OutMoves t (execVcvtw x0 x1 t) := by
  have h := Moves.refl (s := t)
  unfold execVcvtw
  repeat' (with_reducible first
    | assumption | apply State.issueVec_moves | apply OutMoves.mk | apply OutMoves.ite | apply Moves.ite | split | dsimp only
      | simp only [id_eq])

theorem execVcvtn_moves : OutMoves t (execVcvtn x0 x1 t) := by
  have h := Moves.refl (s := t)
  unfold execVcvtn
  repeat' (with_reducible first
    | assumption | apply State.issueVec_moves | apply OutMoves.mk | apply OutMoves.ite | apply Moves.ite | split | dsimp only
      | simp only [id_eq])

theorem execVcvts_moves : OutMoves t (execVcvts x0 x1 t) := by
  have h := Moves.refl (s := t)
  unfold execVcvts
  repeat' (with_reducible first
    | assumption | apply State.issueVec_moves | apply OutMoves.mk | apply OutMoves.ite | apply Moves.ite | split | dsimp only
      | simp only [id_eq])

theorem execVbern_moves : OutMoves t (execVbern x0 x1 t) := by
  have h := Moves.refl (s := t)
  unfold execVbern
  repeat' (with_reducible first
    | assumption | apply State.issueVec_moves | apply OutMoves.mk | apply OutMoves.ite | apply Moves.ite | split | dsimp only
      | simp only [id_eq])

theorem execVperm_moves : OutMoves t (execVperm x0 x1 t) := by
  have h := Moves.refl (s := t)
  unfold execVperm
  repeat' (with_reducible first
    | assumption | apply State.issueVec_moves | apply OutMoves.mk | apply OutMoves.ite | apply Moves.ite | split | dsimp only
      | simp only [id_eq])

theorem execVrsum_moves : OutMoves t (execVrsum x0 x1 t) := by
  have h := Moves.refl (s := t)
  unfold execVrsum
  repeat' (with_reducible first
    | assumption | apply State.issueVec_moves | apply OutMoves.mk | apply OutMoves.ite | apply Moves.ite | split | dsimp only
      | simp only [id_eq])

theorem execVrssq_moves : OutMoves t (execVrssq x0 x1 t) := by
  have h := Moves.refl (s := t)
  unfold execVrssq
  repeat' (with_reducible first
    | assumption | apply State.issueVec_moves | apply OutMoves.mk | apply OutMoves.ite | apply Moves.ite | split | dsimp only
      | simp only [id_eq])

theorem execVrmax_moves : OutMoves t (execVrmax x0 x1 t) := by
  have h := Moves.refl (s := t)
  unfold execVrmax
  repeat' (with_reducible first
    | assumption | apply State.issueVec_moves | apply OutMoves.mk | apply OutMoves.ite | apply Moves.ite | split | dsimp only
      | simp only [id_eq])

theorem execVrmin_moves : OutMoves t (execVrmin x0 x1 t) := by
  have h := Moves.refl (s := t)
  unfold execVrmin
  repeat' (with_reducible first
    | assumption | apply State.issueVec_moves | apply OutMoves.mk | apply OutMoves.ite | apply Moves.ite | split | dsimp only
      | simp only [id_eq])

theorem execVrcnt_moves : OutMoves t (execVrcnt x0 x1 t) := by
  have h := Moves.refl (s := t)
  unfold execVrcnt
  repeat' (with_reducible first
    | assumption | apply State.issueVec_moves | apply OutMoves.mk | apply OutMoves.ite | apply Moves.ite | split | dsimp only
      | simp only [id_eq])

theorem execVmv_moves : OutMoves t (execVmv x0 x1 t) := by
  have h := Moves.refl (s := t)
  unfold execVmv
  repeat' (with_reducible first
    | assumption | apply State.issueVec_moves | apply OutMoves.mk | apply OutMoves.ite | apply Moves.ite | split | dsimp only
      | simp only [id_eq])

theorem execVmvcomb_moves : OutMoves t (execVmvcomb x0 x1 t) := by
  have h := Moves.refl (s := t)
  unfold execVmvcomb
  repeat' (with_reducible first
    | assumption | apply State.issueVec_moves | apply OutMoves.mk | apply OutMoves.ite | apply Moves.ite | split | dsimp only
      | simp only [id_eq])

theorem execVsmstat_moves : OutMoves t (execVsmstat x0 x1 t) := by
  have h := Moves.refl (s := t)
  unfold execVsmstat
  repeat' (with_reducible first
    | assumption | apply State.issueVec_moves | apply OutMoves.mk | apply OutMoves.ite | apply Moves.ite | split | dsimp only
      | simp only [id_eq])

theorem execVsmmerge_moves : OutMoves t (execVsmmerge x0 x1 t) := by
  have h := Moves.refl (s := t)
  unfold execVsmmerge
  repeat' (with_reducible first
    | assumption | apply State.issueVec_moves | apply OutMoves.mk | apply OutMoves.ite | apply Moves.ite | split | dsimp only
      | simp only [id_eq])

theorem execVsmexp_moves : OutMoves t (execVsmexp x0 x1 t) := by
  have h := Moves.refl (s := t)
  unfold execVsmexp
  repeat' (with_reducible first
    | assumption | apply State.issueVec_moves | apply OutMoves.mk | apply OutMoves.ite | apply Moves.ite | split | dsimp only
      | simp only [id_eq])

theorem execVsmnorm_moves : OutMoves t (execVsmnorm x0 x1 t) := by
  have h := Moves.refl (s := t)
  unfold execVsmnorm
  repeat' (with_reducible first
    | assumption | apply State.issueVec_moves | apply OutMoves.mk | apply OutMoves.ite | apply Moves.ite | split | dsimp only
      | simp only [id_eq])

theorem execVld_moves : OutMoves t (execVld x0 x1 x2 x3 x4 x5 t) := by
  have h := Moves.refl (s := t)
  unfold execVld
  repeat' (with_reducible first
    | assumption | intro _ | apply State.issueTo_moves | apply OutMoves.mk | apply OutMoves.ite | apply Moves.ite | split | dsimp only
      | simp only [id_eq])

theorem execVst_moves : OutMoves t (execVst x0 x1 x2 x3 x4 t) := by
  have h := Moves.refl (s := t)
  unfold execVst
  repeat' (with_reducible first
    | assumption | intro _ | apply State.issueTo_moves | apply OutMoves.mk | apply OutMoves.ite | apply Moves.ite | split | dsimp only
      | simp only [id_eq])

theorem execVcfg_moves : OutMoves t (execVcfg x0 x1 x2 x3 x4 t) := by
  have h := Moves.refl (s := t)
  unfold execVcfg
  repeat' (with_reducible first
    | assumption | intro _ | apply State.issue_moves | apply State.enqueue_moves | apply State.retire_moves | apply State.setGpr_moves
      | apply OutMoves.mk | apply OutMoves.ite | apply Moves.ite | split | dsimp only | simp only [id_eq])

theorem State.issueSummary_moves (h : Moves s t) : Moves s (State.issueSummary t k r d x) :=
  State.issue_moves h fun _ hu => State.enqueue_moves (State.setStall_moves (State.retire_moves hu))

theorem execVsum_moves : OutMoves t (execVsum x0 x1 x2 x3 x4 t) := by
  have h := Moves.refl (s := t)
  unfold execVsum
  repeat' (with_reducible first
    | assumption | intro _ | apply State.issueSummary_moves | apply OutMoves.mk | apply OutMoves.ite | apply Moves.ite | split
      | dsimp only | simp only [id_eq])

theorem execSmcfg_moves : OutMoves t (execSmcfg x0 x1 x2 t) := by
  have h := Moves.refl (s := t)
  unfold execSmcfg
  repeat' (with_reducible first
    | assumption | intro _ | apply State.issueTo_moves | apply OutMoves.mk | apply OutMoves.ite | apply Moves.ite | split | dsimp only
      | simp only [id_eq])

theorem execSmread_moves : OutMoves t (execSmread x0 x1 x2 x3 t) := by
  have h := Moves.refl (s := t)
  unfold execSmread
  repeat' (with_reducible first
    | assumption | intro _ | apply State.issueSummary_moves | apply OutMoves.mk | apply OutMoves.ite | apply Moves.ite | split
      | dsimp only | simp only [id_eq])

theorem execSmcommit_moves : OutMoves t (execSmcommit x0 x1 x2 x3 t) := by
  have h := Moves.refl (s := t)
  unfold execSmcommit
  repeat' (with_reducible first
    | assumption | intro _ | apply State.issueTo_moves | apply OutMoves.mk | apply OutMoves.ite | apply Moves.ite | split | dsimp only
      | simp only [id_eq])

theorem execVrngset_moves : OutMoves t (execVrngset x0 x1 x2 t) := by
  have h := Moves.refl (s := t)
  unfold execVrngset
  repeat' (with_reducible first
    | assumption | intro _ | apply State.issueTo_moves | apply OutMoves.mk | apply OutMoves.ite | apply Moves.ite | split | dsimp only
      | simp only [id_eq])

theorem execDecoded_moves : OutMoves t (execDecoded i t) := by
  unfold execDecoded
  split
  · exact execLrd_moves
  · exact execLwr_moves
  · exact execHalt_moves
  · exact execMbegin_moves
  · exact execMacc_moves
  · exact execMend_moves
  · exact execMabort_moves
  · exact execMqcfg_moves
  · exact execMqset_moves
  · exact execMtake_moves
  · exact execMsteal_moves
  · exact execVadd_moves
  · exact execVsub_moves
  · exact execVmul_moves
  · exact execVfma_moves
  · exact execVmin_moves
  · exact execVmax_moves
  · exact execVdiv_moves
  · exact execVsqrt_moves
  · exact execVrcp_moves
  · exact execVexp_moves
  · exact execVlog_moves
  · exact execVtanh_moves
  · exact execVsigm_moves
  · exact execVabs_moves
  · exact execVneg_moves
  · exact execVcmpeq_moves
  · exact execVcmplt_moves
  · exact execVcmple_moves
  · exact execVcmpne_moves
  · exact execVsel_moves
  · exact execVand_moves
  · exact execVor_moves
  · exact execVxor_moves
  · exact execVshl_moves
  · exact execVshr_moves
  · exact execVmov_moves
  · exact execVldexp_moves
  · exact execVresadd_moves
  · exact execVupd_moves
  · exact execVcvtw_moves
  · exact execVcvtn_moves
  · exact execVcvts_moves
  · exact execVbern_moves
  · exact execVperm_moves
  · exact execVrsum_moves
  · exact execVrssq_moves
  · exact execVrmax_moves
  · exact execVrmin_moves
  · exact execVrcnt_moves
  · exact execVmv_moves
  · exact execVmvcomb_moves
  · exact execVsmstat_moves
  · exact execVsmmerge_moves
  · exact execVsmexp_moves
  · exact execVsmnorm_moves
  · exact execVld_moves
  · exact execVst_moves
  · exact execVcfg_moves
  · exact execVsum_moves
  · exact execSmcfg_moves
  · exact execSmread_moves
  · exact execSmcommit_moves
  · exact execVrngset_moves
  · exact execSsig_moves
  · exact execSwait_moves
  · exact execSdec_moves
  · exact execSread_moves
  · exact execBarr_moves
  · exact execBwait_moves
  · exact execBsync_moves
  · exact .mk .refl

theorem execWord_moves : OutMoves t (execWord k w t) := by
  have h := Moves.refl (s := t)
  unfold execWord
  repeat' (with_reducible first
    | assumption | intro _ | apply execDecoded_moves | apply State.issue_moves | apply State.issueVec_moves | apply State.illegal_moves
      | apply OutMoves.mk | split)

theorem execScalarAlu_moves : OutMoves t (execScalarAlu x0 x1 t) := by
  have h := Moves.refl (s := t)
  unfold execScalarAlu
  repeat' (with_reducible first
    | assumption | intro _ | apply execWord_moves | apply State.issue_moves | apply State.retire_moves | apply State.setGpr_moves
      | apply State.scratchEcc_moves | apply OutMoves.mk | apply OutMoves.ite | apply Moves.ite | split | dsimp only
      | simp only [id_eq])

/-! ## Every command -/

/-- Every command answers a next state that comes from the state it began in by the updates of `Moves`. -/
theorem exec_moves (i : Instr) (s : State) : OutMoves s (exec i s) :=
  match i with
  | .scalarAlu _ _ => execScalarAlu_moves
  | .load _ _ _ _ _ => execLoad_moves
  | .jobLoadReturn _ _ _ => execJobLoadReturn_moves
  | .store _ _ _ _ => execStore_moves
  | .lrd _ _ _ _ => execLrd_moves
  | .lwr _ _ _ _ => execLwr_moves
  | .branch _ _ _ _ => execBranch_moves
  | .jump _ _ => execJump_moves
  | .jumpAndLink _ _ _ => execJumpAndLink_moves
  | .fence _ => execFence_moves
  | .markFrame _ => execMarkFrame_moves
  | .markStep _ => execMarkStep_moves
  | .halt _ => execHalt_moves
  | .dmaIssue _ _ => execDmaIssue_moves
  | .dmaDone _ _ _ => execDmaDone_moves
  | .mbegin _ _ _ _ => execMbegin_moves
  | .macc _ _ _ _ _ _ => execMacc_moves
  | .mend _ _ _ _ _ => execMend_moves
  | .mabort _ _ _ => execMabort_moves
  | .mqcfg _ _ _ => execMqcfg_moves
  | .mqset _ _ _ => execMqset_moves
  | .mtake _ _ _ => execMtake_moves
  | .msteal _ _ _ => execMsteal_moves
  | .vadd _ _ => execVadd_moves
  | .vsub _ _ => execVsub_moves
  | .vmul _ _ => execVmul_moves
  | .vfma _ _ => execVfma_moves
  | .vmin _ _ => execVmin_moves
  | .vmax _ _ => execVmax_moves
  | .vdiv _ _ => execVdiv_moves
  | .vsqrt _ _ => execVsqrt_moves
  | .vrcp _ _ => execVrcp_moves
  | .vexp _ _ => execVexp_moves
  | .vlog _ _ => execVlog_moves
  | .vtanh _ _ => execVtanh_moves
  | .vsigm _ _ => execVsigm_moves
  | .vabs _ _ => execVabs_moves
  | .vneg _ _ => execVneg_moves
  | .vcmpeq _ _ => execVcmpeq_moves
  | .vcmplt _ _ => execVcmplt_moves
  | .vcmple _ _ => execVcmple_moves
  | .vcmpne _ _ => execVcmpne_moves
  | .vsel _ _ => execVsel_moves
  | .vand _ _ => execVand_moves
  | .vor _ _ => execVor_moves
  | .vxor _ _ => execVxor_moves
  | .vshl _ _ => execVshl_moves
  | .vshr _ _ => execVshr_moves
  | .vmov _ _ => execVmov_moves
  | .vldexp _ _ => execVldexp_moves
  | .vresadd _ _ => execVresadd_moves
  | .vupd _ _ => execVupd_moves
  | .vcvtw _ _ => execVcvtw_moves
  | .vcvtn _ _ => execVcvtn_moves
  | .vcvts _ _ => execVcvts_moves
  | .vbern _ _ => execVbern_moves
  | .vperm _ _ => execVperm_moves
  | .vrsum _ _ => execVrsum_moves
  | .vrssq _ _ => execVrssq_moves
  | .vrmax _ _ => execVrmax_moves
  | .vrmin _ _ => execVrmin_moves
  | .vrcnt _ _ => execVrcnt_moves
  | .vmv _ _ => execVmv_moves
  | .vmvcomb _ _ => execVmvcomb_moves
  | .vsmstat _ _ => execVsmstat_moves
  | .vsmmerge _ _ => execVsmmerge_moves
  | .vsmexp _ _ => execVsmexp_moves
  | .vsmnorm _ _ => execVsmnorm_moves
  | .vld _ _ _ _ _ _ => execVld_moves
  | .vst _ _ _ _ _ => execVst_moves
  | .vcfg _ _ _ _ _ => execVcfg_moves
  | .vsum _ _ _ _ _ => execVsum_moves
  | .smcfg _ _ _ => execSmcfg_moves
  | .smread _ _ _ _ => execSmread_moves
  | .smcommit _ _ _ _ => execSmcommit_moves
  | .vrngset _ _ _ => execVrngset_moves
  | .ssig _ _ _ _ _ _ _ => execSsig_moves
  | .swait _ _ _ _ _ _ _ => execSwait_moves
  | .sdec _ _ _ _ => execSdec_moves
  | .sread _ _ _ _ => execSread_moves
  | .syncWatchdog _ _ => execSyncWatchdog_moves
  | .barr _ _ _ => execBarr_moves
  | .bwait _ _ _ => execBwait_moves
  | .bsync _ _ _ => execBsync_moves
  | .barrierTimeout _ => execBarrierTimeout_moves
  | .cruQueueHiWrite _ _ => execCruQueueHiWrite_moves
  | .cruiseDescriptorStart _ => execCruiseDescriptorStart_moves
  | .adjacencyFetchDone _ _ _ => execAdjacencyFetchDone_moves
  | .cruiseBatchReceive _ => execCruiseBatchReceive_moves
  | .cruiseReplyReceive _ => execCruiseReplyReceive_moves
  | .cruEnable _ => execCruEnable_moves
  | .cruDisable _ => execCruDisable_moves
  | .skdQueueHiWrite _ _ => execSkdQueueHiWrite_moves
  | .haulDescriptorStart _ => execHaulDescriptorStart_moves
  | .trailSpaceAllocate _ => execTrailSpaceAllocate_moves
  | .trailSpaceTimeout _ => execTrailSpaceTimeout_moves
  | .pageAccessDone _ _ _ _ => execPageAccessDone_moves
  | .rowReadRestart _ _ => execRowReadRestart_moves
  | .haulReceive _ => execHaulReceive_moves
  | .haulReplyReceive _ => execHaulReplyReceive_moves
  | .skdEnable _ => execSkdEnable_moves
  | .skdDisable _ => execSkdDisable_moves
  | .silQueueHiWrite _ _ => execSilQueueHiWrite_moves
  | .retraceStart _ _ => execRetraceStart_moves
  | .returnBatchReceive _ => execReturnBatchReceive_moves
  | .stepClose _ _ => execStepClose_moves
  | .silApplyDoneWrite _ _ _ => execSilApplyDoneWrite_moves
  | .silParkHiWrite _ _ => execSilParkHiWrite_moves
  | .silAdoptHiWrite _ _ => execSilAdoptHiWrite_moves
  | .silEnable _ => execSilEnable_moves
  | .silDisable _ => execSilDisable_moves
  | .corEnable _ => execCorEnable_moves
  | .corDisable _ => execCorDisable_moves
  | .cchDisable _ => execCchDisable_moves
  | .timeWordSend _ _ => execTimeWordSend_moves
  | .timeWordReceive _ _ => execTimeWordReceive_moves
  | .holdoverEntry => execHoldoverEntry_moves
  | .holdoverLimit => execHoldoverLimit_moves
  | .ftbBeatPreset _ _ => execFtbBeatPreset_moves
  | .frameBoundary => execFrameBoundary_moves
  | .checkBeat => execCheckBeat_moves
  | .slipTokenReceive _ _ => execSlipTokenReceive_moves
  | .planSend _ _ _ _ => execPlanSend_moves
  | .windowOpen _ _ _ => execWindowOpen_moves
  | .packetInject _ => execPacketInject_moves
  | .packetReceive _ => execPacketReceive_moves
  | .ackReceive _ => execAckReceive_moves
  | .nackReceive _ => execNackReceive_moves
  | .gapTimerExpiry _ _ => execGapTimerExpiry_moves
  | .ackTimerExpiry _ _ => execAckTimerExpiry_moves
  | .tilEnable _ => execTilEnable_moves
  | .tilDisable _ => execTilDisable_moves
  | .reduceLocalRead _ _ _ _ => execReduceLocalRead_moves
  | .reducePacketReceive _ => execReducePacketReceive_moves
  | .lndSlotWrite _ _ _ => execLndSlotWrite_moves
  | .lndEnable _ => execLndEnable_moves
  | .lndDisable _ => execLndDisable_moves
  | .optEnable _ _ => execOptEnable_moves
  | .optDisable _ => execOptDisable_moves
  | .hailFrameSend _ => execHailFrameSend_moves
  | .hailDwell _ => execHailDwell_moves
  | .hailSilent _ => execHailSilent_moves
  | .hailFrameReceive _ _ _ => execHailFrameReceive_moves
  | .trialEnd _ _ _ _ => execTrialEnd_moves
  | .modeSwitch _ => execModeSwitch_moves
  | .hailRetry _ => execHailRetry_moves
  | .calibrationDither _ _ => execCalibrationDither_moves
  | .lightLoss _ _ => execLightLoss_moves
  | .lightReturn _ _ => execLightReturn_moves
  | .darkTimeout _ => execDarkTimeout_moves
  | .feedLow _ _ => execFeedLow_moves
  | .wavelengthLost _ _ => execWavelengthLost_moves
  | .marginLoss _ => execMarginLoss_moves
  | .lockReportReceive _ _ _ _ => execLockReportReceive_moves
  | .downgradeTimeout _ => execDowngradeTimeout_moves
  | .downgradeSwitch _ => execDowngradeSwitch_moves
  | .capacityWordReceive _ _ => execCapacityWordReceive_moves
  | .upgradeRequest _ => execUpgradeRequest_moves
  | .svcTxTailWrite _ _ => execSvcTxTailWrite_moves
  | .svcRxTailWrite _ _ => execSvcRxTailWrite_moves
  | .svcFrameSent _ => execSvcFrameSent_moves
  | .svcFrameReceive _ _ _ => execSvcFrameReceive_moves
  | .ucieTrain _ _ _ => execUcieTrain_moves
  | .bulkWrite _ _ => execBulkWrite_moves
  | .bulkRead _ _ _ => execBulkRead_moves
  | .mailboxOwnedWrite _ => execMailboxOwnedWrite_moves
  | .commandTimeout _ => execCommandTimeout_moves
  | .hello _ => execHello_moves
  | .identity _ => execIdentity_moves
  | .fwBegin _ => execFwBegin_moves
  | .fwChunk _ => execFwChunk_moves
  | .fwCommit _ _ => execFwCommit_moves
  | .init _ _ => execInit_moves
  | .hostWindow _ => execHostWindow_moves
  | .sliceJoin _ => execSliceJoin_moves
  | .sliceLeave _ => execSliceLeave_moves
  | .planLoad _ => execPlanLoad_moves
  | .programLoad _ => execProgramLoad_moves
  | .configApply _ => execConfigApply_moves
  | .jobStart _ => execJobStart_moves
  | .jobStop _ => execJobStop_moves
  | .recover _ => execRecover_moves
  | .memMap _ => execMemMap_moves
  | .memGrant _ => execMemGrant_moves
  | .memRevoke _ => execMemRevoke_moves
  | .snapTrigger _ => execSnapTrigger_moves
  | .snapRead _ => execSnapRead_moves
  | .snapRearm _ => execSnapRearm_moves
  | .logRead _ => execLogRead_moves
  | .eventRead _ => execEventRead_moves
  | .debugMode _ => execDebugMode_moves
  | .regRead _ => execRegRead_moves
  | .regWrite _ => execRegWrite_moves
  | .syncSet _ => execSyncSet_moves
  | .ctxSave _ => execCtxSave_moves
  | .ctxRestore _ => execCtxRestore_moves
  | .calStatus _ => execCalStatus_moves
  | .attest _ => execAttest_moves
  | .standbyPowerUp => execStandbyPowerUp_moves
  | .standbyPowerLoss => execStandbyPowerLoss_moves
  | .mainPowerUp _ => execMainPowerUp_moves
  | .mainDomainReset => execMainDomainReset_moves
  | .supplyTrip _ => execSupplyTrip_moves
  | .sensorEvaluation _ => execSensorEvaluation_moves
  | .thermalTrip => execThermalTrip_moves
  | .imageBufferIdle => execImageBufferIdle_moves
  | .neighbourSolicitation _ _ => execNeighbourSolicitation_moves
  | .lookoutStatus _ => execLookoutStatus_moves
  | .lookoutIdentity _ => execLookoutIdentity_moves
  | .lookoutLogRead _ => execLookoutLogRead_moves
  | .lookoutSnapRead _ => execLookoutSnapRead_moves
  | .lookoutRegRead _ => execLookoutRegRead_moves
  | .lookoutAttest _ => execLookoutAttest_moves
  | .forceStop _ => execForceStop_moves
  | .lookoutPowerOff _ => execLookoutPowerOff_moves
  | .lookoutPowerOn _ _ => execLookoutPowerOn_moves
  | .lookoutPowerCycle _ _ => execLookoutPowerCycle_moves
  | .lookoutFence _ => execLookoutFence_moves
  | .lookoutFwBegin _ => execLookoutFwBegin_moves
  | .lookoutFwChunk _ => execLookoutFwChunk_moves
  | .lookoutFwCommit _ _ => execLookoutFwCommit_moves
  | .blazeMatch => execBlazeMatch_moves
  | .tallyEntryAccept => execTallyEntryAccept_moves
  | .tallyDiscardReport => execTallyDiscardReport_moves
  | .rollupRefresh => execRollupRefresh_moves
  | .cfgCrcCompare _ _ => execCfgCrcCompare_moves
  | .postedWriteEffect _ => execPostedWriteEffect_moves
  | .blkEnable _ => execBlkEnable_moves
  | .blkDisable _ => execBlkDisable_moves
  | .snapArmWrite _ _ => execSnapArmWrite_moves
  | .registerWrite _ _ => execRegisterWrite_moves
  | .patrolScrub _ _ _ => execPatrolScrub_moves
  | .rngHealthFail => execRngHealthFail_moves
  | .planExpect _ _ _ => execPlanExpect_moves
  | .jobStorePerformed _ _ => execJobStorePerformed_moves
  | .prefetchFill _ _ => execPrefetchFill_moves
  | .dmaPageFault _ _ => execDmaPageFault_moves
  | .creditReturn _ _ => execCreditReturn_moves
  | .calibrationLost _ _ => execCalibrationLost_moves
  | .lockReportRepeat _ => execLockReportRepeat_moves
  | .alignedIntervalBoundary => execAlignedIntervalBoundary_moves
  | .mailboxUnlistedOpcode _ _ => execMailboxUnlistedOpcode_moves
  | .lookoutUnlistedOpcode _ _ => execLookoutUnlistedOpcode_moves
  | .lookoutFrameDropped => execLookoutFrameDropped_moves
  | .lookoutLinkChange _ => execLookoutLinkChange_moves

/-- One beat: the clock, then updates of `Moves`. -/
theorem State.tick_moves (s : State) : Moves { s with clock := s.clock + 1 } s.tick :=
  .ite (State.advanceBoxes_moves (State.finishForce_moves (State.settleBlaze_moves (State.tickBeat_moves .refl)))) .refl

end Sys2Proof.Machine
end

