-- ==== Sys2Proof/WellFormed.lean ====
section
/-! DEFINITION. Well-formed commands: operands whose size or place the spec fixes and their type does not. Meanings are
total: they take ill-formed commands too. -/
namespace Sys2Proof

/-- A handover's payload fits the mailbox (R371). -/
def handoverOk (h : Handover) : Bool := decide (h.payload.length ≤ 4096)

/-- A Lookout request as its header can carry it: payload, nonce and signature (R404). -/
def lkoMsgOk (m : LkoMsg) : Bool :=
  decide (m.payload.length ≤ 1024) && decide (m.nonce.length = 16) &&
    match m.signature with
    | some g => decide (g.length = 64)
    | none => true

/-- A bulk message's size and alignment (R369). -/
def bulkShapeOk (addr : BitVec 48) (n : Nat) : Bool := decide (64 ≤ n) && decide (n ≤ 4096) && n % 64 == 0 && addr.toNat % 64 == 0

/-- A register address is aligned (R429). -/
def regAddrOk (addr : W32) : Bool := addr.toNat % 4 == 0

/-- The well-formed commands. -/
def wellFormed (i : Instr) : Bool :=
  match i with
  | .hello h | .identity h | .fwBegin h | .fwChunk h | .fwCommit h _ | .init h _ | .hostWindow h | .sliceJoin h | .sliceLeave h
  | .planLoad h | .programLoad h | .configApply h | .jobStart h | .jobStop h | .recover h | .memMap h | .memGrant h | .memRevoke h
  | .snapTrigger h | .snapRead h | .snapRearm h | .logRead h | .eventRead h | .debugMode h | .regRead h | .regWrite h | .syncSet h
  | .ctxSave h | .ctxRestore h | .calStatus h | .attest h | .mailboxUnlistedOpcode _ h => handoverOk h
  | .lookoutStatus m | .lookoutIdentity m | .lookoutLogRead m | .lookoutSnapRead m | .lookoutRegRead m | .lookoutAttest m
  | .forceStop m | .lookoutPowerOff m | .lookoutPowerOn m _ | .lookoutPowerCycle m _ | .lookoutFence m | .lookoutFwBegin m
  | .lookoutFwChunk m | .lookoutFwCommit m _ | .lookoutUnlistedOpcode _ m => lkoMsgOk m
  | .bulkWrite addr data => bulkShapeOk addr data.length
  | .bulkRead addr n _ => bulkShapeOk addr n
  | .calibrationDither _ l => decide (l.length = 8)
  | .lockReportReceive _ _ r _ => decide (r.corrected.length = 8)
  | .cfgCrcCompare a _ | .postedWriteEffect a | .blkEnable a | .blkDisable a | .snapArmWrite a _ | .registerWrite a _ => regAddrOk a
  | .scalarAlu .. | .load .. | .jobLoadReturn .. | .store .. | .lrd .. | .lwr .. | .branch .. | .jump .. | .jumpAndLink ..
  | .fence .. | .markFrame .. | .markStep .. | .halt .. | .dmaIssue .. | .dmaDone .. | .mbegin .. | .macc .. | .mend ..
  | .mabort .. | .mqcfg .. | .mqset .. | .mtake .. | .msteal .. | .vadd .. | .vsub .. | .vmul .. | .vfma .. | .vmin ..
  | .vmax .. | .vdiv .. | .vsqrt .. | .vrcp .. | .vexp .. | .vlog .. | .vtanh .. | .vsigm .. | .vabs .. | .vneg .. | .vcmpeq ..
  | .vcmplt .. | .vcmple .. | .vcmpne .. | .vsel .. | .vand .. | .vor .. | .vxor .. | .vshl .. | .vshr .. | .vmov ..
  | .vldexp .. | .vresadd .. | .vupd .. | .vcvtw .. | .vcvtn .. | .vcvts .. | .vbern .. | .vperm .. | .vrsum .. | .vrssq ..
  | .vrmax .. | .vrmin .. | .vrcnt .. | .vmv .. | .vmvcomb .. | .vsmstat .. | .vsmmerge .. | .vsmexp .. | .vsmnorm .. | .vld ..
  | .vst .. | .vcfg .. | .vsum .. | .smcfg .. | .smread .. | .smcommit .. | .vrngset .. | .ssig .. | .swait .. | .sdec ..
  | .sread .. | .syncWatchdog .. | .barr .. | .bwait .. | .bsync .. | .barrierTimeout .. | .cruQueueHiWrite ..
  | .cruiseDescriptorStart .. | .adjacencyFetchDone .. | .cruiseBatchReceive .. | .cruiseReplyReceive .. | .skdQueueHiWrite ..
  | .haulDescriptorStart .. | .trailSpaceAllocate .. | .trailSpaceTimeout .. | .pageAccessDone .. | .rowReadRestart ..
  | .haulReceive .. | .haulReplyReceive .. | .silQueueHiWrite .. | .retraceStart .. | .returnBatchReceive .. | .stepClose ..
  | .silApplyDoneWrite .. | .silParkHiWrite .. | .silAdoptHiWrite .. | .timeWordSend .. | .timeWordReceive ..
  | .holdoverEntry .. | .holdoverLimit .. | .ftbBeatPreset .. | .frameBoundary .. | .checkBeat .. | .slipTokenReceive ..
  | .planSend .. | .planExpect .. | .windowOpen .. | .packetInject .. | .packetReceive .. | .ackReceive .. | .nackReceive ..
  | .gapTimerExpiry .. | .ackTimerExpiry .. | .creditReturn .. | .tilEnable .. | .tilDisable .. | .reduceLocalRead ..
  | .reducePacketReceive .. | .lndSlotWrite .. | .lndEnable .. | .lndDisable .. | .optEnable .. | .optDisable ..
  | .hailFrameSend .. | .hailDwell .. | .hailSilent .. | .hailFrameReceive .. | .trialEnd .. | .modeSwitch .. | .hailRetry ..
  | .lightLoss .. | .lightReturn .. | .darkTimeout .. | .feedLow .. | .wavelengthLost .. | .marginLoss ..
  | .downgradeTimeout .. | .downgradeSwitch .. | .capacityWordReceive .. | .upgradeRequest ..
  | .svcTxTailWrite .. | .svcRxTailWrite .. | .svcFrameSent .. | .svcFrameReceive .. | .cruEnable .. | .cruDisable ..
  | .skdEnable .. | .skdDisable .. | .silEnable .. | .silDisable .. | .corEnable .. | .corDisable .. | .cchDisable ..
  | .ucieTrain .. | .mailboxOwnedWrite .. | .commandTimeout .. | .standbyPowerUp .. | .standbyPowerLoss .. | .mainPowerUp ..
  | .mainDomainReset .. | .supplyTrip .. | .sensorEvaluation .. | .thermalTrip .. | .imageBufferIdle .. | .neighbourSolicitation .. | .blazeMatch ..
  | .tallyEntryAccept .. | .tallyDiscardReport .. | .rollupRefresh .. | .patrolScrub .. | .rngHealthFail ..
  | .jobStorePerformed .. | .prefetchFill .. | .dmaPageFault .. | .calibrationLost .. | .lockReportRepeat ..
  | .alignedIntervalBoundary .. | .lookoutFrameDropped .. | .lookoutLinkChange .. => true

end Sys2Proof
end

