-- ==== Sys2Proof/Tests/Slice0.lean ====
section
/-! SUPPORT. Tests: ill-formed commands are refused as such; for every statement, states and operands that meet its
hypotheses, clause by clause; and single commands on small states with results taken from the spec. -/
namespace Sys2Proof.Tests
open Sys2Proof Sys2Proof.Machine
set_option Elab.async false

/-! ## Small states -/

/-- Both domains powered, everything else as after reset. -/
def on : State := { State.reset with standbyOn := true, mainOn := true }

def c0 : ClusterId := ⟨0, 0⟩
def k0 : CoreId := ⟨0, 0, 0⟩
def k1 : CoreId := ⟨0, 0, 1⟩
def q0 : PortId := ⟨0, 0⟩
def q5 : PortId := ⟨0, 5⟩

/-- Core 0 runs at offset 0 of a program area of 1 KiB. -/
def idle : State :=
  ((on.setReg (.cor k0) BLK_CTRL 3).setReg (.cor k0) COR_STATE 1).setReg (.cor k0) COR_PROG (2 ^ 9)

/-- The highest core of the highest cluster, at the last word of the highest program area. -/
def kTop : CoreId := ⟨7, 79, 15⟩
def idleTop : State :=
  (((on.setReg (.cor kTop) BLK_CTRL 1).setReg (.cor kTop) COR_STATE 1).setReg (.cor kTop) COR_PROG (383 + 2 ^ 9)).setReg
    (.cor kTop) COR_PC 0x5FFFC

def form (vd va vb : Fin 32) (mod : Fin 8) : VForm := ⟨vd, va, vb, false, false, mod⟩

/-- The conditions of an idle core, as one closed question. -/
theorem idle_of (s : State) {k : CoreId} (h : s.issuable k = true ∧ s.fetchOk k = true ∧ s.coreFaulted k = false ∧
    (s.core k).slots = [] ∧ (s.core k).mtxQ = [] ∧ (s.core k).vecQ = [] ∧ (s.core k).dmaQ = [] ∧ (s.core k).dmaRun = []) :
    s.CoreIdle k := by
  obtain ⟨a, b, c, d, e, f, g, i⟩ := h
  exact ⟨a, b, c, d, e, f, g, i⟩

theorem test_idle_core_is_idle : idle.CoreIdle k0 := idle_of _ (by decide +kernel)
theorem test_top_core_is_idle : idleTop.CoreIdle kTop := idle_of _ (by decide +kernel)

theorem test_meets_ScalarInstructionWritesItsResult_and_BranchesMoveTheProgramCounter_and_MarksAndFenceAndHaltComplete :
    idle.CoreIdle k0 ∧ idleTop.CoreIdle kTop := ⟨test_idle_core_is_idle, test_top_core_is_idle⟩

/-! ## Well-formed commands: an ill-formed term for each check -/

def box0 : Handover := ⟨0, 1, false, 0, 0x102, 4096, 0, [], []⟩
def req : LkoMsg :=
  { src := 0xFE800000000000000000000000000001, port := 2, dst := 0xFE80000000000000020000FFFE000000, dstPort := 47806, hopLimit := 255, sumOk := true,
    magic := 0x4B4F4C4C, version := 1, kind := 1, seq := 3, status := 0, nonce := List.replicate 16 0, detail := 0, reserved := 0,
    payload := [], signature := none }
def tile0 : TileSensors := ⟨Vector.replicate 16 20, Vector.replicate 3 20, Vector.replicate 4 20⟩
def sensors0 : Sensors := ⟨Vector.replicate 8 tile0, 20, 25, 20, 25, 160, 80, 4800, 1200, 900, 20⟩

theorem test_wellformed_accepts :
    wellFormed (.hello { box0 with payload := List.replicate 4096 0 }) = true ∧ wellFormed (.lookoutStatus req) = true ∧
    wellFormed (.lookoutFence { req with payload := List.replicate 1024 0, signature := some (List.replicate 64 0) }) = true ∧
    wellFormed (.bulkWrite 64 (List.replicate 64 0)) = true ∧ wellFormed (.bulkRead 0 4096 .ok) = true ∧
    wellFormed (.sensorEvaluation sensors0) = true ∧ wellFormed (.calibrationDither q0 (List.replicate 8 ⟨0, 0, 0, true, 0, 0, 0, 0⟩)) = true ∧
    wellFormed (.registerWrite 4 ⟨0, 4⟩) = true := by decide +kernel
theorem test_illformed_payload : wellFormed (.hello { box0 with payload := List.replicate 4097 0 }) = false := by decide +kernel
theorem test_illformed_lookout_payload :
    wellFormed (.lookoutStatus { req with payload := List.replicate 1025 0 }) = false := by decide +kernel
theorem test_illformed_lookout_nonce : wellFormed (.lookoutStatus { req with nonce := List.replicate 15 0 }) = false := by decide +kernel
theorem test_illformed_lookout_signature :
    wellFormed (.lookoutFence { req with signature := some (List.replicate 63 0) }) = false := by decide +kernel
theorem test_illformed_bulk_size :
    wellFormed (.bulkRead 0 32 .ok) = false ∧ wellFormed (.bulkRead 0 4160 .ok) = false ∧
    wellFormed (.bulkWrite 0 (List.replicate 100 0)) = false := by decide +kernel
theorem test_illformed_bulk_address : wellFormed (.bulkRead 32 64 .ok) = false := by decide +kernel
theorem test_illformed_lock_report : wellFormed (.lockReportReceive q0 .down ⟨0xFF, []⟩ false) = false := by decide +kernel
theorem test_illformed_dither : wellFormed (.calibrationDither q0 []) = false := by decide +kernel
theorem test_illformed_register_address :
    wellFormed (.registerWrite 2 ⟨0, 4⟩) = false ∧ wellFormed (.blkEnable 1) = false := by decide +kernel

/-! ## What meets the hypotheses of the general statements -/

theorem test_meets_StepRunsFrontCommand : { on with pending := [.fence k0] }.pending = .fence k0 :: [] := rfl

theorem test_meets_EmptyQueuePassesOneBeat :
    State.reset.pending = [] ∧ State.reset.standbyOn = false ∧ on.pending = [] ∧ on.standbyOn = true ∧ on.time.slew = 0 ∧
    on.blaze.latchAt = none ∧ on.foe.waiting = [] := by decide +kernel

theorem test_reset_meets_Inv : State.reset.Inv :=
  ⟨by constructor <;> decide, by constructor <;> decide, by decide⟩

theorem test_meets_EveryStepKeepsInv_and_EveryRunIsSafe :
    State.reset.Inv ∧ (∃ t, step State.reset = .next t) ∧ ∃ t, State.reset.after 1 = some t :=
  ⟨test_reset_meets_Inv, ⟨_, rfl⟩, ⟨_, rfl⟩⟩

theorem test_meets_ControlAddressNamesItsBlock :
    0x3FF < (Blk.cor kTop).span ∧ blkOfAddr ((Blk.cor kTop).base + 0x3FF) = some (.cor kTop, 0x3FF) ∧
    0x3FFFF < Blk.mbx.span ∧ blkOfAddr (Blk.mbx.base + 0x3FFFF) = some (.mbx, 0x3FFFF) ∧
    blkOfAddr ((Blk.opt q5).base + OPT_STATE) = some (.opt q5, OPT_STATE) := by decide +kernel

/-! ## Core programs: ScalarInstructionWritesItsResult, BranchesMoveTheProgramCounter, MarksAndFenceAndHaltComplete and the
clauses of other statements that ask for an idle core only are met by `test_idle_core_is_idle` and
`test_top_core_is_idle`. -/

/-- A register of core 0 holds a value. -/
def withReg (s : State) (r : Fin 32) (v : W32) : State := s.setGpr k0 r v
/-- A 32-bit word of core 0's scratch holds a value. -/
def word (s : State) (o v : Nat) : State := s.writeBytes (scratchBase k0 + o) (leBytes 4 v)

theorem test_meets_IllegalInstructionStopsTheCore :
    idle.CoreIdle k0 ∧ decodeCore k0 0xA0000000 = .illegal ∧ decodeCore k0 0xFFFFFFFF = .illegal ∧ (1 : W32) ≠ 0 :=
  ⟨test_idle_core_is_idle, by decide⟩

/-! Words written out field by field from the layouts of R151, R173, R220, R233 and R252. -/

theorem test_decode_local_register :
    decodeCore k0 0b010011_0_00011_00100_000001000000000 = .command (.lrd k0 3 4 0x200) ∧
    decodeCore k0 0b010011_1_11111_00001_111111111111111 = .command (.lwr k0 31 1 0x7FFF) := by decide

theorem test_decode_matrix :
    decodeCore k0 0b011000_10_01_0000000000000000000001 = .command (.mbegin k0 2 1 1) ∧
    decodeCore k0 0b011001_11_00101_000000_0000000000010 = .command (.macc k0 3 5 2 0 .ok) ∧
    decodeCore k0 0b011010_01_00110_000001_1000000000000 = .command (.mend k0 1 6 ⟨0x1000, .ok⟩ 1) ∧
    decodeCore k0 0b011011_0000_00000_00000_0000000000_11 = .command (.mabort k0 3 0) ∧
    decodeCore k0 0b011011_0100_01001_00000_1000000000_00 = .command (.msteal k0 ⟨9, .ok⟩ 0x200) ∧
    decodeCore k0 0b011011_0101_00000_00000_0000000000_00 = .illegal := by decide

theorem test_decode_vector :
    decodeCore k0 0b011100_000011_00001_00010_00011_1_0_000 = .command (.vfma k0 ⟨1, 2, 3, true, false, 0⟩) ∧
    decodeCore k0 0b011100_001111_00000_00000_00000_0_0_000 = .vecReserved ∧
    decodeCore k0 0b011110_010000_11111_00010_00011_0_1_101 = .command (.vperm k0 ⟨31, 2, 3, false, true, 5⟩) ∧
    decodeCore k0 0b011110_000111_00000_00000_00000_0_0_000 = .vecReserved ∧
    decodeCore k0 0b011101_01_00100_00101_00110_000000111 = .command (.vst k0 4 5 6 ⟨7, .ok⟩) ∧
    decodeCore k0 0b011101_10_00000_00000_00000_000000000 = .vecReserved ∧
    decodeCore k0 0b011111_0001_00010_00000_00101_001_1110 = .command (.vsum k0 2 5 14 1) ∧
    decodeCore k0 0b011111_0110_00000_00000_00000_000_0000 = .vecReserved := by decide

theorem test_decode_sync :
    decodeCore k0 0b100010_11_1111_101111_00001_0_00000101 = .command (.ssig k0 .dma 15 47 1 false 5) ∧
    decodeCore k0 0b100011_00_1000_000010_00001_1_00000000 = .command (.swait k0 .core 2 1 true 0 8) ∧
    decodeCore k0 0b100100_01_00111_000011_00000_00000001 = .command (.sread k0 7 3 1) ∧
    decodeCore k0 0b100100_10_00000_000000_00000_00000000 = .illegal ∧
    decodeCore k0 0b100101_10_111_000000000000000000000 = .command (.bsync k0 7 0) ∧
    decodeCore k0 0b100101_11_000_000000000000000000000 = .illegal := by decide

/-- A reserved FUNC is refused by the vector engine: reason 1 in VEC_FAULT and cause 4 (R234). -/
theorem test_reserved_vector_word :
    ∃ t, exec (.scalarAlu k0 (.word 0b011100_001111_00000_00000_00000_0_0_000)) idle = .next t ∧
      t.reg (.cor k0) VEC_FAULT = 1 ∧ t.reg (.cor k0) COR_FAULT = 4 := ⟨_, rfl, by decide +kernel⟩

theorem test_decode_of_a_class_without_layout : decodeCore k0 0 = .unlaid .scalar := by decide

theorem test_meets_ScratchLoadReadsItsBytes_and_ScratchStoreWritesItsBytes :
    idle.CoreIdle k0 ∧ pairOdd .pair 30 = false ∧ (0x5FFF8 : W32).toNat % memBytes .pair = 0 ∧
    inCoreScratch (0x5FFF8 : W32).toNat (memBytes .pair) = true ∧ eccLost (.single 0) [(0x5FFF8, 8)] = none ∧
    inCoreScratch (0x5FFFC : W32).toNat 4 = true := by
  refine ⟨test_idle_core_is_idle, ?_, ?_, ?_, ?_, ?_⟩ <;> decide +kernel

theorem test_meets_ScratchAccessChecksStopTheCore :
    idle.CoreIdle k0 ∧ pairOdd .pair 31 = true ∧
    (pairOdd .pair 0 = false ∧ (0x5FFFC : W32).toNat % memBytes .pair ≠ 0) ∧
    ((0x60000 : W32).toNat % memBytes .pair = 0 ∧ inCoreScratch (0x60000 : W32).toNat (memBytes .pair) = false) ∧
    ((0x5FFF8 : W32).toNat % memBytes .pair = 0 ∧ inCoreScratch (0x5FFF8 : W32).toNat (memBytes .pair) = true) :=
  ⟨test_idle_core_is_idle, by decide +kernel⟩

/-- Cluster 0 maps the first GiB of job addresses to HBM address 0 by one writable page: root table at 4,096. -/
def mapped : State :=
  (idle.setReg (.clu c0) CLU_XLAT_LO 4097).writeBytes 4096 (leBytes 8 (1 + 2 + 4))

theorem test_mapped_core_is_idle : mapped.CoreIdle k0 := idle_of mapped (by decide +kernel)

def reachOk (s : State) (va n : Nat) (w : Bool) : Bool :=
  match s.reach k0 va n w with
  | (r, .ok a _) => r.slotReady k0 a
  | _ => false

theorem reachOk_spec {s : State} {va n : Nat} {w : Bool} (h : reachOk s va n w = true) :
    ∃ r a x, s.reach k0 va n w = (r, .ok a x) ∧ r.slotReady k0 a = true := by
  unfold reachOk at h
  split at h
  · next r a x e => exact ⟨r, a, x, e, h⟩
  · cases h

theorem test_meets_JobAccessTakesARequestSlot :
    mapped.CoreIdle k0 ∧ pairOdd .pair 2 = false ∧ (0x3FFFFFF8 : BitVec 48).toNat % memBytes .pair = 0 ∧
    (∃ r a x, mapped.reach k0 0x3FFFFFF8 8 false = (r, .ok a x) ∧ r.slotReady k0 a = true) ∧
    (∃ r a x, mapped.reach k0 0x3FFFFFF8 8 true = (r, .ok a x) ∧ r.slotReady k0 a = true) ∧
    (mapped.translate k0 0x40000000).2 = none := by
  refine ⟨test_mapped_core_is_idle, ?_, ?_, reachOk_spec ?_, reachOk_spec ?_, ?_⟩ <;> decide +kernel

/-- Core 0 with one access in a slot. -/
def withSlot (u : SlotUse) : State := idle.setCore k0 { idle.core k0 with slots := [⟨47, u⟩] }

theorem test_meets_OutstandingAccessesComplete :
    (let s := withSlot (.load 31 8 0x1000 0x2000)
     s.slotById k0 47 = some ⟨47, .load 31 8 0x1000 0x2000⟩ ∧ s.lineBlocked k0 47 0x2000 = false ∧ s.coreFaulted k0 = false ∧
     (s.core k0).stall = .none ∧ (s.core k0).dmaRun = [] ∧ (s.cluster k0.cluster).streams = [] ∧
     (s.cluster k0.cluster).poisoned.contains (0x2000 / 64) = false ∧ s.windowEcc [(0x2000, 8)] .ok = (s, none)) ∧
    (let s := withSlot (.store 1 0x1000 0x2000 7)
     s.slotById k0 47 = some ⟨47, .store 1 0x1000 0x2000 7⟩ ∧ s.lineBlocked k0 47 0x2000 = false ∧ (s.core k0).stall = .none ∧
     (s.core k0).dmaRun = [] ∧ (s.cluster k0.cluster).streams = [] ∧ s.windowEcc [(0x2000, 1)] .ok = (s, none)) ∧
    (let s := (withSlot (.prefetch 0x1000 0x2000)).setReg (.cch c0) BLK_CTRL 1
     s.slotById k0 47 = some ⟨47, .prefetch 0x1000 0x2000⟩ ∧ (s.core k0).stall = .none ∧ (s.core k0).dmaRun = [] ∧
     (s.cluster k0.cluster).streams = [] ∧ s.cacheable k0.cluster 0x2000 = true) := by decide +kernel

theorem test_meets_OutstandingAccessesComplete_errors :
    (let s := withSlot (.load 31 8 0x1000 0x2000)
     (s.lineError c0 0x2000 .dramUncorrectable).2 = true ∧ s.lineLost 0x2000 = false ∧ (s.lineError c0 0x2000 .none).2 = false) ∧
    (let a := scratchBase k1 + 64
     let s := withSlot (.load 31 8 0x1000 a)
     s.slotById k0 47 = some ⟨47, .load 31 8 0x1000 a⟩ ∧ (s.lineError c0 a .none).2 = false ∧
       ((s.lineError c0 a .none).1.windowEcc [(a, 8)] (.double 0)).2 = some a) ∧
    (let s := withSlot (.prefetch 0x1000 0x2000)
     s.lineLost 0x2000 = false ∧ (s.cluster c0).hasLine 0x2000 = false ∧ (memCtl 0x2000).isSome = true) := by decide +kernel

/-- Core 0 waits at a FENCE for one store; core 0 with an entry in an engine's queue. -/
def fencing : State := (withSlot (.store 8 0x1000 0x2000 7)).setStall k0 .fence
def queued : State := idle.setQueue k0 .mtx [.wait 3 2 100 false]
theorem test_meets_MarksAndFenceAndHaltComplete_waits :
    (let s := withSlot (.store 8 0x1000 0x2000 7)
     s.issuable k0 = true ∧ s.fetchOk k0 = true ∧ (s.core k0).dmaRun = [] ∧ (s.slotsOf k0).any slotIsCore = true) ∧
    (queued.issuable k0 = true ∧ queued.fetchOk k0 = true ∧ (queued.core k0).dmaRun = [] ∧
      (queued.core k0).vecQ ++ (queued.core k0).mtxQ ++ (queued.core k0).dmaQ ≠ []) ∧
    ((fencing.core k0).stall = .fence ∧ (fencing.core k0).dmaRun = [] ∧ (fencing.core k0).dmaQ = [] ∧
      (fencing.core k0).slots = [⟨(47 : Fin 48).val, .store 8 0x1000 0x2000 7⟩]) := by decide +kernel

theorem test_meets_LocalRegisterPathReadsAndWrites :
    idle.CoreIdle k0 ∧
    (idle.localOff k0 0 0x31DC % 4 = 0 ∧ lrdOk (idle.localOff k0 0 0x31DC) = true ∧ lwrOk (idle.localOff k0 0 0x31DC) = true) ∧
    idle.localOff k0 0 0x31DE % 4 ≠ 0 ∧
    (idle.localOff k0 0 0x31E0 % 4 = 0 ∧ lrdOk (idle.localOff k0 0 0x31E0) = false ∧ lwrOk (idle.localOff k0 0 0x31E0) = false) :=
  ⟨test_idle_core_is_idle, by decide +kernel⟩

/-- The first GiB of job addresses mapped by an entry of these flags to a base. -/
def mappedAs (flags base : Nat) : State :=
  (idle.setReg (.clu c0) CLU_XLAT_LO 4097).writeBytes 4096 (leBytes 8 (flags + base))
theorem test_mapped_cores_are_idle : (mappedAs 3 0).CoreIdle k0 ∧ (mappedAs 7 scratchLo).CoreIdle k0 :=
  ⟨idle_of _ (by decide +kernel), idle_of _ (by decide +kernel)⟩
theorem test_meets_JobAccessTakesARequestSlot_stops :
    (0x3 : BitVec 48).toNat % memBytes .b4 ≠ 0 ∧
    ((mapped.walkError k0 64 (.line 0 .dramUncorrectable)).2 = some 4096 ∧ (mapped.walkError k0 64 .ok).2 = none) ∧
    ((mapped.walkError k0 0x40000000 .ok).1.translate k0 0x40000000).2 = none ∧
    (((mappedAs 3 0).walkError k0 64 .ok).1.translate k0 64).2 = some ⟨0, 2 ^ 30, 0, false, false⟩ ∧
    (((mappedAs 7 scratchLo).walkError k0 0x60000 .ok).1.translate k0 0x60000).2 = some ⟨0, 2 ^ 30, scratchLo, true, false⟩ ∧
    rangeBacked (scratchLo + (0x60000 - 0)) (memBytes .b4) = false := by decide +kernel

/-- A fill of 8 bytes in scratch, described at offset 0: CTRL DST_LOCAL and FILL, destination 0x100. -/
def dmaGood : State := word (word (word (word idle 0 6) 0x10 0x100) 0x18 8) 0x1C 1
theorem test_dma_core_is_idle : dmaGood.CoreIdle k0 := idle_of dmaGood (by decide +kernel)
/-- The same descriptor in progress; and one to an unmapped job address. -/
def dmaRuns : State := dmaGood.setCore k0 ((dmaGood.core k0).startRun (dmaGood.dmaDesc k0 0))
def dmaFaults : State := dmaGood.setCore k0 ((dmaGood.core k0).startRun { dmaGood.dmaDesc k0 0 with dstLocal := false })

theorem test_meets_DmaDescriptorsRunAndSignal :
    dmaGood.CoreIdle k0 ∧ (0 : W32).toNat % 64 = 0 ∧ inCoreScratch (0x5FFC0 : W32).toNat 64 = true ∧
    dmaGood.dmaRefused k0 (dmaGood.dmaDesc k0 0) = false ∧ dmaGood.dmaRefused k0 (dmaGood.dmaDesc k0 0x5FFC0) = true ∧
    ((dmaGood.dmaDesc k0 0).readsJob = false ∧ (dmaGood.dmaDesc k0 0).writesJob = false ∧ eccLost .ok [(0, 64)] = none) ∧
    (dmaRuns.coreFaulted k0 = false ∧ (dmaRuns.core k0).dmaRun[(0 : Fin 4).val]? = some ⟨0, dmaGood.dmaDesc k0 0, 0, 0, [], []⟩ ∧
      (dmaRuns.dmaError k0 (dmaGood.dmaDesc k0 0) ⟨.ok, 0, .none⟩).2 = none ∧
      (dmaRuns.dmaFinish k0 ⟨0, dmaGood.dmaDesc k0 0, 0, 0, [], []⟩).2 = none) ∧
    (let d := { dmaGood.dmaDesc k0 0 with dstLocal := false }
     dmaFaults.coreFaulted k0 = false ∧ (dmaFaults.core k0).dmaRun[(0 : Fin 4).val]? = some ⟨0, d, 0, 0, [], []⟩ ∧
      (dmaFaults.dmaFinish k0 ⟨0, d, 0, 0, [], []⟩).2 = some (1, 0x100)) :=
  ⟨test_dma_core_is_idle, by decide +kernel⟩

/-- Group `g` of core 0 open with a kind. -/
def opened (s : State) (g : Fin 4) (kind : Nat) : State := s.setGroup k0 g ⟨true, kind, 0, []⟩
/-- A BF16 MACC of one K-step of a 1 by 1 tile, described at offset 0, and an FP32 MEND of it at offset 64. -/
def mtxDescs : State :=
  let s := word (word (word (word (word idle 0 0x11) 8 1) 0xC 0x101) 0x14 64) 0x1C 128
  word (word (word s 0x48 0x400) 0x4C 256) 0x5C 0x101
def mtxOpen : State := opened mtxDescs 3 0
theorem test_mtx_core_is_idle : mtxOpen.CoreIdle k0 := idle_of mtxOpen (by decide +kernel)

theorem test_meets_MatrixGroupsOpenAndAccumulate :
    (idle.CoreIdle k0 ∧ (2 : Fin 4) ≠ 3 ∧ (idle.group k0 2).isOpen = false ∧ idle.pairedAway k0 2 = false ∧
      (2 : Fin 4).val % 2 = 0 ∧ (idle.group k0 (partner 2)).isOpen = false ∧ idle.pairedAway k0 3 = false) ∧
    (mtxOpen.CoreIdle k0 ∧ mtxOpen.maccReason k0 3 (mtxOpen.mtxOff k0 0 0) = 0 ∧
      eccLost .ok ((mtxOpen.maccDesc k0 0).reads 0) = none) :=
  ⟨⟨test_idle_core_is_idle, by decide +kernel⟩, test_mtx_core_is_idle, by decide +kernel, rfl⟩

theorem test_meets_MendWritesItsTileAndCloses :
    mtxOpen.CoreIdle k0 ∧ mtxOpen.mendReason k0 3 (mtxOpen.mtxOff k0 0 1) = 0 ∧
    (mtxOpen.mendDesc k0 (mtxOpen.mtxOff k0 0 1)).scaled = false :=
  ⟨test_mtx_core_is_idle, by decide +kernel⟩

def wq1 : State := withReg idle 1 (BitVec.ofNat 32 (0x1700 + 12 * 2 ^ 13))
def wqFull : State := idle.setReg (.cor k0) MTX_WQ_TAIL 1
theorem test_meets_SegmentQueueCommands :
    (wq1.CoreIdle k0 ∧ wq1.wqEmpty k0 = true ∧ bits (wq1.gpr k0 1).toNat 13 4 ≤ 12 ∧
      bits (wq1.gpr k0 1).toNat 0 13 * 64 + 2 ^ bits (wq1.gpr k0 1).toNat 13 4 * 4 = scratchBytes) ∧
    ((withReg idle 1 1).CoreIdle k0 ∧ (withReg idle 1 1).wqEmpty k0 = true ∧
      ((withReg idle 1 1).gpr k0 1).toNat = 2 ^ (withReg idle 1 1).field (.cor k0) MTX_WQ_CFG 13 4) ∧
    (wqFull.CoreIdle k0 ∧ wqFull.wqEmpty k0 = false) := by
  refine ⟨⟨idle_of _ ?_, ?_⟩, ⟨idle_of _ ?_, ?_⟩, idle_of _ ?_, ?_⟩ <;> decide +kernel

/-! ## Vector -/

/-- Core 0 with a vector format, at the longest vector of it. -/
def vec (v : Nat) : State := idle.setCore k0 { idle.core k0 with vfmt := v, vl := vlmax v }
theorem test_fp32_core_is_idle : (vec 0).CoreIdle k0 := idle_of _ (by decide +kernel)
theorem test_int32_core_is_idle : (vec 3).CoreIdle k0 := idle_of _ (by decide +kernel)
theorem test_int16_core_is_idle : (vec 4).CoreIdle k0 := idle_of _ (by decide +kernel)

/-- Every plain element-wise form runs at some format, its destination being one of its sources. -/
theorem test_meets_ElementwiseFormsWriteTheirLanes :
    (∀ f ∈ plainEw, ewReason ((vec 0).core k0) f (form 31 31 0 0) = 0 ∨ ewReason ((vec 4).core k0) f (form 31 31 0 0) = 0) ∧
    EwOp.vshr ∈ plainEw ∧ (vec 0).CoreIdle k0 ∧ (vec 4).CoreIdle k0 :=
  ⟨by decide +kernel, by decide, test_fp32_core_is_idle, test_int16_core_is_idle⟩

/-- e = 2.71828182..., ln 2 = 0.69314718... and tanh 1 = 0.76159415... lie between these FP32 numbers (R215). -/
theorem test_transcendentals_within_one_unit :
    (match exactExp false 1 0 with | .num s n d e => fp32.nearest s n d e | _ => []) = [0x402DF854, 0x402DF855] ∧
    (match exactLog 1 1 with | .num s n d e => fp32.nearest s n d e | _ => []) = [0x3F317217, 0x3F317218] ∧
    (match exactTanh true 1 0 with | .num s n d e => fp32.nearest s n d e | _ => []) = [0xBF42F7D5, 0xBF42F7D6] := by
  decide +kernel

theorem test_meets_ConversionsAndRandomFormsWriteTheirLanes :
    (vec 0).CoreIdle k0 ∧ (vec 3).CoreIdle k0 ∧
    (ewReason ((vec 3).core k0) .vabs (form 1 2 3 0) = 0 ∧ ewReason ((vec 0).core k0) .vneg (form 1 2 3 0) = 0 ∧
      ewReason ((vec 0).core k0) .vcvtw (form 1 2 3 0) = 0 ∧ ewReason ((vec 0).core k0) .vcvtw (form 1 2 3 7) = 0 ∧
      ewReason ((vec 0).core k0) .vcvtn (form 1 2 3 6) = 0 ∧ ewReason ((vec 0).core k0) .vupd (form 1 2 3 0) = 0 ∧
      ewReason ((vec 0).core k0) .vupd (form 1 2 3 1) = 0 ∧ ewReason ((vec 0).core k0) .vupd (form 30 2 3 2) = 0 ∧
      ewReason ((vec 0).core k0) .vupd (form 31 2 3 2) = 3 ∧ ewReason ((vec 3).core k0) .vbern (form 1 2 3 0) = 0 ∧
      ewReason ((vec 0).core k0) .vcvts (form 1 2 3 0) = 0 ∧ ewReason ((vec 0).core k0) .vcvts (form 1 2 3 4) = 0) :=
  ⟨test_fp32_core_is_idle, test_int32_core_is_idle, by decide +kernel⟩

/-- Lane 0 of v3 indexes within VL, lane 1 at VL. -/
def permuting : State := idle.setCore k0 (((vec 0).core k0).setLanes 4 3 [(0, 63), (1, 64)])
theorem test_meets_PermuteTakesIndexedLanes :
    (vec 0).CoreIdle k0 ∧ clReason ((vec 0).core k0) .vperm (form 1 2 3 0) = 0 ∧ permuting.issuable k0 = true ∧
    (permuting.core k0).laneB 4 (form 1 2 3 0) 0 < (permuting.core k0).vl ∧
    (permuting.core k0).vl ≤ (permuting.core k0).laneB 4 (form 1 2 3 0) 1 :=
  ⟨test_fp32_core_is_idle, by decide +kernel⟩

theorem test_meets_CrossLaneFormsReduceTheirGroups :
    (vec 0).CoreIdle k0 ∧ (vec 4).CoreIdle k0 ∧
    (∀ f ∈ [ClOp.vrsum, .vrssq, .vrmax, .vrmin, .vrcnt], clReason ((vec 0).core k0) f (form 1 2 3 0) = 0 ∧
      clReason ((vec 4).core k0) f (form 31 2 3 7) = 0) ∧
    clReason ((vec 0).core k0) .vmv (form 29 2 3 6) = 0 ∧ clReason ((vec 0).core k0) .vmvcomb (form 29 29 29 0) = 0 ∧
    clReason ((vec 0).core k0) .vsmstat (form 1 2 3 0) = 0 ∧ clReason ((vec 0).core k0) .vsmstat (form 1 2 3 1) = 0 ∧
    clReason ((vec 0).core k0) .vsmmerge (form 1 2 3 0) = 0 ∧ clReason ((vec 0).core k0) .vsmexp (form 1 2 3 0) = 0 ∧
    clReason ((vec 0).core k0) .vsmnorm (form 1 2 3 0) = 0 :=
  ⟨test_fp32_core_is_idle, test_int16_core_is_idle, by decide +kernel⟩

/-- The base register 1 and the stride register 2: 64 elements that end at the last byte of scratch. -/
def vecMem (base stride : W32) : State := withReg (withReg (vec 0) 1 base) 2 stride
theorem test_meets_VectorLoadsAndStoresMoveTheirElements :
    ((vecMem 0x5FF00 4).CoreIdle k0 ∧ sgn ((vecMem 0x5FF00 4).gpr k0 2).toNat 32 ≠ 0 ∧ sgn ((vecMem 0x5FF00 4).gpr k0 2).toNat 32 % 4 = 0 ∧
      vmemFault 4 ((vecMem 0x5FF00 4).gpr k0 1).toNat ((vecMem 0x5FF00 4).gpr k0 2).toNat 0 (upFrom 0 64) = none) ∧
    vmemFault 4 ((vecMem 0x5FF04 4).gpr k0 1).toNat ((vecMem 0x5FF04 4).gpr k0 2).toNat 0 (upFrom 0 64) ≠ none ∧
    ((vecMem 0 0).CoreIdle k0 ∧ sgn ((vecMem 0 0).gpr k0 2).toNat 32 % 4 = 0 ∧
      vmemFault 4 ((vecMem 0 0).gpr k0 1).toNat ((vecMem 0 0).gpr k0 2).toNat 511 (upFrom 0 64) = none) ∧
    ((vecMem 0x5FF00 2).CoreIdle k0 ∧ sgn ((vecMem 0x5FF00 2).gpr k0 2).toNat 32 % vwidth ((vecMem 0x5FF00 2).core k0).vfmt ≠ 0) := by
  refine ⟨⟨idle_of _ ?_, ?_⟩, ?_, ⟨idle_of _ ?_, ?_⟩, idle_of _ ?_, ?_⟩ <;> decide +kernel

theorem test_meets_VectorLoadsAndStoresMoveTheirElements_stops :
    ((vecMem 0 0).CoreIdle k0 ∧ sgn ((vecMem 0 0).gpr k0 2).toNat 32 = 0) ∧
    ((vecMem 0x5FF04 4).CoreIdle k0 ∧ ((vecMem 0x5FF04 4).core k0).vl = 64 ∧
      (let off := vmemOff ((vecMem 0x5FF04 4).gpr k0 1).toNat ((vecMem 0x5FF04 4).gpr k0 2).toNat 0
       (∀ j < 63, off j % 4 = 0 ∧ 0 ≤ off j ∧ off j + 4 ≤ (scratchBytes : Int)) ∧ off 63 % 4 = 0 ∧
         ¬(0 ≤ off 63 ∧ off 63 + 4 ≤ (scratchBytes : Int)))) ∧
    ((vecMem 2 4).CoreIdle k0 ∧ sgn ((vecMem 2 4).gpr k0 2).toNat 32 ≠ 0 ∧
      vmemOff ((vecMem 2 4).gpr k0 1).toNat ((vecMem 2 4).gpr k0 2).toNat 0 0 % 4 ≠ 0) := by
  refine ⟨⟨idle_of _ ?_, ?_⟩, ⟨idle_of _ ?_, ?_⟩, idle_of _ ?_, ?_⟩ <;> decide +kernel

/-- Register 1 holds an SMCFG word with INIT_EXP at a bound; HEADROOM 3; entry 63. -/
def smWord (e : Nat) : W32 := BitVec.ofNat 32 (63 + 3 * 2 ^ 8 + e * 2 ^ 16)
theorem test_meets_VectorControlCommands :
    idle.CoreIdle k0 ∧ (4 : Fin 16).val ≤ 4 ∧
    (∀ e ∈ [124, 256 - 124], let v := ((withReg idle 1 (smWord e)).gpr k0 1).toNat
      bits v 6 2 = 0 ∧ bits v 10 6 = 0 ∧ bits v 24 8 = 0 ∧ -124 ≤ sgn (bits v 16 8) 8 ∧ sgn (bits v 16 8) 8 ≤ 124) ∧
    (let s := withReg idle 1 0x5FFC0
     let o := (s.gpr k0 1).toNat
     o % 64 = 0 ∧ inCoreScratch o 64 = true ∧ bits (s.scrRd k0 (o + 0x20) 4) 1 31 = 0 ∧
       allZero (s.scrBytes k0 (o + 0x24) 28) = true) ∧ (1 : W32) ≠ 0 :=
  ⟨test_idle_core_is_idle, by decide, by decide +kernel, by decide +kernel, by decide⟩

/-- Beyond the largest and below the least INIT_EXP, and with a bit that SMCFG does not name. -/
theorem test_meets_VectorControlCommands_refused :
    (4 < (5 : Fin 16).val) ∧
    (let v (w : W32) := ((withReg idle 1 w).gpr k0 1).toNat
     124 < sgn (bits (v (smWord 125)) 16 8) 8 ∧ sgn (bits (v (smWord 131)) 16 8) 8 < -124 ∧ bits (v 0x40) 6 2 ≠ 0 ∧
       bits (v 0x400) 10 6 ≠ 0 ∧ bits (v 0x1000000) 24 8 ≠ 0) ∧ (withReg idle 1 (smWord 125)).CoreIdle k0 :=
  ⟨by decide, by decide +kernel, idle_of _ (by decide +kernel)⟩

/-! ## Sync objects and barriers -/

/-- Object 47 of core 1, which is enabled and waits for nothing, holds `n`. -/
def counted (n : Nat) : State := (idle.setReg (.cor k1) BLK_CTRL 1).setReg (.cor k1) (SYN_OBJ 47) n
/-- Object 47 of core 0 holds `n`. -/
def countedHere (n : Nat) : State := idle.setReg (.cor k0) (SYN_OBJ 47) n

theorem test_meets_SyncInstructionsCountAndTake :
    ((counted 0xFF01).CoreIdle k0 ∧ (counted 0xFF01).Quiet k1 ∧ k0.cluster.coreAt 1 = k1 ∧ (47 : Fin 64).val < 48 ∧
      (counted 0xFF01).syncAmount k0 0 false 0xFE ≠ 0 ∧
      (counted 0xFF01).syncCount k1 47 + (counted 0xFF01).syncAmount k0 0 false 0xFE = 0xFFFF) ∧
    ((countedHere 5).CoreIdle k0 ∧ (countedHere 5).syncAmount k0 0 false 5 ≠ 0 ∧
      (countedHere 5).syncAmount k0 0 false 5 ≤ (countedHere 5).syncCount k0 47) ∧
    (countedHere 5).syncCount k0 47 < (countedHere 5).syncAmount k0 0 false 6 ∧
    ((withReg (countedHere 5) 1 5).CoreIdle k0 ∧
      ((withReg (countedHere 5) 1 5).gpr k0 1).toNat % 2 ^ 16 ≤ (withReg (countedHere 5) 1 5).syncCount k0 47) ∧
    (withReg (countedHere 5) 1 6).syncCount k0 47 < ((withReg (countedHere 5) 1 6).gpr k0 1).toNat % 2 ^ 16 := by
  refine ⟨⟨idle_of _ ?_, by constructor <;> decide +kernel, ?_, ?_, ?_⟩, ⟨idle_of _ ?_, ?_⟩, ?_, ⟨idle_of _ ?_, ?_⟩,
    ?_⟩ <;> decide +kernel

/-- Core 1 waits on object 47 for 4, which holds 3; or its matrix queue does. -/
def waiting1 : State := (counted 3).setStall k1 (.swait 47 4 100 false)
def queued1 : State := (counted 3).setQueue k1 .mtx [.wait 47 4 100 false]
theorem test_meets_SyncInstructionsCountAndTake_others :
    (waiting1.CoreIdle k0 ∧ waiting1.enabled (.cor k1) = true ∧ waiting1.coreFaulted k1 = false ∧ (waiting1.core k1).dmaRun = [] ∧
      waiting1.syncAmount k0 0 false 1 ≠ 0 ∧ 4 ≤ waiting1.syncCount k1 47 + waiting1.syncAmount k0 0 false 1 ∧
      (waiting1.core k1).stall = .swait 47 4 100 false ∧ (waiting1.core k1).mtxQ = [] ∧ (waiting1.core k1).vecQ = [] ∧
      (waiting1.core k1).dmaQ = []) ∧
    (queued1.CoreIdle k0 ∧ (queued1.core k1).stall = .none ∧ (queued1.core k1).queue .mtx = [.wait 47 4 100 false] ∧
      ∀ f, f ≠ EngineId.mtx → (queued1.core k1).queue f = []) ∧
    ((counted 0xFFFF).CoreIdle k0 ∧ (counted 0xFFFF).Quiet k1 ∧ (counted 0xFFFF).coreFaulted k1 = false ∧
      0xFFFF < (counted 0xFFFF).syncCount k1 47 + (counted 0xFFFF).syncAmount k0 0 false 1) ∧
    (47 < (48 : Fin 64).val ∧ idle.syncAmount k0 0 false 0 = 0) := by
  refine ⟨⟨idle_of _ ?_, ?_⟩, ⟨idle_of _ ?_, ?_, ?_, fun f => by cases f <;> decide +kernel⟩, ⟨idle_of _ ?_, by constructor <;> decide +kernel, ?_⟩, ?_⟩
  all_goals decide +kernel

/-- Core 0 waits on object 3 for 2, until clock 100. -/
def waits (clk : Nat) (r : Bool) : State := { idle.setStall k0 (.swait 3 2 100 r) with clock := clk }
/-- The matrix queue of core 0 waits in the same way. -/
def queueWaits (clk : Nat) (r : Bool) : State := { idle.setQueue k0 .mtx [.wait 3 2 100 r] with clock := clk }
theorem test_meets_WatchdogsReportOnceAndTheWaitGoesOn :
    (idle.CoreIdle k0 ∧ idle.syncCount k0 3 < idle.syncAmount k0 0 false 2) ∧
    ((waits 101 false).waitOf k0 .core = some (3, 2, 100, false) ∧ 100 < (waits 101 false).clock ∧
      (queueWaits 101 false).waitOf k0 .mtx = some (3, 2, 100, false) ∧ 100 < (queueWaits 101 false).clock) ∧
    ((waits 100 false).waitOf k0 .core = some (3, 2, 100, false) ∧ (waits 100 false).clock ≤ 100) ∧
    (queueWaits 101 true).waitOf k0 .mtx = some (3, 2, 100, true) :=
  ⟨⟨test_idle_core_is_idle, by decide +kernel⟩, by decide +kernel⟩

/-- Barrier 7 of cluster 0 with a mask. -/
def barred (m : Nat) : State := idle.setReg (.clu c0) (BAR_CFG 7) m
theorem test_meets_BarrierArrivalsWaitsAndTimeouts :
    ((barred 0x8001).CoreIdle k0 ∧ bit ((barred 0x8001).barMask c0 7) k0.core.val = true ∧
      bits ((barred 0x8001).reg (.clu c0) (BAR_STATE 7)) 0 16 = 0 ∧ (barred 0x8001).early c0 7 k0.core.val = false ∧
      (15 : Fin 16) ≠ k0.core ∧ bit ((barred 0x8001).barMask c0 7) (15 : Fin 16).val = true) ∧
    ((barred 1).CoreIdle k0 ∧ (barred 1).barMask c0 7 = 2 ^ k0.core.val ∧ (barred 1).reg (.clu c0) (BAR_STATE 7) = 0 ∧
      (∀ j, (barred 1).flag (.clu c0) (BAR_PHASE 7) j = false ∨ 16 ≤ j) ∧
      ∀ j, j ≠ k0.core → ((barred 1).core (c0.coreAt j)).stall = .none) ∧
    ((barred 1).arrived c0 7 0 = false ∧ (barred 1).early c0 7 0 = false ∧
      ((barred 1).setFlag (.clu c0) (BAR_STATE 7) 16).early c0 7 0 = true ∧
      ((barred 1).setFlag (.clu c0) (BAR_STATE 7) 0).arrived c0 7 0 = true) ∧
    (let s := { idle.setStall k0 (.bwait 7 5 false) with clock := 5 + idle.field (.clu c0) BAR_WDOG 0 20 * 1000 }
     (s.core k0).stall = .bwait 7 5 false ∧ 5 + s.field (.clu c0) BAR_WDOG 0 20 * 1000 ≤ s.clock) :=
  ⟨⟨idle_of _ (by decide +kernel), by decide +kernel⟩,
   ⟨idle_of _ (by decide +kernel), by decide +kernel, by decide +kernel, fun j => by
      by_cases h : 16 ≤ j
      · exact .inr h
      · exact .inl (by
          have : ∀ j : Fin 16, (barred 1).flag (.clu c0) (BAR_PHASE 7) j.val = false := by decide +kernel
          exact this ⟨j, by omega⟩), by decide +kernel⟩, by decide +kernel⟩

/-- Barrier 7 of cores 0 to 3: core 1 waits in it, core 2 is early as well, core 3 stalls at its second early arrival; and core 0
has arrived, or has and is early, while core 1 has not. -/
def lastOne : State :=
  let s := (barred 0xF).setReg (.clu c0) (BAR_STATE 7) (0xE + 0xC * 2 ^ 16)
  (s.setStall k1 (.bwait 7 0 false)).setStall ⟨0, 0, 3⟩ (.barr 7 0 false true)
def arrivedAt (v : Nat) : State := (barred 3).setReg (.clu c0) (BAR_STATE 7) v
theorem test_meets_BarrierArrivalsWaitsAndTimeouts_several :
    (lastOne.CoreIdle k0 ∧ bit (lastOne.barMask c0 7) 0 = true ∧ lastOne.arrived c0 7 0 = false ∧ lastOne.early c0 7 0 = false ∧
      ∀ j : Fin 16, j ≠ 0 → bit (lastOne.barMask c0 7) j.val = true → lastOne.arrived c0 7 j.val = true) ∧
    ((arrivedAt 1).CoreIdle k0 ∧ bit ((arrivedAt 1).barMask c0 7) 0 = true ∧ (arrivedAt 1).arrived c0 7 0 = true ∧
      (arrivedAt 1).early c0 7 0 = false ∧ bit ((arrivedAt 1).barMask c0 7) (1 : Fin 16).val = true ∧
      (arrivedAt 1).arrived c0 7 (1 : Fin 16).val = false) ∧
    ((arrivedAt (1 + 2 ^ 16)).CoreIdle k0 ∧ (arrivedAt (1 + 2 ^ 16)).arrived c0 7 0 = true ∧
      (arrivedAt (1 + 2 ^ 16)).early c0 7 0 = true ∧ (arrivedAt (1 + 2 ^ 16)).arrived c0 7 (1 : Fin 16).val = false) ∧
    (let s := { idle.setStall k0 (.barr 7 5 false true) with clock := 5 + idle.field (.clu c0) BAR_WDOG 0 20 * 1000 }
     (s.core k0).stall = .barr 7 5 false true ∧ 5 + s.field (.clu c0) BAR_WDOG 0 20 * 1000 ≤ s.clock) := by
  refine ⟨⟨idle_of _ ?_, ?_⟩, ⟨idle_of _ ?_, ?_⟩, ⟨idle_of _ ?_, ?_⟩, ?_⟩ <;> decide +kernel

theorem test_meets_NonParticipantStopsAtABarrier :
    (barred 0xFFFE).CoreIdle k0 ∧ bit ((barred 0xFFFE).barMask c0 7) k0.core.val = false :=
  ⟨idle_of _ (by decide +kernel), by decide +kernel⟩

/-! ## Units of a cluster -/

def unitsOn : State := ((on.setReg (.cru c0) BLK_CTRL 1).setReg (.skd c0) BLK_CTRL 1).setReg (.sil c0) BLK_CTRL 1
def unitsFull : State :=
  ((unitsOn.setCruiser c0 { unitsOn.cruiser c0 with queue := [64, 128, 192, 256] }).setSkidder c0
    { unitsOn.skidder c0 with queue := [64, 128, 192, 256] }).setSillage c0 { unitsOn.sillage c0 with queue := [64, 128, 192, 256] }

theorem test_meets_UnitQueuesTakeFourDescriptors :
    (unitsOn.enabled (.cru c0) = true ∧ (unitsOn.cruiser c0).queue.length < 4 ∧ unitsOn.enabled (.skd c0) = true ∧
      (unitsOn.skidder c0).queue.length < 4 ∧ unitsOn.enabled (.sil c0) = true ∧ (unitsOn.sillage c0).queue.length < 4) ∧
    (unitsFull.powered (.cru c0) = true ∧ 4 ≤ (unitsFull.cruiser c0).queue.length ∧ unitsFull.powered (.skd c0) = true ∧
      4 ≤ (unitsFull.skidder c0).queue.length ∧ unitsFull.powered (.sil c0) = true ∧ 4 ≤ (unitsFull.sillage c0).queue.length) ∧
    (on.powered (.cru c0) = true ∧ on.enabled (.cru c0) = false ∧ on.enabled (.skd c0) = false ∧
      on.enabled (.sil c0) = false) := by decide +kernel

/-- The reference of a block's configuration check set to what its registers give. -/
def checked (s : State) (b : Blk) : State := s.setReg b BLK_CFG_CRC_REF (s.crcNow b)
/-- One module, one range of no nodes: modules at 64, ranges at 128. -/
def mapImage (s : State) (a owner : Nat) : State :=
  let s := s.writeBytes a (leBytes 4 0x524E574F ++ [1, 0, 0, 0] ++ leBytes 4 1 ++ leBytes 4 1 ++ leBytes 4 64 ++ leBytes 4 128)
  let s := s.writeBytes (a + 128) (leBytes 8 (owner * 2 ^ 40))
  s.writeBytes (a + 0x3C) (leBytes 4 (crc32c (s.readBytes a 60 ++ List.replicate 4 0 ++ s.readBytes (a + 64) 4 ++ s.readBytes (a + 128) 16)))
def mapOn : State := checked (checked (mapImage on 0 0xFFF) (.cru c0)) (.skd c0)
/-- The last range has an owner. -/
def mapBad : State := mapImage on 0 0
/-- A Sillage unit and a core that pass their checks, and a resume that waits for the core. -/
def coreReady : State := checked (on.setReg (.cor k0) COR_PROG (383 + 2 ^ 9)) (.cor k0)
def coreResumes : State := coreReady.setCore k0 { coreReady.core k0 with resume := some ⟨0x5FC00, true⟩ }
/-- A tile interface with regions of 16 MiB and a route to itself. -/
def tileSet : State :=
  let b := Blk.til 7
  let s := ((on.setReg b TIL_RSB_CFG 16).setReg b TIL_RX_CFG 16).setReg b TIL_RX_LO 0x1000000
  s.setRouteWord 7 ((coordIndex (s.coord 7)).getD 0 * 4 + 3) 1
def tileReady : State := checked tileSet (.til 7)
def portReady : State := checked (on.setReg (.opt q0) OPT_CTRL 1) (.opt q0)
def lndReady : State := checked on (.lnd 7)

theorem tilBad_setRef (s : State) (t : Fin 8) (v : Nat) : (s.setReg (.til t) BLK_CFG_CRC_REF v).tilBad t = s.tilBad t := by
  have hr : ∀ o, o ≠ BLK_CFG_CRC_REF → (s.setReg (.til t) BLK_CFG_CRC_REF v).reg (.til t) o = s.reg (.til t) o :=
    fun o ho => s.reg_setReg_off v ho
  have hf : ∀ o, o ≠ BLK_CFG_CRC_REF → ∀ lo len, (s.setReg (.til t) BLK_CFG_CRC_REF v).field (.til t) o lo len = s.field (.til t) o lo len :=
    fun o ho _ _ => by rw [State.field, hr o ho]; rfl
  have hp : ∀ lo hi, lo ≠ BLK_CFG_CRC_REF → hi ≠ BLK_CFG_CRC_REF →
      (s.setReg (.til t) BLK_CFG_CRC_REF v).pair (.til t) lo hi = s.pair (.til t) lo hi :=
    fun lo hi h1 h2 => by rw [State.pair, hr lo h1, hr hi h2]; rfl
  have hc : (s.setReg (.til t) BLK_CFG_CRC_REF v).coord t = s.coord t := hr _ (by decide)
  have hv : ∀ c, (s.setReg (.til t) BLK_CFG_CRC_REF v).routeValid t c = s.routeValid t c := fun _ => by
    simp only [State.routeValid, State.routeWord, State.setReg_routes]
  unfold State.tilBad
  dsimp only
  rw [hf TIL_CFG (by decide), hf TIL_GAP (by decide), hf TIL_ACK_TO (by decide), hf TIL_RETRY (by decide),
    hf TIL_RSB_CFG (by decide), hf TIL_RX_CFG (by decide), hp TIL_RSB_LO TIL_RSB_HI (by decide) (by decide),
    hp TIL_RX_LO TIL_RX_HI (by decide) (by decide), hc, hv]

theorem enabled_setRef (s : State) (b : Blk) (v : Nat) : (s.setReg b BLK_CFG_CRC_REF v).enabled b = s.enabled b := by
  simp only [State.enabled, State.flag, s.reg_setReg_off (b := b) (p := BLK_CTRL) v (by decide : BLK_CTRL ≠ BLK_CFG_CRC_REF)]
  rfl

theorem tileReady_tilBad : tileReady.tilBad 7 = none := by
  rw [tileReady, checked, tilBad_setRef]; decide +kernel
theorem tileReady_disabled : tileReady.enabled (.til 7) = false := by
  rw [tileReady, checked, enabled_setRef]; decide +kernel

theorem test_meets_EnablesStartTheirUnits :
    (mapOn.powered (.cru c0) = true ∧ mapOn.enabled (.cru c0) = false ∧
      (mapOn.loadOwnerMap (queueAddr (mapOn.reg (.cru c0) CRU_OMAP_LO) (mapOn.reg (.cru c0) CRU_OMAP_HI))).2 = 0 ∧
      mapOn.crcNow (.cru c0) = mapOn.reg (.cru c0) BLK_CFG_CRC_REF) ∧
    (mapOn.powered (.skd c0) = true ∧ mapOn.enabled (.skd c0) = false ∧
      (mapOn.loadOwnerMap (queueAddr (mapOn.reg (.skd c0) SKD_OMAP_LO) (mapOn.reg (.skd c0) SKD_OMAP_HI))).2 = 0 ∧
      mapOn.rrcBad c0 = none ∧ mapOn.crcNow (.skd c0) = mapOn.reg (.skd c0) BLK_CFG_CRC_REF) ∧
    (let s := checked on (.sil c0)
     s.powered (.sil c0) = true ∧ s.enabled (.sil c0) = false ∧ s.silBad c0 = none ∧
       s.crcNow (.sil c0) = s.reg (.sil c0) BLK_CFG_CRC_REF) ∧
    (coreReady.powered (.cor k0) = true ∧ coreReady.enabled (.cor k0) = false ∧ coreReady.corBad k0 = none ∧
      coreReady.crcNow (.cor k0) = coreReady.reg (.cor k0) BLK_CFG_CRC_REF ∧ (coreReady.core k0).resume = none ∧
      (coreResumes.core k0).resume = some ⟨0x5FC00, true⟩ ∧ coreResumes.corBad k0 = none ∧
      coreResumes.crcNow (.cor k0) = coreResumes.reg (.cor k0) BLK_CFG_CRC_REF) ∧
    (tileReady.powered (.til 7) = true ∧ tileReady.enabled (.til 7) = false ∧ tileReady.tilBad 7 = none ∧
      tileReady.crcNow (.til 7) = tileReady.reg (.til 7) BLK_CFG_CRC_REF) ∧
    (lndReady.powered (.lnd 7) = true ∧ lndReady.enabled (.lnd 7) = false ∧ lndReady.lndBad 7 = none ∧
      lndReady.crcNow (.lnd 7) = lndReady.reg (.lnd 7) BLK_CFG_CRC_REF) ∧
    (portReady.powered (.opt q0) = true ∧ portReady.enabled (.opt q0) = false ∧ portReady.optBad q0 = none ∧
      portReady.crcNow (.opt q0) = portReady.reg (.opt q0) BLK_CFG_CRC_REF) := by
  refine ⟨?_, ?_, ?_, ?_, ⟨rfl, tileReady_disabled, tileReady_tilBad, State.crcNow_checked tileSet (.til 7)⟩, ?_⟩ <;> decide +kernel

theorem test_meets_RefusedEnablesAreReported :
    (on.powered (.cor k0) = true ∧ on.enabled (.cor k0) = false ∧ on.corBad k0 = some COR_PROG) ∧
    (on.powered (.til 7) = true ∧ on.enabled (.til 7) = false ∧ on.tilBad 7 = some TIL_RX_CFG) ∧
    (let s := on.setReg (.opt q0) OPT_CTRL 0
     s.powered (.opt q0) = true ∧ s.enabled (.opt q0) = false ∧ s.optBad q0 = some OPT_CTRL) ∧
    (let s := on.setReg (.lnd 0) LND_CFG 257
     s.powered (.lnd 0) = true ∧ s.enabled (.lnd 0) = false ∧ s.lndBad 0 = some LND_CFG) ∧
    (let s := on.setReg (.sil c0) SIL_SCR ((200 * 2 ^ 4) + (185 * 2 ^ 13))
     s.powered (.sil c0) = true ∧ s.enabled (.sil c0) = false ∧ s.silBad c0 = some SIL_SCR) ∧
    (on.powered (.lnd 0) = true ∧ on.enabled (.lnd 0) = false ∧ on.lndBad 0 = none ∧
      on.crcNow (.lnd 0) ≠ on.reg (.lnd 0) BLK_CFG_CRC_REF) ∧
    (let s := mapOn.setReg (.skd c0) SKD_RRC_LO 1
     s.powered (.skd c0) = true ∧ s.enabled (.skd c0) = false ∧ s.rrcBad c0 = some SKD_RRC_CFG ∧
       (s.loadOwnerMap (queueAddr (s.reg (.skd c0) SKD_OMAP_LO) (s.reg (.skd c0) SKD_OMAP_HI))).2 = 0) ∧
    (let s := mapOn.setReg (.cru c0) BLK_CFG_CRC_REF 1
     s.powered (.cru c0) = true ∧ s.enabled (.cru c0) = false ∧ s.crcNow (.cru c0) ≠ s.reg (.cru c0) BLK_CFG_CRC_REF ∧
       (s.loadOwnerMap (queueAddr (s.reg (.cru c0) CRU_OMAP_LO) (s.reg (.cru c0) CRU_OMAP_HI))).2 = 0) ∧
    (mapBad.powered (.cru c0) = true ∧ mapBad.enabled (.cru c0) = false ∧ mapBad.powered (.skd c0) = true ∧
      mapBad.enabled (.skd c0) = false ∧ (4 : Nat) ≠ 0 ∧
      (mapBad.loadOwnerMap (queueAddr (mapBad.reg (.cru c0) CRU_OMAP_LO) (mapBad.reg (.cru c0) CRU_OMAP_HI))).2 = 4 ∧
      (mapBad.loadOwnerMap (queueAddr (mapBad.reg (.skd c0) SKD_OMAP_LO) (mapBad.reg (.skd c0) SKD_OMAP_HI))).2 = 4) := by
  decide +kernel

/-- The write of ENABLE 1 to a port, on its way; to one whose checks or whose CRC refuse it. -/
def optPosts (s : State) (en : Nat) : State :=
  (s.setOpt q0 { s.opt q0 with fed := some 0x0F }).setPending (.opt q0) (some (BLK_CTRL, s.ctrlWord (.opt q0) en))
def atPort0 : W32 := BitVec.ofNat 32 (Blk.opt q0).base
theorem test_meets_EnablesStartTheirUnits_and_RefusedEnablesAreReported_posted :
    (portReady.pendingWrite (.opt q0) = none ∧ (optPosts portReady 1).pendingWrite (.opt q0) ≠ none) ∧
    (let s := optPosts portReady 1
     blkOfAddr atPort0.toNat = some (.opt q0, 0) ∧ s.pendingWrite (.opt q0) = some (BLK_CTRL, s.ctrlWord (.opt q0) 1) ∧
       (s.opt q0).fed = some 0x0F ∧ s.powered (.opt q0) = true ∧ s.enabled (.opt q0) = false ∧ s.optBad q0 = none ∧
       s.crcNow (.opt q0) = s.reg (.opt q0) BLK_CFG_CRC_REF) ∧
    (let s := optPosts (portReady.setReg (.opt q0) OPT_CTRL 0) 1
     s.pendingWrite (.opt q0) = some (BLK_CTRL, s.ctrlWord (.opt q0) 1) ∧ s.optBad q0 = some OPT_CTRL) ∧
    (let s := optPosts (portReady.setReg (.opt q0) BLK_CFG_CRC_REF 1) 1
     s.pendingWrite (.opt q0) = some (BLK_CTRL, s.ctrlWord (.opt q0) 1) ∧ s.optBad q0 = none ∧
       s.crcNow (.opt q0) ≠ s.reg (.opt q0) BLK_CFG_CRC_REF) := by decide +kernel

/-- Every kind of unit enabled, with a retrace queued or not, and an open stream of slot 15. -/
def allOn : State :=
  ((((unitsOn.setReg (.cch c0) BLK_CTRL 1).setReg (.cor k0) BLK_CTRL 1).setReg (.til 7) BLK_CTRL 1).setReg (.lnd 7) BLK_CTRL 1).setReg
    (.opt q0) BLK_CTRL 1

theorem test_meets_DisablesStopTheirUnits :
    (allOn.enabled (.cru c0) = true ∧ allOn.enabled (.skd c0) = true ∧ allOn.enabled (.sil c0) = true ∧
      (allOn.sillage c0).queue = [] ∧ (unitsFull.sillage c0).queue ≠ [] ∧ unitsFull.enabled (.sil c0) = true ∧
      allOn.enabled (.cch c0) = true) ∧
    (allOn.enabled (.cor k0) = true ∧ (allOn.core k0).mtxQ = [] ∧ (allOn.core k0).vecQ = [] ∧ (allOn.core k0).dmaQ = []) ∧
    (allOn.enabled (.til 7) = true ∧ allOn.enabled (.lnd 7) = true ∧ allOn.enabled (.opt q0) = true) ∧
    (allOn.powered (.lnd 7) = true ∧ bit (0 : W32).toNat 12 = false ∧ bit (0x1FFF : W32).toNat 12 = true ∧
      (allOn.landing 7).openOf 15 = 0) := by decide +kernel

/-- Core 0 stalls at its second early arrival. -/
def stalledAt : State := (allOn.setFlag (.clu c0) (BAR_PHASE 7) 0).setStall k0 (.barr 7 0 false true)
theorem test_meets_DisablesStopTheirUnits_others :
    (stalledAt.enabled (.cor k0) = true ∧ (stalledAt.core k0).mtxQ = [] ∧ (stalledAt.core k0).vecQ = [] ∧ (stalledAt.core k0).dmaQ = [] ∧
      (stalledAt.core k0).resume = none ∧ (stalledAt.core k0).stall = .barr 7 0 false true ∧ (allOn.core k0).resume = none) ∧
    (let s := optPosts allOn 0
     s.pendingWrite (.opt q0) = some (BLK_CTRL, s.ctrlWord (.opt q0) 0) ∧ s.powered (.opt q0) = true ∧ s.enabled (.opt q0) = true ∧
       allOn.pendingWrite (.opt q0) = none) := by decide +kernel

/-! ## Cruiser -/

/-- An enabled Cruiser with a descriptor at 64 queued: mode and hops in `ctl`, one seed, fan-out 1, plot at `plot`; its stand
file, which is whole or not, at 4096. -/
def cruising (ctl plot : Nat) (whole : Bool) : State :=
  let s := unitsOn.writeBytes 64 (leBytes 4 ctl ++ leBytes 4 0 ++ leBytes 4 1 ++ leBytes 4 1 ++ List.replicate 16 0 ++ leBytes 8 plot)
  let s := s.writeBytes 4096 (leBytes 4 0x444E5453 ++ [1, 0] ++ leBytes 2 256)
  let s := if whole then s.writeBytes (4096 + 0xF8) (leBytes 4 (crc32c (s.readBytes 4096 0xF8))) else s
  (s.setReg (.cru c0) (CRU_STAND_LO 0) 4097).setCruiser c0 { s.cruiser c0 with queue := [64] }

/-- What the checks of a descriptor come to: bad address, bad descriptor, refused stand, bad for its stand. -/
def cruChecks (s : State) : Bool × Bool × Bool × Bool :=
  let r := (s.setCruiser c0 { s.cruiser c0 with queue := [] }).clusterRead c0 64 64
  let d := r.cruDesc 64
  let x := r.standAddr c0 d.standSlot
  (decide (d.plot % 64 ≠ 0 ∨ 2 ^ 48 ≤ d.plot) || !rangeBacked d.plot 64, r.cruBadDesc c0 d, r.standRefused x, cruBadStand d (r.stand x))

set_option maxRecDepth 100000 in
theorem test_cruiser_descriptors_queued :
    ((cruising 0 0x8000 true).cruiser c0).queue = [64] ∧ ((cruising 0 0x8000 true).cruiser c0).plot = none ∧
    (cruChecks (cruising 0 0x8020 true)).1 = true ∧ cruChecks (cruising 5 0x8000 true) = (false, true, false, false) ∧
    cruChecks (cruising 0 0x8000 false) = (false, false, true, false) ∧
    cruChecks (cruising 2 0x8000 true) = (false, false, false, true) ∧
    cruChecks (cruising 0 0x8000 true) = (false, false, false, false) := by decide +kernel

/-- An act with fetches left, and a plot that waits for one answer. -/
def act (n : Nat) : CruAct := ⟨none, [0], 5, 0, 0, n⟩
def fetching (n : Nat) : State := unitsOn.setCruiser c0 { unitsOn.cruiser c0 with running := [act n] }
/-- A line of memory that was lost dirty in another cluster's cache. -/
def lose (s : State) (n : Nat) : State := s.setCluster ⟨7, 79⟩ { s.cluster ⟨7, 79⟩ with poisoned := [n] }
def ask1 : CruReq := ⟨0x102, [⟨5, 0, [0]⟩]⟩
def plotting : State :=
  unitsOn.setCruiser c0 { unitsOn.cruiser c0 with
    plot := some ⟨⟨64, 0, false, false, 1, 0, 0, 1, 1, 7, 0, 0, 0, 0x8000, 0⟩, 3, 4096, [1], 1, [[⟨5, 0, 0, 0, true⟩]], [], [ask1], 0, 0, 0, 0⟩ }
def reqBody : List Byte := cruHeader 1 0 0 0 7 3 1 1 1 false ++ leBytes 8 5 ++ leBytes 8 0
def replyBody : List Byte := cruHeader 2 0 0 0 7 3 1 1 1 false ++ recordBytes ⟨5, 0, [⟨9, 0, 0, 0, true⟩]⟩
/-- A message at the front of the cluster's inbox. -/
def withMsg (s : State) (m : InMsg) : State := s.setMailroom c0 ⟨[], [m]⟩

theorem test_cruiser_batches :
    (((fetching 2).cruiser c0).running[(0 : Fin 256).val]? = some (act 2) ∧ (fetching 2).lostIn ((fetching 2).actReads c0 (act 2)) = false ∧
      1 < (act 2).left ∧ ((fetching 1).cruiser c0).running[(0 : Fin 256).val]? = some (act 1) ∧ (act 1).left ≤ 1) ∧
    (let s := withMsg unitsOn ⟨0, 0x102, 9, 7, reqBody⟩
     (s.mailroom c0).inbox = [⟨0, 0x102, 9, 7, reqBody⟩] ∧ fieldAt reqBody 0 1 ≠ 2 ∧ 9 ≠ s.field (.cru c0) CRU_JOB 0 12) ∧
    (let s := withMsg unitsOn ⟨0, 0x102, 0, 7, reqBody⟩
     0 = s.field (.cru c0) CRU_JOB 0 12 ∧ s.enabled (.cru c0) = true ∧ requestMalformed reqBody = false) ∧
    (let m : InMsg := ⟨0, 0x102, 0, 7, replyBody⟩
     let s := withMsg plotting m
     fieldAt replyBody 0 1 = 2 ∧ 0 = s.field (.cru c0) CRU_JOB 0 12 ∧
       (((s.setMailroom c0 ⟨[], []⟩).replyMatch c0 m).map (·.2)) = some ask1 ∧ replyMalformed replyBody ask1 = false) := by
  decide +kernel

/-- The plot's act on row 0 of a stand at 4096 of one row, whose offsets lie at 0x20000. -/
def standing : State :=
  let s := (plotting.writeBytes (4096 + 0x10) (leBytes 8 1)).writeBytes (4096 + 0x20) (leBytes 8 0x20000)
  s.setCruiser c0 { s.cruiser c0 with running := [act 1] }
set_option maxRecDepth 100000 in
theorem test_meets_CruiserCommandsRunTheirWork_errors :
    (let s := cruising 0 0x8000 true
     (s.unitRead (.cru c0) c0 (s.cruReads c0) .ok).2 = false ∧
       (s.unitRead (.cru c0) c0 (s.cruReads c0) (.line 0 .dramUncorrectable)).2 = true) ∧
    (standing.lostIn (standing.actReads c0 (act 1)) = false ∧ lineAt (standing.actReads c0 (act 1)) 0 = some 0x20000 ∧
      (memCtl 0x20000).isSome = true ∧ (standing.cluster c0).hasLine 0x20000 = false ∧
      (standing.cruiser c0).running[(0 : Fin 256).val]? = some (act 1)) ∧
    (let s := lose standing 0x800
     s.lostIn (s.actReads c0 (act 1)) = true ∧ (s.cruiser c0).running[(0 : Fin 256).val]? = some (act 1)) := by decide +kernel

/-- Batches of a reserved kind, to a disabled unit, out of form, and a reply that nothing waits for. -/
theorem test_meets_CruiserCommandsRunTheirWork_batches :
    (let b := cruHeader 3 0 0 0 7 3 1 1 1 false
     fieldAt b 0 1 ≠ 2 ∧ fieldAt b 0 1 ≠ 1) ∧
    (on.enabled (.cru c0) = false ∧ fieldAt reqBody 0 1 = 1 ∧ requestMalformed (reqBody.take 40) = true ∧ fieldAt (reqBody.take 40) 0 1 = 1) ∧
    ((withMsg unitsOn ⟨0, 0x102, 0, 7, replyBody⟩).replyMatch c0 ⟨0, 0x102, 0, 7, replyBody⟩ = none ∧ fieldAt replyBody 0 1 = 2 ∧
      replyMalformed (replyBody.take 60) ask1 = true) := by decide +kernel

set_option maxRecDepth 100000 in
theorem test_meets_CruiserCommandsRunTheirWork :
    (∀ x ∈ [cruising 0 0x8020 true, cruising 5 0x8000 true, cruising 0 0x8000 false, cruising 2 0x8000 true, cruising 0 0x8000 true],
      (x.cruiser c0).queue = 64 :: [] ∧ (x.cruiser c0).plot = none) ∧ cruChecks (cruising 0 0x8000 true) = (false, false, false, false) := by decide +kernel

/-- A keystream whose next words are known. -/
def stream0 : Keystream := ⟨[], 0, false, 0, 0, [0x80000000, 0, 0x80000000, 0, 0x80000000, 0, 0x80000000, 0]⟩
def okPicks (r : Picks) : Bool :=
  match r with
  | .ok _ => true
  | _ => false
theorem test_meets_SamplingFillsTheFanOut :
    okPicks (selectAct modeRepl false (fun _ => 0) 5 2 stream0) = true ∧ okPicks (selectAct modeUniform false (fun _ => 0) 3 3 stream0) = true ∧
    okPicks (selectAct modeUniform false (fun _ => 0) 0 2 stream0) = true := by decide +kernel
theorem test_meets_UniformSamplingRepeatsNoEntry :
    okPicks (selectAct modeUniform false (fun _ => 0) 4 2 stream0) = true ∧ 2 < 4 := by decide +kernel

/-! ## Skidder -/

/-- Two entries with one key, one with another, a null and an invalid one. -/
def entry5 (i : Nat) : Entry :=
  match i with
  | 0 | 3 => .key 7 true 0 0xFFE 7
  | 1 => .null
  | 2 => .bad .beyond
  | _ => .key 8 false 1 1 8
theorem test_meets_HaulNumberingGivesEachKeyOneGroup :
    (Numbering.addAll 3 entry5 [0, 1, 2, 3, 4] ⟨[], [], [], 0, 0⟩).2 = false ∧
    (Numbering.addAll 3 entry5 [0, 1, 2, 3, 4] ⟨[], [], [], 0, 0⟩).1.map = [1, 0, 0, 1, 2] ∧
    (Numbering.addAll 2 entry5 [0, 1, 2, 3, 4] ⟨[], [], [], 0, 0⟩).2 = true := by decide +kernel

def hauling : State := unitsOn.setSkidder c0 { unitsOn.skidder c0 with queue := [64] }
def read0 (f : Nat) : RowRead := ⟨.served 0 0, unitsOn.table 0, 0, 0, 0, f, [4096]⟩
/-- A page access in flight, a read of frame `f`, the count in frame 2. -/
def reading (f : Nat) : State :=
  (unitsOn.setSkidder c0 { unitsOn.skidder c0 with running := [4096], reads := [read0 f] }).setReg .ftb FTB_FRAME 2
def trail0 (run : Option Nat) (done : Bool) : Trail := ⟨0, 0x8000, 7, 0, 0, 1, 0, 0, 1, run, 5, done, false⟩
/-- A trail that waits since clock 5. -/
def trailing (clk : Nat) : State :=
  { unitsOn.setSillage c0 { unitsOn.sillage c0 with trails := [trail0 none false], nextId := 1 } with clock := clk }
def ask0 : SkdAsk := ⟨0, 1, 0, 1, 5, 0x102, 1, none⟩
def haulReqBody : List Byte := haulHeader 1 1 7 1 ++ sectionHeader (0, 1, 1) ++ askBytes ask0
def haulReplyBody : List Byte := haulHeader 2 1 7 1 ++ sectionHeader (0, 1, 1) ++ leBytes 8 (5 + 2 ^ 40) ++ leBytes 8 0
def sent0 : SkdSent := ⟨0x102, 7, false, [ask0]⟩
def awaiting : State := unitsOn.setSkidder c0 { unitsOn.skidder c0 with sent := [sent0] }

theorem test_meets_SkidderCommandsRunTheirWork :
    ((hauling.skidder c0).queue = [64] ∧ hauling.skdFree c0 = true ∧
      (let d := (hauling.clusterRead c0 64 64).skdDesc 64
       d.report % 64 = 0 ∧ d.report < 2 ^ 48 ∧ rangeBacked d.report (64 + 4 * d.count) = true)) ∧
    (((reading 0).skidder c0).running[(0 : Fin 1024).val]? = some 4096 ∧ (reading 0).lostIn (((reading 0).skidder c0).pageReads 4096) = false) ∧
    (((reading 0).skidder c0).reads[0]? = some (read0 0) ∧ (reading 0).stale (read0 0) = true ∧
      ((reading 1).skidder c0).reads[0]? = some (read0 1) ∧ (reading 1).stale (read0 1) = false) ∧
    (let n := unitsOn.field (.sil c0) SIL_WAIT 0 20 * 1000
     ((trailing (6 + n)).sillage c0).trails.find? (·.waiting) = some (trail0 none false) ∧ 5 + n < (trailing (6 + n)).clock ∧
       ((trailing (5 + n)).sillage c0).trails.find? (·.waiting) = some (trail0 none false) ∧ (trailing (5 + n)).clock ≤ 5 + n) ∧
    (let m : InMsg := ⟨1, 0x102, 9, 7, haulReqBody⟩
     (withMsg unitsOn m).mailroom c0 = ⟨[], [m]⟩ ∧ fieldAt haulReqBody 0 1 = 1 ∧ 9 ≠ (withMsg unitsOn m).field (.skd c0) SKD_JOB 0 12 ∧
       0 = unitsOn.field (.skd c0) SKD_JOB 0 12 ∧ unitsOn.enabled (.skd c0) = true ∧ (requestForm haulReqBody).isSome = true) ∧
    (let m : InMsg := ⟨1, 0x102, 0, 7, haulReplyBody⟩
     fieldAt haulReplyBody 0 1 = 2 ∧ ((withMsg awaiting m).setMailroom c0 ⟨[], []⟩).sentFor c0 m false = some sent0 ∧
       (replyForm haulReplyBody sent0).isSome = true) := by decide +kernel

/-- A read of one line at 4096. -/
def paging : State :=
  let r := { read0 2 with table := { unitsOn.table 0 with rowUnits := 1, slots := ⟨0, 4096, 0, 64, []⟩ } }
  unitsOn.setSkidder c0 { unitsOn.skidder c0 with running := [4096], reads := [r] }
set_option maxRecDepth 100000 in
theorem test_meets_SkidderCommandsRunTheirWork_errors :
    ((hauling.unitRead (.skd c0) c0 (hauling.skdReads c0) .ok).2 = false ∧
      (hauling.unitRead (.skd c0) c0 (hauling.skdReads c0) (.line 0 .dramUncorrectable)).2 = true) ∧
    ((paging.skidder c0).running[(0 : Fin 1024).val]? = some 4096 ∧ paging.lostIn ((paging.skidder c0).pageReads 4096) = false ∧
      lineAt ((paging.skidder c0).pageReads 4096) 0 = some 4096 ∧ (memCtl 4096).isSome = true ∧ (paging.cluster c0).hasLine 4096 = false) ∧
    (lose paging 64).lostIn (((lose paging 64).skidder c0).pageReads 4096) = true := by decide +kernel

def prefetchReplyBody : List Byte := haulHeader 4 1 7 1 ++ sectionHeader (0, 1, 1) ++ leBytes 8 (5 + 2 ^ 40) ++ leBytes 8 0
def prefetching : State :=
  ((unitsOn.setJob 0 { unitsOn.job 0 with job := 0, running := true, step := 7 }).setSkidder c0
    { unitsOn.skidder c0 with sent := [{ sent0 with prefetch := true }] }).setReg (.skd c0) SKD_RRC_LO 1
/-- Hauls of a reserved kind, to a disabled unit, out of form, for another job; and late answers to a prefetch. -/
theorem test_meets_SkidderCommandsRunTheirWork_hauls :
    (let b := haulHeader 5 1 7 1
     fieldAt b 0 1 ≠ 1 ∧ fieldAt b 0 1 ≠ 2 ∧ fieldAt b 0 1 ≠ 3 ∧ fieldAt b 0 1 ≠ 4) ∧
    (on.enabled (.skd c0) = false ∧ requestForm (haulReqBody.take 60) = none) ∧
    (let m : InMsg := ⟨1, 0x102, 0, 7, haulReplyBody⟩
     ((withMsg unitsOn m).setMailroom c0 ⟨[], []⟩).sentFor c0 m false = none ∧ replyForm (haulReplyBody.take 60) sent0 = none) ∧
    (let m : InMsg := ⟨1, 0x102, 0, 7, prefetchReplyBody⟩
     let r := (withMsg prefetching m).setMailroom c0 ⟨[], []⟩
     fieldAt prefetchReplyBody 0 1 = 4 ∧ r.sentFor c0 m true = some { sent0 with prefetch := true } ∧
       (replyForm prefetchReplyBody { sent0 with prefetch := true }).isSome = true ∧ r.rrcOn c0 = true ∧
       r.haulWindowOpen c0.tile 0 (fieldAt prefetchReplyBody 4 4) = false) := by decide +kernel

/-! ## Sillage unit -/

/-- A retrace at 64 queued, of one FP32 element a row, reporting to 0x9000; a complete trail for it; an apply record. -/
def retracing (elements : Nat) : State :=
  let s := unitsOn.writeBytes 64 (List.replicate 8 0 ++ leBytes 4 7 ++ leBytes 4 0 ++ leBytes 8 0x8000 ++ leBytes 4 0 ++ leBytes 4 64 ++
    leBytes 4 elements ++ leBytes 4 0 ++ leBytes 8 0x9000)
  s.setSillage c0 { s.sillage c0 with queue := [64], trails := [trail0 (some 0) true], applies := [⟨0, 0, 1, 1, 0, 0⟩] }
def retraceAnswer (s : State) : Nat × Option Trail :=
  let r := (s.setSillage c0 { s.sillage c0 with queue := [] }).clusterRead c0 64 64
  r.retraceCheck c0 (r.retrace 64)
def batch0 : List Byte := batchBody 7 [⟨7, 0, 0, 1⟩] [⟨⟨7, 0, 0, 1⟩, 5, [-3], false, true⟩]
/-- The unit has closed step 7 and heard no other member, since there is none. -/
def closing : State := unitsOn.setSillage c0 { unitsOn.sillage c0 with finished := [7] }
/-- A park image of a complete trail, at 64, for adoption. -/
def parked : State :=
  let s := unitsOn.setSillage c0 { unitsOn.sillage c0 with trails := [trail0 (some 0) true] }
  ((unitsOn.setReg (.sil c0) SIL_SCR (16 * 2 ^ 13)).setReg (.sil c0) SIL_ADOPT_LO 64).writeBytes 64 (s.parkImage c0)

theorem test_meets_SillageCommandsRunTheirWork :
    (((retracing 1).sillage c0).queue = [64] ∧ retraceAnswer (retracing 1) = (0, some (trail0 (some 0) true)) ∧
      (let d := ((retracing 1).clusterRead c0 64 64).retrace 64
       d.result % 64 = 0 ∧ d.result < 2 ^ 48 ∧ rangeBacked d.result 64 = true) ∧
      ((retracing 0).sillage c0).queue = [64] ∧ retraceAnswer (retracing 0) = (1, none)) ∧
    (let m : InMsg := ⟨2, 0x102, 9, 7, batch0⟩
     ((withMsg unitsOn m).mailroom c0).inbox = [m] ∧ 9 ≠ (withMsg unitsOn m).field (.sil c0) SIL_JOB 0 12 ∧
       0 = unitsOn.field (.sil c0) SIL_JOB 0 12 ∧ unitsOn.enabled (.sil c0) = true ∧ (batchForm batch0).isSome = true) ∧
    (((unitsOn.jobUnits 0).any fun c => !unitsOn.unitClosed c 7) = true ∧ closing.jobUnits 0 ≠ [] ∧
      ∀ c ∈ closing.jobUnits 0, closing.unitClosed c 7 = true) ∧
    (unitsOn.powered (.sil c0) = true ∧ unitsOn.jobUnits (unitsOn.field (.sil c0) SIL_JOB 0 12) = [c0]) ∧
    (((retracing 1).sillage c0).trails.all (·.complete) = true ∧
      (((retracing 1).skidder c0).hauls.all fun h => !h.desc.trail) = true ∧
      rangeBacked (queueAddr ((retracing 1).reg (.sil c0) SIL_PARK_LO) 0) ((retracing 1).parkImage c0).length = true) ∧
    (let a := queueAddr (parked.reg (.sil c0) SIL_ADOPT_LO) (0 : W32).toNat
     parked.powered (.sil c0) = true ∧ parked.enabled (.sil c0) = true ∧ parked.lostIn (parked.adoptReads c0 (0 : W32).toNat) = false ∧ parked.rd a 4 = 0x4B524150 ∧ parked.rd (a + 4) 1 = 1 ∧ parked.rd (a + 6) 2 = parked.field (.sil c0) SIL_JOB 0 12 ∧
       64 ≤ parked.rd (a + 8) 4 ∧
       parked.rd (a + 0x3C) 4 = crc32c (parked.readBytes a 0x3C ++ List.replicate 4 0 ++ parked.readBytes (a + 64) (parked.rd (a + 8) 4 - 64)) ∧
       (State.adoptTrails c0 a (upFrom 0 (parked.rd (a + 5) 1)) (parked.readRanges c0 (parked.adoptReads c0 (0 : W32).toNat))).isSome = true) := by decide +kernel

/-- A ring of one entry in scratch; a trail that is open; step 7 of the one unit, in whose table of slot 0 a contribution was
refused. -/
def openTrail : State := unitsOn.setSillage c0 { unitsOn.sillage c0 with trails := [trail0 none false] }
def refused7 : State :=
  closing.setSillage c0 { closing.sillage c0 with acc := [⟨0, 7, 0, 1, [], true⟩] }
set_option maxRecDepth 100000 in
theorem test_meets_SillageCommandsRunTheirWork_errors :
    (let s := retracing 1
     (s.unitRead (.sil c0) c0 (s.retraceReads c0) .ok).2 = false ∧
       (s.unitRead (.sil c0) c0 (s.retraceReads c0) (.line 0 .dramUncorrectable)).2 = true ∧
       (s.unitRead (.sil c0) c0 (s.parkReads c0) .ok).2 = false ∧
       ((lose s 0).unitRead (.sil c0) c0 ((lose s 0).parkReads c0) .ok).2 = true) ∧
    (openTrail.powered (.sil c0) = true ∧ openTrail.mayPark c0 = false) ∧ on.enabled (.sil c0) = false ∧
    (0 ∈ refused7.unapplied [c0] 7 ∧ 1 ∉ refused7.unapplied [c0] 7) := by decide +kernel

theorem test_SkdIdle_units : unitsOn.SkdIdle c0 := by
  constructor <;> decide +kernel

/-- A contribution of step 7 to row 0, whose home is cluster 0 of tile 0; a unit that has step 6 open. -/
def add0 (v : Int) : SilAdd := ⟨⟨7, 0, 0, 1⟩, 0, [v], false, false⟩
def early : State := (retracing 1).setSillage c0 { (retracing 1).sillage c0 with finished := [6] }
def handed6 : State := (retracing 1).setSillage c0 { (retracing 1).sillage c0 with handed := some 6 }
theorem test_meets_ReturnSumsDoNotDependOnOrder :
    ((add0 3).sect = (add0 (-3)).sect ∧ (add0 3).row = (add0 (-3)).row ∧ (add0 3).vals ≠ [] ∧ (add0 (-3)).vals ≠ [] ∧
      handed6.stepReady (homeCluster (add0 3).row) (add0 3).sect.slot (add0 3).sect.step = true) ∧
    (early.stepReady (homeCluster 0) 0 7 = false ∧ early.enabled (.sil (homeCluster 0)) = true ∧
      ((early.sillage (homeCluster 0)).applyOf 0).isSome = true) := by decide +kernel
theorem test_meets_ReductionSumsDoNotDependOnOrder : LndAcc.none_.totals.length ≤ 0 := by decide

/-! ## The time base -/

/-- Port 0 runs a data mode on one fed wavelength, its partner locked and its last time word sent at beat 4; the count is at beat 10,000. -/
def linked : State :=
  { ((on.setReg (.opt q0) BLK_CTRL 1).setReg (.opt q0) OPT_STATE (stUp + 2 ^ 24)).setOpt q0 { on.opt q0 with wordsSent := [256], partnerLocked := true } with
    beat := 10000 }
/-- The time base enabled as a follower of port 0, or as a master, with a lock state. -/
def timed (ctrl lock : Nat) : State :=
  (((linked.setReg .ftb BLK_CTRL 1).setReg .ftb FTB_PARENTS 0x3F3F3F00).setReg .ftb FTB_CTRL ctrl).setReg .ftb FTB_STATUS lock
/-- A write of the high half of the count that has yet to take effect. -/
def presetting (lock : Nat) : State := (timed 0 lock).setPending .ftb (some (FTB_BEAT_HI, 0xFFFFFFFF))
def word0 (damaged : Bool) : TimeWord := ⟨639000, 500, 0, true, damaged⟩

theorem test_meets_TimeWordsCorrectTheBeatAndDriveTheLock :
    (linked.hasTimeWords q0 = true ∧ linked.feed q0 ≠ 0 ∧ (∀ x l, (linked.opt q0).wordsSent = x :: l → x / 64 + 4096 ≤ linked.beat)) ∧
    ((word0 true).damaged = true ∧ (word0 false).damaged = false ∧ (timed 1 2).isMaster = true ∧ linked.enabled .ftb = false) ∧
    ((timed 0 0).hasTimeWords q0 = true ∧ (timed 0 0).isMaster = false ∧ (timed 0 0).enabled .ftb = true ∧
      ((timed 0 0).opt q0).wordsSent.find? (fun (x : Nat) => decide (0 ≤ ((640000 : Int) - 639000) + ((500 : Int) - x))) = some 256 ∧
      (timed 0 0).anyRunning = false ∧ (timed 0 0).lock = lockFree ∧
      ((timed 0 0).setOpt q0 { (timed 0 0).opt q0 with wordRx := (timed 0 0).beat * 64 + 0, partnerLocked := true }).parent = some q0) ∧
    (let s := { timed 0 lockLocked with clock := 16384 }
     s.isMaster = false ∧ s.enabled .ftb = true ∧ s.lock = lockLocked ∧ s.time.lastHeard + 16384 ≤ s.clock) ∧
    (let s := { timed 0 lockHoldover with clock := 1000000 }
     s.lock = lockHoldover ∧ s.time.limitMet = false ∧ s.time.holdSince + 1000000 ≤ s.clock) ∧
    ((timed 0 0).powered .ftb = true ∧ (timed 0 0).pendingWrite .ftb = none ∧ (presetting 0).pendingWrite .ftb ≠ none) ∧
    (blkOfAddr (BitVec.ofNat 32 (Blk.ftb.base + FTB_BEAT_HI)).toNat = some (.ftb, FTB_BEAT_HI) ∧ (presetting 0).lock = lockFree ∧
      (presetting lockLocked).lock ≠ lockFree ∧
      (presetting lockLocked).pendingWrite .ftb = some (FTB_BEAT_HI, (BitVec.allOnes 32 : W32).toNat)) :=
  ⟨⟨by decide +kernel, by decide +kernel, fun x l h => by
      have e : (linked.opt q0).wordsSent = [256] := by decide +kernel
      have b : linked.beat = 10000 := rfl
      rw [e] at h; cases h; rw [b]; decide⟩, by decide +kernel⟩

/-- Frames of 8 KiB-beats that began at beat 8,192, with a beat and a token seen. -/
def framed (beat : Nat) : State :=
  { (timed 1 lockLocked).setReg .ftb FTB_FRAME_LEN 8 with
    beat := beat, time := { on.time with begun := true, frameStart := 8192, seen := [⟨0, 3, 9⟩] } }
def token (x : BitVec 8) : TokenWord := ⟨0, 0, x, 9, false⟩

/-- The plan of a running job: a SEND, an EXPECT, a window and a REDUCE of tile 0 whose beats have come. -/
def entry0 (kind : Nat) : PlanEntry :=
  { frameOfs := 0, deadlineOfs := 0, beat := 0, kind := kind, xfer := 5, peer := 0, src := 0x10000, dst := 0x20000, length := 64,
    sync := 47 * 2 ^ 14, param := 2 ^ 14 }
def plan0 : Plan := ⟨7, 8, 1, 0, 0, [[entry0 0, entry0 1, entry0 2, entry0 3]], []⟩
def mark0 (i : Nat) : Mark := ⟨0, i, 0⟩
/-- Slot 15 runs job 7 under the plan; object 47 of core 0 holds `n`; tile 0 and its reduction block are enabled. -/
def planned (n : Nat) : State :=
  ((((framed 9000).setReg (.til 0) BLK_CTRL 1).setReg (.lnd 0) BLK_CTRL 1).setReg (.cor k0) (SYN_OBJ 47) n).setJob 15
    { JobSlot.empty with job := 7, running := true, plan := some plan0, owed := [mark0 0, mark0 1, mark0 2, mark0 3], watch := [mark0 1] }

theorem test_meets_FramesSlipsAndTheCheckBeat :
    ((framed 16384).enabled .ftb = true ∧ (framed 16384).time.begun = true ∧ (framed 16384).frameEnd ≤ (framed 16384).beat) ∧
    ((framed 16383).beat < (framed 16383).frameEnd ∧ (framed 16383).lko.forcing = none ∧ (framed 16383).foe.waiting = []) ∧
    (let s := { framed 16384 with time := on.time }
     s.enabled .ftb = true ∧ s.time.begun = false ∧ s.lko.forcing = none ∧ s.foe.waiting = [] ∧ 8 ≤ s.field .ftb FTB_FRAME_LEN 0 13 ∧
       s.pair .ftb FTB_ORIGIN_LO FTB_ORIGIN_HI ≤ s.beat) ∧
    (let s := framed 16383
     let r := { s with time := { s.time with checked := true } }
     s.time.checked = false ∧ s.frameEnd ≤ s.beat + s.horizon ∧ (∀ j ∈ jobSlots, r.missed j = none)) ∧
    (let s := planned 1
     jobSlots.findSome? (fun j => { s with time := { s.time with checked := true } }.missed j) = some (entry0 1) ∧
       s.time.checked = false ∧ 16384 ≤ 9000 + 7384) ∧
    (let s := framed 16383
     s.inDataMode q0 = true ∧ s.isService q0 = false ∧ (token 3).gen.toNat = s.sliceGen ∧
       (s.time.seen.any fun a => a.frame == (token 3).frame.toNat && a.n == (token 3).x.toNat) = true ∧
       (s.time.seen.any fun a => a.frame == (token 255).frame.toNat && a.n == (token 255).x.toNat) = false ∧
       (token 255).frame.toNat = s.frame ∧ s.reg .ftb FTB_CUR_EXT ≤ (token 255).x.toNat ∧ s.beat < s.frameEnd ∧ s.anyRunning = false) ∧
    ((framed 16384).inDataMode q0 = true ∧ (token 255).frame.toNat = (framed 16384).frame ∧
      ((framed 16384).time.seen.any fun a => a.frame == (token 255).frame.toNat && a.n == (token 255).x.toNat) = false ∧
      (framed 16384).reg .ftb FTB_CUR_EXT ≤ (token 255).x.toNat) ∧
    (let s := { on with beat := 65536 }
     s.enabled .ftb = false ∧ s.beat % 65536 = 0) := by decide +kernel

/-- With no later SEND before it, a read without an error and one with one. -/
theorem test_meets_PlanEntriesTakeEffectAtTheirBeat_reads :
    let z := ((planned 1).takeWait (syncTarget (entry0 0).sync).1 (syncTarget (entry0 0).sync).2 1).markDone 15 (mark0 0)
    (z.slotRead (.til 0) 15 [((entry0 0).src, (entry0 0).length)] .ok).2 = false ∧
      (z.slotRead (.til 0) 15 [((entry0 0).src, (entry0 0).length)] (.line 0 .dramUncorrectable)).2 = true := by decide +kernel

def rx0 : RxXfer := RxXfer.fresh 7 0 640 0 5 typPut 64 0
/-- No earlier SEND of a tile is ready before entry 0. -/
theorem none_before (s : State) : ∀ n < 0, ∀ m' e', s.dueEntry 15 0 n 0 = some (m', e') → s.entryReady e' = false :=
  fun _ h => absurd h (Nat.not_lt_zero _)
theorem test_meets_PlanEntriesTakeEffectAtTheirBeat :
    ((planned 1).dueEntry 15 0 0 0 = some (mark0 0, entry0 0) ∧ (planned 1).enabled (.til 0) = true ∧ (planned 1).entryReady (entry0 0) = true ∧
      (planned 0).dueEntry 15 0 0 0 = some (mark0 0, entry0 0) ∧ (planned 0).entryReady (entry0 0) = false) ∧
    ((planned 0).dueEntry 15 0 1 1 = some (mark0 1, entry0 1) ∧ (planned 0).rxOf 0 ⟨7, 0, 640, 0, 5⟩ = none ∧
      (let s := (planned 0).setFabric 0 { (planned 0).fabric 0 with rx := [rx0] }
       s.dueEntry 15 0 1 1 = some (mark0 1, entry0 1) ∧ s.enabled (.til 0) = true ∧ s.rxOf 0 ⟨7, 0, 640, 0, 5⟩ = some rx0 ∧ mark0 1 ∉ (s.job 15).done) ∧
      (let s := (planned 0).markComplete 15 (mark0 1)
       s.dueEntry 15 0 1 1 = some (mark0 1, entry0 1) ∧ mark0 1 ∈ (s.job 15).done ∧ ∀ n ∈ (s.job 15).waiting, n ∉ (s.job 15).done)) ∧
    (planned 0).dueEntry 15 0 2 2 = some (mark0 2, entry0 2) := by decide +kernel

/-! ## The fabric -/

/-- A one-unit PUT packet of job 7, for coordinate 0 or another, and the module on which it arrives: port 0 up, a route to
every coordinate used, by port 0. -/
def pkt (gen src dst hops : Nat) : Pkt :=
  { hver := 1, typ := typPut, job := 7, gen := gen, units := 1, resent := false, flow := 640, hoplimit := hops, expressed := false,
    src := src, dst := dst, seq := 0, xfer := 5, dtile := 0, dcluster := 0, dunit := 0, offset := 0, lenM1 := 255, step := 0,
    base := 0x20000, reserved := false, payload := List.replicate 256 1, trailer := 0 }
def routed : State := ((planned 1).setRouteWord 0 3 1).setRouteWord 0 7 1 |>.setRouteWord 0 4 1
/-- Its port 0 between two modes. -/
def retuning : State := routed.setReg (.opt q0) OPT_STATE (4 + 2 ^ 24)
theorem test_port_open : routed.portOpen 0 = true ∧ (portOfIdx 0).tile = 0 ∧ routed.gen 0 = 0 ∧ routed.coord 0 = 0 := by decide +kernel

set_option maxRecDepth 100000 in
theorem test_packet_bytes : Pkt.ofBytes (pkt 0 0 0 3).bytes = pkt 0 0 0 3 ∧ (pkt 0 0 0 3).bytes.length = 56 + 256 := by decide +kernel

/-- One arrival for each way through the checks: the header alone decides up to check 6. -/
theorem test_meets_PacketChecksDropInOrder :
    (routed.powered (.opt (portOfIdx 47)) = true ∧ routed.framesPackets 47 = false ∧ routed.framesPackets 0 = true ∧
      (retuning.framesPackets 0 = true ∧ retuning.portOpen 0 = false)) ∧
    (¬((false : Bool) = true ∧ (pkt 0 0 0 3).bytes.length = 56 + 256 * 1)) ∧ { pkt 0 0 0 3 with hver := 2 }.badHeader = true ∧
    ((pkt 5 0 0 3).gen ≠ routed.gen 0 ∧ newerGen (routed.gen 0) 5 = false ∧ newerGen (routed.gen 0) 0xFFFF = true) ∧
    (¬(routed.routeValid 0 9 = true ∧ sameGroup 9 (routed.coord 0) = true)) ∧
    ((pkt 0 0 1 3).dst ≠ routed.coord 0 ∧ sameGroup 1 (routed.coord 0) = true ∧ routed.routeValid 0 1 = true ∧
      routed.choose 0 (pkt 0 0 1 3) 0 ≠ none ∧ (pkt 0 0 1 3).hoplimit ≠ 0 ∧ (pkt 0 0 1 0).hoplimit = 0) ∧
    (routed.choose 0 (pkt 0 0 2 3) 0 = none ∧ (pkt 0 0 0 3).badHeader = false ∧ routed.routeValid 0 0 = true ∧
      (pkt 0 0 0 3).dst = routed.coord 0) ∧
    ({ routed with loopback := [pkt 0 0 0 3] }.loopback = [pkt 0 0 0 3] ∧ routed.enabled (.til (Fin.ofNat 8 0)) = true) ∧
    (routed.slotOfJob 9 = none ∧ routed.slotOfJob 7 = some 15 ∧ stepInWindow (routed.job 15).step 2 = none ∧
      stepInWindow (routed.job 15).step 0 = some 0 ∧ routed.rxOf 0 (pkt 0 0 0 3).key = none) ∧
    (4096 ≤ { pkt 0 0 0 3 with lenM1 := 8191, units := 16 }.lenM1 ∧ rangeBacked (0x20000 + 0) 256 = true ∧
      routed.portOpen 0 = true) := by decide +kernel

set_option maxRecDepth 100000 in
theorem test_sealed_packet : (pkt 0 0 0 3).sealed.trailer = (pkt 0 0 0 3).sealed.crc ∧ (pkt 0 0 0 3).trailer ≠ (pkt 0 0 0 3).crc := by
  decide +kernel

def ack (typ : Nat) : Pkt := { pkt 0 0 0 3 with typ := typ, units := 0, payload := [] }
/-- A transfer of one packet, sent and held, with whole resends `n` and its timer started at beat 0. -/
def tx0 (n : Nat) : TxXfer :=
  { job := 7, dst := 0, flow := 640, step := 0, xfer := 5, typ := typPut, dtile := 0, dcluster := 0, dunit := 0, base := 0x20000,
    src := 0x10000, body := [], len := 64, held := [pkt 0 0 0 3], ready := [], next := 1, whole := n, timer := some 0 }
def sending (x : TxXfer) (l : List Pkt) : State :=
  { routed.setFabric 0 { routed.fabric 0 with tx := [x], arrived := l, rx := [rx0, { rx0 with nacks := 15 }] } with beat := 20000000 }

theorem test_meets_LinksCreditsAndRecovery :
    (on.mainOn = true ∧ (on.portQ 47).lane 1 = [] ∧
      (let s := routed.setPortQ 0 ⟨[pkt 0 0 0 3], [], 0, 0⟩
       s.mainOn = true ∧ (s.portQ 0).lane 0 = pkt 0 0 0 3 :: [] ∧ s.portState 0 = 3)) ∧
    (let x := { tx0 0 with held := [], next := 0, timer := none }
     let s := sending { x with len := 1, next := 0 } []
     ((s.slotRead (.til 0) 15 { x with len := 1 }.nextReads .ok).2 = false ∧
       (s.slotRead (.til 0) 15 { x with len := 1 }.nextReads (.line 0 .dramUncorrectable)).2 = true ∧ s.slotOfJob x.job = some 15) ∧
     (sending x []).enabled (.til 0) = true ∧ findIdx? (fun (x : TxXfer) => x.waits) ((sending x []).fabric 0).tx 0 = some (0, x)) ∧
    (let s := sending (tx0 0) [ack typAck]
     (s.fabric 0).arrived = ack typAck :: [] ∧ (ack typAck).typ = typAck ∧ (s.fabric 0).tx.any (fun x => x.key == (ack typAck).key) = true ∧
       (routed.fabric 0).tx.any (fun x => x.key == (ack typAck).key) = false) ∧
    (let s := sending (tx0 0) [ack typNack]
     (s.fabric 0).arrived = ack typNack :: [] ∧ (ack typNack).typ = typNack ∧
       findIdx? (fun (x : TxXfer) => x.key == (ack typNack).key) (s.fabric 0).tx 0 = some (0, tx0 0) ∧ (tx0 0).held ≠ []) ∧
    (let s := sending (tx0 0) []
     (s.fabric 0).rx[0]? = some rx0 ∧ rx0.complete = false ∧ rx0.failed = false ∧ rx0.timer + s.field (.til 0) TIL_GAP 0 24 ≤ s.beat ∧
       rx0.nacks < s.retryLimit 0 ∧ (s.fabric 0).rx[1]? = some { rx0 with nacks := 15 } ∧ s.retryLimit 0 ≤ 15) ∧
    (let s := sending (tx0 0) []
     (s.fabric 0).tx[0]? = some (tx0 0) ∧ (tx0 0).timer = some 0 ∧ 0 + s.field (.til 0) TIL_ACK_TO 0 24 ≤ s.beat ∧
       (tx0 0).whole < s.retryLimit 0 ∧ s.retryLimit 0 ≤ (tx0 15).whole) := by decide +kernel

theorem test_meets_PacketBytesSpellThePacket :
    let p := { pkt 0xFFFF 0xFFFFFFFF 0 63 with typ := 15, job := 4095, flow := 1023, units := 31, trailer := 2 ^ 64 - 1, base := 2 ^ 48 - 1 }
    p.hver < 2 ^ 2 ∧ p.typ < 2 ^ 4 ∧ p.job < 2 ^ 12 ∧ p.gen < 2 ^ 16 ∧ p.units < 2 ^ 5 ∧ p.flow < 2 ^ 10 ∧ p.hoplimit < 2 ^ 6 ∧
      p.src < 2 ^ 32 ∧ p.dst < 2 ^ 32 ∧ p.seq < 2 ^ 24 ∧ p.xfer < 2 ^ 24 ∧ p.dtile < 2 ^ 3 ∧ p.dcluster < 2 ^ 7 ∧ p.dunit < 2 ^ 3 ∧
      p.offset < 2 ^ 24 ∧ p.lenM1 < 2 ^ 24 ∧ p.step < 2 ^ 16 ∧ p.base < 2 ^ 48 ∧ p.reserved = false ∧ p.trailer < 2 ^ 64 := by decide +kernel

/-- An open local stream 0 of the REDUCE entry; its source in HBM in form (exponent 4) or not; its packets. -/
def stream1 (e : Option Int) : LndStream :=
  { slot := 15, job := 7, step := 0, idx := 3, stream := 0, xfer := 5, elements := 64, fanin := 0, isRoot := false, isLocal := true,
    peer := 0, dst := 0x20000, exp := e, total := 1, done := (k0, 47), sources := [], whole := [], localIn := false, acc := [],
    written := 0, clippedBlocks := 0, nanBlocks := 0, maxExp := -128, complete := false }
def reducing (e : Option Int) (good : Bool) (l : List Pkt) : State :=
  let s := (planned 1).setLanding 0 { (planned 1).landing 0 with streams := [stream1 e] }
  let s := s.setFabric 0 { s.fabric 0 with arrived := l }
  s.writeBytes 0x10000 (if good then leBytes 1 4 ++ leBytes 1 1 ++ leBytes 2 0 ++ leBytes 4 64 ++ leBytes 4 256 else [])
/-- A packet whose header R322 allows, of 64 elements of value 2, for index `i` of `n` elements in all. -/
def goodPkt (exp n i : Nat) : Pkt :=
  { pkt 0 9 0 3 with
    typ := typReduce, flow := 648, xfer := 5, offset := 3072 * i, units := 2,
    payload := leBytes 1 0 ++ leBytes 1 1 ++ leBytes 1 1 ++ leBytes 1 0 ++ leBytes 1 exp ++ leBytes 1 3 ++ leBytes 2 1 ++ leBytes 4 n ++
      leBytes 4 i ++ List.replicate 240 0 ++ (List.replicate 64 (leBytes 4 2)).flatten }
/-- The stream with its local input to come and room for two sources, or with its one index complete. -/
def stream2 : LndStream := { stream1 (some 4) with fanin := 2 }
def full (root : Bool) (summed elements : Nat) : LndStream :=
  { stream1 (some 4) with
    isRoot := root, localIn := true, fanin := 1, elements := elements,
    acc := [(0, { LndAcc.none_ with totals := [2 ^ 40, -3], nonfinite := 0, clipped := 0, summed := summed, maxExp := 3, kids := 1 })] }
def withStream (x : LndStream) : State := (planned 1).setLanding 0 { (planned 1).landing 0 with streams := [x] }
/-- The packet of source 9 was taken before. -/
def takenBefore : State :=
  let s := withStream { stream2 with sources := [9] }
  s.setFabric 0 { s.fabric 0 with rx := [{ RxXfer.fresh 7 9 648 0 5 typReduce 256 0 with got := [0], seen := true }] }
def reducePkt (job step xfer : Nat) : Pkt := { pkt 0 0 0 3 with typ := typReduce, flow := 648, job := job, step := step, xfer := xfer }

theorem test_meets_ReductionInputsReachTheirStream :
    (let s := reducing (some 4) true []
     s.dueEntry 15 0 3 3 = some (mark0 3, entry0 3) ∧ s.stream? 0 15 0 0 = some (stream1 (some 4)) ∧ s.enabled (.lnd 0) = true ∧
       s.entryReady (entry0 3) = true ∧ s.badContrib 0x10000 64 = false ∧ sgn (s.rd 0x10000 1) 8 = 4) ∧
    ((reducing none false []).badContrib 0x10000 64 = true ∧ (reducing (some 5) true []).stream? 0 15 0 0 = some (stream1 (some 5))) ∧
    (let s := reducing none true [reducePkt 7 0 6]
     s.enabled (.til 0) = true ∧ (s.fabric 0).arrived = reducePkt 7 0 6 :: [] ∧ (reducePkt 7 0 6).typ = typReduce ∧
       s.slotOfJob 9 = none ∧ s.slotOfJob 7 = some 15 ∧ stepInWindow (s.job 15).step 2 = none ∧ stepInWindow (s.job 15).step 0 = some 0 ∧
       ∀ q ∈ (s.job 15).reduceEntries 0 0, bits q.2.param 0 8 ≠ fieldAt (reducePkt 7 0 6).payload 0 1 ∨ q.2.xfer ≠ 6) := by decide +kernel

set_option maxRecDepth 100000 in
theorem test_meets_ReductionInputsReachTheirStream_packets :
    (((withStream stream2).job 15).reduceEntries 0 0).find? (fun q => bits q.2.param 0 8 == 0 && q.2.xfer == 5) = some (3, entry0 3) ∧
    ((withStream stream2).enabled (.lnd 0) = true ∧ ((withStream stream2).job 15).running = true ∧
      ((withStream stream2).landing 0).streams.any (fun y => y.slot == 15 && y.stream == 0 && y.isOpen && later32 0 y.step) = false) ∧
    (badReduce (reducePkt 7 0 5) 64 = true ∧ badReduce (goodPkt 4 64 0) 64 = false ∧ fieldAt (goodPkt 4 64 0).payload 0 1 = 0) ∧
    ((withStream (stream1 (some 4))).stream? 0 15 0 0 = some (stream1 (some 4)) ∧ (stream1 (some 4)).fanin ≤ (stream1 (some 4)).sources.length) ∧
    ((withStream stream2).stream? 0 15 0 0 = some stream2 ∧ stream2.sources.length < stream2.fanin ∧
      sgn (fieldAt (goodPkt 5 64 0).payload 4 1) 8 = 5 ∧ sgn (fieldAt (goodPkt 4 64 0).payload 4 1) 8 = 4 ∧ stream2.exp = some 4 ∧
      ((withStream stream2).rxOf 0 (goodPkt 4 64 0).key) = none ∧ 256 + 4 * stream2.count 0 ≤ (goodPkt 4 64 0).payload.length) ∧
    ((goodPkt 4 64 0).src = 9 ∧
      (takenBefore.rxOf 0 (goodPkt 4 64 0).key).map (fun r => r.got.contains ((goodPkt 4 64 0).offset / 3072)) = some true) := by decide +kernel

theorem test_meets_ReductionInputsReachTheirStream_outputs :
    (∀ root : Bool, ∀ n ∈ [1, 2],
      let x := full root n 64
      (withStream x).stream? 0 15 0 0 = some x ∧ (x.accOf 0).formed = false ∧ x.localIn = true ∧ x.fanin ≤ (x.accOf 0).kids ∧
        (x.accOf 0).summed = n) ∧
    ((full true 1 64).total = 1 ∧ (full true 1 64).written + 1 = (full true 1 64).packets ∧
      rangeHbm (full true 1 64).resultAddr (64 + 3072 * 0 + 4 * 2) = true) ∧
    ((full true 1 1536).written + 1 ≠ (full true 1 1536).packets ∧
      rangeHbm ((full true 1 1536).resultAddr + 64 + 3072 * 0) (4 * 2) = true) := by decide +kernel

/-! ## Optical ports -/

/-- Port 0 in a state of the link, wavelength 7 alone fed, and with a record, at beat 200,000,000. -/
def port (st : Nat) (p : OptPort) : State :=
  { ((on.setReg (.opt q0) BLK_CTRL 1).setReg (.opt q0) OPT_STATE (st + 2 ^ 31)).setOpt q0 p with beat := 200000000 }
def p0 : OptPort := OptPort.reset
def hail0 (typ role : Nat) : Hail := ⟨typ, role, 3, 0x102, 0xFFFF, 255, 255, 1, 0, 4, 0, 0⟩
def inTrial (m : Nat) : OptPort := { p0 with trial := some m, accepted := true, partner := some (hail0 1 0) }
def committed (sent : Bool) : OptPort := { p0 with accepted := true, commit := some 3, commitSent := sent }

theorem test_meets_HailTrainsALink :
    ((port stHail p0).optState q0 = stHail ∧ (port stHail p0).inTrial q0 = false ∧ (port stHail p0).hailWl q0 = some 7 ∧ ((port stHail p0).setFeed q0 0).feed q0 = 0 ∧
      (port stHail p0).hailNow q0 = { (port stHail p0).hailNow q0 with feed := 128 } ∧ (port stTrial p0).optState q0 = stTrial ∧
      (port stHail { p0 with sentAt := some 199999745 }).beat < 199999745 + 256 ∧ 199999744 + 256 ≤ (port stHail p0).beat) ∧
    (((port stHail p0).opt q0).tuned = false ∧ ((port stHail p0).opt q0).scanAt + 100000 ≤ (port stHail p0).beat ∧
      ((port stHail p0).opt q0).hailAt + 10000000 ≤ (port stHail p0).beat) ∧
    (hailOf [] = none ∧ hailOf (hailBytes (hail0 1 0)) = some (hail0 1 0) ∧ ((port stHail p0).opt q0).accepted = false ∧
      (port stHail p0).partnerOk q0 (hail0 1 0) = true ∧ ((port stHail p0).opt q0).refusedSeq = none ∧
      hailOf (hailBytes (hail0 1 2)) = some (hail0 1 2) ∧ (port stHail p0).partnerOk q0 (hail0 1 2) = false) ∧
    (let h := { hail0 3 0 with mode := 3 }
     let s := port stTrial (committed true)
     s.optState q0 = stTrial ∧ s.inTrial q0 = false ∧ hailOf (hailBytes h) = some h ∧ (s.opt q0).accepted = true ∧
       (s.opt q0).commit = some h.mode ∧ (s.opt q0).commitSent = true ∧ (s.opt q0).switchAt = none) ∧
    (let s := (port stTrial (inTrial 0)).setLocked q0 255
     (s.opt q0).trial = some 0 ∧ s.optState q0 = stTrial ∧ (s.opt q0).trialAt + 100000 ≤ s.beat ∧ s.nextTrial q0 1 = some 1 ∧
       trialPasses 0 0 ⟨1088, 0, 0⟩ 10000 = true ∧ trialPasses 0 0 ⟨1089, 0, 0⟩ 10000 = false ∧ trialPasses 0 1 ⟨0, 0, 0⟩ 10000 = false ∧
       trialPasses 1 0 ⟨544, 0, 58026⟩ 5000 = true ∧ trialPasses 1 0 ⟨0, 0, 58027⟩ 5000 = false ∧ s.nextTrial q0 15 = some 15 ∧
       s.nextTrial q0 16 = none) ∧
    (let s := port stTrial { committed true with switchAt := some 200000000 }
     let r := port stTrial { committed true with switchAt := some 200000001 }
     s.optState q0 = stTrial ∧ (s.opt q0).switchAt = some 200000000 ∧ (s.opt q0).commit = some 3 ∧ 200000000 ≤ s.beat ∧
       (r.opt q0).switchAt = some 200000001 ∧ r.beat < 200000001) ∧
    ((port stFailed p0).optState q0 = stFailed ∧ (port stFailed p0).beat < ((port stFailed { p0 with failedAt := 100000001 }).opt q0).failedAt + 100000000 ∧
      ((port stFailed { p0 with failedAt := 100000000 }).opt q0).failedAt + 100000000 ≤ (port stFailed p0).beat) := by decide +kernel

theorem test_meets_HailTrainsALink_margin :
    (let h := { hail0 2 0 with margin := 12 }
     let s := port stTrial { inTrial 0 with trial := none, tried := true, marginSent := true, margin := 6 }
     let r := port stTrial { inTrial 0 with trial := none, tried := true, marginSent := true, margin := 3 }
     let u := port stTrial { inTrial 0 with trial := none, tried := false }
     s.optState q0 = stTrial ∧ s.inTrial q0 = false ∧ hailOf (hailBytes h) = some h ∧ h.typ = 2 ∧ (s.opt q0).accepted = true ∧
       (s.opt q0).commit = none ∧ (s.opt q0).tried = true ∧ (s.opt q0).marginSent = true ∧ bit (Nat.land 6 12) 2 = true ∧
       (∀ j < 2, bit (Nat.land 6 12) j = false) ∧ (r.opt q0).tried = true ∧ (r.opt q0).marginSent = true ∧ r.inTrial q0 = false ∧
       Nat.land (r.opt q0).margin h.margin = 0 ∧ r.isService q0 = false ∧ (u.opt q0).tried = false ∧ u.inTrial q0 = false) := by decide +kernel

/-- Port 0 up in mode 1 on wavelengths 0 to 3 of eight, all locked and fed; agreed on every mode. -/
def lit (p : OptPort) : State :=
  (port 0 { p with partner := some (hail0 1 0) }).setReg (.opt q0) OPT_STATE (3 + 1 * 8 + 255 * 2 ^ 8 + 15 * 2 ^ 16 + 255 * 2 ^ 24)
    |>.setReg (.opt q0) OPT_MARGIN 0xFFFF |>.setReg (.opt q0) OPT_CTRL (0xFFFF + 2 ^ 17)
def dark (a : Nat) : OptPort := { p0 with noLight := [(7, a)], darkAt := some a }
def asked (up waiting : Bool) (mode : Option Nat) : OptPort := { p0 with exchange := some ⟨up, waiting, 0, 0, mode, 0, 255, 0x7F⟩ }
def capWord : CapWord := ⟨0, 0, 3, 0, 15, 0, 1, false⟩

theorem test_meets_LightLockAndCapacityInService :
    (36 ≤ sgn (36 : Byte).toNat 8 ∧ sgn (35 : Byte).toNat 8 < 36 ∧ sgn (255 : Byte).toNat 8 < 36 ∧ bit ((lit p0).feed q0) 3 = true) ∧
    ((lit p0).optState q0 ≠ stOff ∧ bit ((lit p0).rxLocked q0) 7 = true ∧ (∀ k < 4, (lit p0).canLose q0 k = true) ∧ bit (0x80 : Byte).toNat 7 = true ∧ ((lit p0).opt q0).dark1 7 = false) ∧
    (((lit (dark 199000000)).opt q0).noLight.find? (fun x => x.1 == 7) = some (7, 199000000) ∧ (lit (dark 0)).beat ≤ 199000000 + 1000000 ∧
      ((lit (dark 198999999)).opt q0).noLight.find? (fun x => x.1 == 7) = some (7, 198999999) ∧ 198999999 + 1000000 < (lit (dark 0)).beat) ∧
    (((lit (dark 199000000)).opt q0).darkAt = some 199000000 ∧
      (∀ k < 8, bit ((lit (dark 199000000)).inUse q0) k = true → ((lit (dark 199000000)).opt q0).dark1 k = true → bit (0x80 : Byte).toNat k = true)) ∧
    ((lit p0).mayLose q0 = true ∧ bit ((lit p0).inUse q0) 3 = true ∧ bit ((lit p0).rxLocked q0) 3 = true ∧ bit ((lit p0).feed q0) 3 = true ∧
      bit ((lit p0).inUse q0) 7 = false ∧ (lit p0).optState q0 = stUp) := by decide +kernel

theorem test_meets_LightLockAndCapacityInService_reports :
    ((lit (asked false true none)).inDataMode q0 = true ∧ ((lit (asked false true none)).opt q0).darkAt = none ∧
      ((lit (asked false true none)).opt q0).exchange = some ⟨false, true, 0, 0, none, 0, 255, 0x7F⟩ ∧ (lit p0).inDataMode q0 = true ∧
      ((lit p0).opt q0).darkAt = none ∧ (lit p0).targetMode q0 false (Nat.land ((lit p0).rxLocked q0) 0x0F) = some 3 ∧
      (lit p0).targetMode q0 false (Nat.land ((lit p0).rxLocked q0) 0) = none) ∧
    ((lit (asked false false (some 15))).inDataMode q0 = true ∧ ((lit (asked false false (some 15))).opt q0).exchange = some ⟨false, false, 0, 0, some 15, 0, 255, 0x7F⟩ ∧ (0x7F : Byte).toNat = 0x7F ∧ 0 + 4000 ≤ (lit p0).beat ∧
      0 + 256 ≤ (lit p0).beat ∧ 0 + 20000 ≤ (lit p0).beat) ∧
    ((lit p0).flag (.opt q0) OPT_CTRL 17 = true ∧ ((lit p0).opt q0).exchange = none ∧ (lit p0).targetMode q0 true ((lit p0).bothLocked q0) = some 0 ∧
      (lit p0).heldLong q0 0 = true ∧ (lit { p0 with heldAt := [(7, 190000001)] }).heldLong q0 0 = false ∧ (lit { p0 with ditherAt := some 199990001 }).beat < 199990001 + 10000) ∧
    ((lit p0).isService q0 = false ∧ capWord.damaged = false ∧ capWord.gen.toNat = (lit p0).sliceGen ∧
      ⟨0, 3, 0, 15, 0, 1⟩ ∉ (lit p0).time.capSeen ∧
      ⟨0, 3, 0, 15, 0, 1⟩ ∈ { lit p0 with time := { (lit p0).time with capSeen := [⟨0, 3, 0, 15, 0, 1⟩] } }.time.capSeen ∧
      (lit p0).inDataMode q0 = true ∧ ⟨0, 3, 0, 15, 0, 1⟩ ∉ (lit p0).time.capLogged ∧
      ⟨0, 3, 0, 15, 0, 1⟩ ∈ { lit p0 with time := { (lit p0).time with capLogged := [⟨0, 3, 0, 15, 0, 1⟩] } }.time.capLogged) := by decide +kernel

/-! ## Service ports and the host port -/

/-- Service port 5 up with rings of 16 descriptors in HBM; descriptor 0 of each names 60 bytes. -/
def served (tx rx : Nat) : State :=
  let b := Blk.opt q5
  let s := (((on.setReg b BLK_CTRL 1).setReg b OPT_STATE (stUp + 2 ^ 24)).setReg b OPT_CTRL (1 + 2 ^ 16)).setPortQ 5 ⟨[], [], 1, 0⟩
  let s := ((((s.setReg b OPT_SVC_CFG 0x44).setReg b OPT_SVC_TX_LO 0x1000).setReg b OPT_SVC_RX_LO 0x2000).setReg b OPT_SVC_TX_TAIL tx).setReg b OPT_SVC_RX_TAIL rx
  (s.writeBytes 0x1000 (leBytes 8 (0x3000 + 60 * 2 ^ 48))).writeBytes 0x2000 (leBytes 8 0x4000)
def frame0 : List Byte := List.replicate 6 0xFF ++ List.replicate 54 1
def pending0 (clk : Nat) : State :=
  { on with clock := clk, foe := { on.foe with waiting := [⟨.jobStop, box0, true, 0, 0, 0⟩] } }

theorem test_meets_ServicePortsAndTheHostPort :
    ((served 1 1).powered (.opt q5) = true ∧ (served 1 1).pendingWrite (.opt q5) = none ∧ (15 : W32).toNat < (served 1 1).ringSizeOf q5 0 ∧
      (served 1 1).ringSizeOf q5 0 ≤ (16 : W32).toNat % 2 ^ 16 ∧ (15 : W32).toNat < (served 1 1).ringSizeOf q5 4 ∧
      (served 1 1).ringSizeOf q5 4 ≤ (16 : W32).toNat % 2 ^ 16) ∧
    ((served 1 1).serviceUp q5 = true ∧ (served 0 0).field (.opt q5) OPT_SVC_TX_HEAD 0 15 = (served 0 0).field (.opt q5) OPT_SVC_TX_TAIL 0 15 ∧
      (served 1 1).field (.opt q5) OPT_SVC_TX_HEAD 0 15 ≠ (served 1 1).field (.opt q5) OPT_SVC_TX_TAIL 0 15 ∧
      (served 1 1).feed q5 ≠ 0 ∧ ((served 1 1).portQ (portIdx q5)).credit0 ≠ 0) ∧
    (60 ≤ frame0.length ∧ frame0.length ≤ 9212 ∧ beVal ((frame0.drop 12).take 2) ≠ 0x8808 ∧ (served 1 1).acceptsMac q5 frame0 = true ∧
      (served 1 1).acceptsMac q5 (List.replicate 60 2) = false ∧
      (served 1 1).field (.opt q5) OPT_SVC_RX_HEAD 0 15 ≠ (served 1 1).field (.opt q5) OPT_SVC_RX_TAIL 0 15 ∧
      (served 0 0).field (.opt q5) OPT_SVC_RX_HEAD 0 15 = (served 0 0).field (.opt q5) OPT_SVC_RX_TAIL 0 15 ∧ rangeDram 0x4000 60 = true) ∧
    on.mainOn = true ∧
    (let s := { on with foe := { on.foe with window := 8 } }
     let a := lpBase + 256 * 2 ^ 30 - 64
     s.bulkOk a 64 1 = true ∧ s.bulkOk a 64 0 = true ∧ (memCtl a).isSome = true ∧ s.lostIn [(a, 64)] = false ∧
       (lose s (a / 64)).bulkOk a 64 0 = true ∧ (lose s (a / 64)).lostIn [(a, 64)] = true ∧ 64 * 0 < 64 ∧ s.bulkOk 0 64 1 = false ∧ s.bulkOk 0 64 0 = false) ∧
    (let s := on.setBox 15 { on.box 15 with own := true }
     (s.box 15).own = true ∧ (s.box 15).warned = false ∧ (s.setBox 15 { s.box 15 with warned := true }).box 15 = { s.box 15 with warned := true }) ∧
    ((pending0 0).foe.waiting = [⟨.jobStop, box0, true, 0, 0, 0⟩] ∧ (pending0 (waitLimit box0)).clock ≤ 0 + waitLimit box0 ∧
      0 + waitLimit box0 < (pending0 (waitLimit box0 + 1)).clock) ∧
    ((on.box 0).own = false ∧ (0xFFFF : W16).toNat ∉ opcodes ∧ (on.box 0).replays 0xFFFF box0 = none) := by decide +kernel

/-! ## Mailbox commands -/

/-- A request of these bytes in mailbox 0, of version 1.2. -/
def rq (l : List Byte) : Handover := { box0 with length := BitVec.ofNat 32 l.length, payload := l }
/-- A module in a stage, agreed with the host on version 1.2. -/
def inStage (g : Stage) : State := { on with foe := { on.foe with stage := g, agreed := some 0x102 } }
def boxReady (s : State) (c : Cmd) (h : Handover) : Bool :=
  s.mainOn && !(s.box h.box.val).own && ((s.box h.box.val).replays c.opcode h).isNone && s.foe.waiting.isEmpty && s.lko.forcing.isNone &&
    (s.firstCheck c h).isNone

theorem boxReady_ready {s : State} {c : Cmd} {h : Handover} (e : boxReady s c h = true) : s.BoxReady c h := by
  simp only [boxReady, Bool.and_eq_true, Bool.not_eq_true', Option.isNone_iff_eq_none, List.isEmpty_iff] at e
  obtain ⟨⟨⟨⟨⟨a, b⟩, c⟩, d⟩, e⟩, f⟩ := e
  exact ⟨a, b, c, d, e, f⟩

def joined : State := inStage .joined
def fenced : State := { joined with foe := { joined.foe with fence := true } }
def late (n : Nat) : Handover := { rq [] with timeout := BitVec.ofNat 32 n }

theorem test_meets_MailboxCommandsAreCheckedThenRun :
    joined.BoxReady .identity (rq []) ∧ joined.BoxReady .sliceLeave (late 600000) ∧
    (joined.mainOn = true ∧ (joined.box 0).own = false ∧ (joined.box 0).replays (Cmd.opcode .recover) (rq []) = none ∧
      joined.foe.waiting = [] ∧ joined.lko.forcing = none ∧ joined.firstCheck .recover (rq []) = some .wrongState) ∧
    (4096 < ({ rq [] with length := 4097 }).length.toNat ∧ ({ rq [] with length := 4096 }).length.toNat ≤ 4096 ∧
      joined.foe.agreed ≠ some ({ rq [] with version := 0x101 } : Handover).version.toNat ∧ joined.foe.agreed = some (rq []).version.toNat ∧
      timeoutMax < (late 600001).timeout.toNat ∧ (late 600000).timeout.toNat ≤ timeoutMax ∧ (spareOf (late 600000)).isEmpty = true ∧ (spareOf { late 600000 with reserved := [(8, 0x100)] }).isEmpty = false ∧
      fenced.foe.fence = true ∧ Cmd.unfenced .recover = false ∧ Cmd.unfenced .identity = true ∧ joined.foe.fence = false ∧
      joined.legal .recover (reqBytes (rq [])) = false ∧ joined.legal .sliceLeave (reqBytes (rq [])) = true) ∧
    (let s := joined.setBox 0 { joined.box 0 with kept := some ⟨1, Cmd.opcode .recover, .wrongState⟩ }
     s.mainOn = true ∧ (s.box 0).own = false ∧ (s.box 0).replays (Cmd.opcode .recover) (rq []) = some .wrongState) ∧
    (let s := joined.setBox 15 { joined.box 15 with own := true }
     s.mainOn = true ∧ (s.box ({ rq [] with box := 15 } : Handover).box.val).own = true) ∧
    State.reset.mainOn = false := by
  refine ⟨boxReady_ready ?_, boxReady_ready ?_, ?_, ?_, ?_, ?_, rfl⟩ <;> decide +kernel

/-- `l` at the lowest address of the host window of tile 0. -/
def hostAt : Nat := lpBase + 248 * 2 ^ 30
def windowed (s : State) : State := { s with foe := { s.foe with window := 8 } }
def putHost (s : State) (l : List Byte) : State := (windowed s).writeBytes hostAt l
/-- A plan of no entries. -/
def emptyPlan (len : Nat) : List Byte :=
  let l := leBytes 4 0x4E414C50 ++ leBytes 4 1 ++ leBytes 4 len ++ leBytes 4 1 ++ List.replicate 108 0
  l ++ leBytes 4 (crc32c l)
def withPlan : State := putHost joined (emptyPlan (joined.field .ftb FTB_FRAME_LEN 0 13))
def slotPlan : Plan := ⟨0, 64, 1, 7, 0, [], []⟩
def running15 : State := withPlan.setJob 15 { withPlan.job 15 with running := true, plan := some slotPlan }
def imaged (lookout : Bool) (n : Nat) : State :=
  let s := inStage .rom
  { s with foe := { s.foe with image := some ⟨lookout, n, [], 0, 0⟩ } }
def chunk (o n : Nat) : Handover := rq (leBytes 4 o ++ leBytes 4 n ++ List.replicate n 7)
def planReq (target step a : Nat) : Handover := rq ([15, BitVec.ofNat 8 target, 0, 0] ++ leBytes 4 step ++ leBytes 8 a)
/-- A manifest of one program: 64 bytes for the last of core 0's scratch. -/
def programmed : State :=
  putHost joined (leBytes 4 (Blk.cor k0).base ++ leBytes 4 0 ++ leBytes 4 64 ++ leBytes 4 0 ++ leBytes 4 0 ++ leBytes 4 0 ++ leBytes 8 hostAt)
def listReq (n : Nat) : Handover := rq ([15, 0, 0, 0, 0, 0, 0, 0] ++ leBytes 8 hostAt ++ leBytes 4 n)
def listed : State := putHost joined (leBytes 4 ((Blk.cor k0).base + COR_PROG) ++ leBytes 4 1)
def lockedSlot : State :=
  ((joined.setReg .ftb FTB_STATUS lockLocked).setReg .ftb (FTB_PLAN_LO 15) 1).setJob 15 { joined.job 15 with plan := some slotPlan }
def stoppedSlot : State := joined.setJob 3 { joined.job 3 with stopped := some .command }

set_option maxRecDepth 100000 in
theorem test_meets_BootSliceAndJobCommandsComplete_boot :
    (joined.BoxReady .hello (rq [0, 0, 1, 9]) ∧ onlyNamed (reqBytes (rq [0, 0, 1, 9])) [(0, 4)] = true ∧
      joined.chooseVersion 0 0 1 9 = some (1, 2) ∧ joined.BoxReady .hello (rq [2, 0, 2, 0]) ∧ joined.chooseVersion 2 0 2 0 = none ∧
      onlyNamed (reqBytes (rq [2, 0, 2, 0])) [(0, 4)] = true) ∧
    joined.BoxReady .identity (rq []) ∧
    ((inStage .rom).BoxReady .fwBegin (rq (leBytes 4 16777216)) ∧ fieldAt (reqBytes (rq (leBytes 4 16777216))) 0 4 = 16777216 ∧
      onlyNamed (reqBytes (rq (leBytes 4 16777216))) [(0, 4)] = true ∧ (inStage .rom).foe.image = none ∧
      (imaged true 1).BoxReady .fwBegin (rq (leBytes 4 16777216)) ∧ (imaged true 1).foe.image = some ⟨true, 1, [], 0, 0⟩) ∧
    ((imaged false 4096).BoxReady .fwChunk (chunk 8 4088) ∧ onlyNamed (reqBytes (chunk 8 4088)) [(0, 8 + 4088)] = true ∧
      fieldAt (reqBytes (chunk 8 4088)) 4 4 = 4088 ∧ fieldAt (reqBytes (chunk 8 4088)) 0 4 = 8 ∧
      (imaged false 4096).foe.image = some ⟨false, 4096, [], 0, 0⟩ ∧ (imaged false 4096).BoxReady .fwChunk (chunk 4096 1) ∧
      onlyNamed (reqBytes (chunk 4096 1)) [(0, 8 + 1)] = true ∧ fieldAt (reqBytes (chunk 4096 1)) 0 4 = 4096) ∧
    ((inStage .rom).BoxReady (.fwCommit true) (rq []) ∧ onlyNamed (reqBytes (rq [])) [] = true) ∧
    ((inStage .loaded).BoxReady (.init ⟨BitVec.allOnes 24, BitVec.allOnes 32, 255⟩) (rq (leBytes 4 1)) ∧
      onlyNamed (reqBytes (rq (leBytes 4 1))) [(0, 4)] = true ∧ fieldAt (reqBytes (rq (leBytes 4 1))) 0 4 ≤ 1 ∧
      (memCtls ⟨BitVec.allOnes 24, BitVec.allOnes 32, 255⟩).all (·.2) = true ∧ ¬(memCtls ⟨0, BitVec.allOnes 32, 255⟩).all (·.2) = true) ∧
    ((inStage .loaded).BoxReady .hostWindow (rq [64]) ∧ onlyNamed (reqBytes (rq [64])) [(0, 1)] = true ∧
      fieldAt (reqBytes (rq [64])) 0 1 ∈ [8, 16, 32, 64]) := by
  refine ⟨⟨boxReady_ready ?_, ?_, ?_, boxReady_ready ?_, ?_⟩, boxReady_ready ?_, ⟨boxReady_ready ?_, ?_, ?_, ?_,
    boxReady_ready ?_, ?_⟩, ⟨boxReady_ready ?_, ?_, ?_, ?_, ?_, boxReady_ready ?_, ?_⟩, ⟨boxReady_ready ?_, ?_⟩,
    ⟨boxReady_ready ?_, ?_⟩, boxReady_ready ?_, ?_⟩ <;> decide +kernel

set_option maxRecDepth 100000 in
theorem test_meets_BootSliceAndJobCommandsComplete_slice :
    (let s := windowed (inStage .ready)
     s.BoxReady .sliceJoin (rq (leBytes 8 hostAt)) ∧ onlyNamed (reqBytes (rq (leBytes 8 hostAt))) [(0, 8)] = true ∧
       fieldAt (reqBytes (rq (leBytes 8 hostAt))) 0 8 = hostAt ∧ s.allowed hostAt sliceBytes 0 = true) ∧
    (joined.BoxReady .sliceLeave (rq []) ∧ onlyNamed (reqBytes (rq [])) [] = true) ∧
    (withPlan.BoxReady .planLoad (planReq 0 0 hostAt) ∧ onlyNamed (reqBytes (planReq 0 0 hostAt)) [(0, 2), (4, 12)] = true ∧
      fieldAt (reqBytes (planReq 0 0 hostAt)) 0 1 = 15 ∧ fieldAt (reqBytes (planReq 0 0 hostAt)) 1 1 = 0 ∧
      fieldAt (reqBytes (planReq 0 0 hostAt)) 8 8 = hostAt ∧ withPlan.planAllowed hostAt = true ∧ (withPlan.readPlan hostAt).isSome = true ∧
      (windowed joined).BoxReady .planLoad (planReq 0 0 hostAt) ∧ (windowed joined).planAllowed hostAt = true ∧
      (windowed joined).readPlan hostAt = none) ∧
    (running15.BoxReady .planLoad (planReq 1 1 hostAt) ∧ onlyNamed (reqBytes (planReq 1 1 hostAt)) [(0, 2), (4, 12)] = true ∧
      fieldAt (reqBytes (planReq 1 1 hostAt)) 1 1 = 1 ∧ fieldAt (reqBytes (planReq 1 1 hostAt)) 4 4 = 1 ∧
      running15.switchReached 15 1 = false ∧ (running15.readPlan hostAt).isSome = true ∧ running15.planAllowed hostAt = true) := by
  refine ⟨⟨boxReady_ready ?_, ?_⟩, ⟨boxReady_ready ?_, ?_⟩, ⟨boxReady_ready ?_, ?_, ?_, ?_, ?_, ?_, ?_,
    boxReady_ready ?_, ?_⟩, boxReady_ready ?_, ?_⟩ <;> decide +kernel

set_option maxRecDepth 100000 in
theorem test_meets_BootSliceAndJobCommandsComplete_jobs :
    (let p := reqBytes (listReq 1)
     programmed.BoxReady .programLoad (listReq 1) ∧ onlyNamed p [(0, 1), (8, 12)] = true ∧ fieldAt p 0 1 = 15 ∧ fieldAt p 8 8 = hostAt ∧
       fieldAt p 0x10 4 = 1 ∧ programmed.allowed hostAt (32 * 1) 0 = true ∧
       programmed.program? hostAt = some ⟨k0, 0, 64, 0, 0, hostAt⟩ ∧ programmed.clusterTaken 15 (clusterIdx k0.cluster) = false) ∧
    (listed.BoxReady .configApply (listReq 1) ∧ listed.allowed hostAt (8 * 1) 0 = true ∧ (listed.listEntry? hostAt).isSome = true ∧
      ((listed.atWork .configApply (listReq 1)).configBlocks (listReq 1)).all (fun g => g.1 = .cor k0) = true ∧
      ((listed.atWork .configApply (listReq 1)).configBlocks (listReq 1)).length = 1 ∧ listed.clusterTaken 15 0 = false) ∧
    (let h := rq [15, 0, 0xFF, 0x0F]
     let p := reqBytes h
     lockedSlot.BoxReady .jobStart h ∧ (lockedSlot.job 15).plan = some slotPlan ∧ onlyNamed p [(0, 1), (2, 2)] = true ∧ fieldAt p 0 1 = 15 ∧
       fieldAt p 2 2 = 2 ^ 12 - 1 ∧ lockedSlot.flag .ftb (FTB_PLAN_LO 15) 0 = true ∧ ∀ i ∈ jobSlots, i ≠ 15 → lockedSlot.slotLive i = false) ∧
    (running15.BoxReady .jobStop (rq [0, 0x80]) ∧ onlyNamed (reqBytes (rq [0, 0x80])) [(0, 2)] = true ∧
      running15.runningOf (fieldAt (reqBytes (rq [0, 0x80])) 0 2) = [15]) ∧
    (stoppedSlot.BoxReady .recover (rq []) ∧ onlyNamed (reqBytes (rq [])) [] = true) := by
  refine ⟨⟨boxReady_ready ?_, ?_⟩, ⟨boxReady_ready ?_, ?_⟩, ⟨boxReady_ready ?_, ?_⟩, ⟨boxReady_ready ?_, ?_⟩,
    boxReady_ready ?_, ?_⟩ <;> decide +kernel

/-! ## Memory, debug and context commands -/

def mapReq (root : Nat) : Handover := rq ([15, 0, 0, 0, 0, 0, 0, 0] ++ leBytes 8 root ++ List.replicate 79 0 ++ [0x80])
def rootTop : Nat := lpEnd - 4096
def grantReq : Handover := rq (leBytes 8 0 ++ leBytes 8 (2 ^ 21) ++ [3])
def granted : State := joined.setGrant 31 (some ⟨0, 2 ^ 21, 3⟩)
def allGranted : State := grants32.foldl (fun s g => s.setGrant g (some ⟨0, 2 ^ 21, 3⟩)) joined
def fired : State := joined.setFlag .blz BLZ_STATE 0
def debugging (s : State) : State := { s with foe := { s.foe with debug := true } }
def withPolicy (b : Bool) : State := { joined with foe := { joined.foe with firmware := some ⟨1, 0, b, [], 0⟩ } }
/-- An image of layout version `v`: a header, a cluster record and a record of core 0, clean and with no lanes. -/
def ctxPre (v : Nat) : List Byte :=
  leBytes 4 0x49585443 ++ leBytes 1 1 ++ leBytes 1 v ++ leBytes 1 0x40 ++ leBytes 1 1 ++ leBytes 4 1 ++ leBytes 4 1 ++ leBytes 8 5120 ++
    List.replicate 36 0
def ctxClu : List Byte := leBytes 4 (Blk.clu c0).base ++ List.replicate 60 0
def ctxHead : List Byte := leBytes 4 (Blk.cor k0).base ++ leBytes 4 1 ++ List.replicate 8 0 ++ leBytes 4 0x1380
def ctxCore : List Byte := ctxHead ++ List.replicate 4972 0
def ctxPost : List Byte := ctxClu ++ ctxCore
/-- The CRC of an image, with its own field zero; its value is of no concern below. -/
def ctxCrc (v : Nat) : Nat := crc32c (ctxPre v ++ List.replicate 4 0 ++ ctxPost)
def ctxImage (v : Nat) : List Byte := ctxPre v ++ leBytes 4 (ctxCrc v) ++ ctxPost

theorem zeroAt_append (a b c : List Byte) : zeroAt (a ++ b ++ c) a.length b.length = a ++ List.replicate b.length 0 ++ c := by
  have h : (a ++ b ++ c).take a.length = a := by rw [List.append_assoc, List.take_left]
  have g : (a ++ b ++ c).drop (a.length + b.length) = c := by rw [← List.length_append, List.drop_left]
  rw [zeroAt, h, g]

theorem slice_append (a b c : List Byte) : slice (a ++ b ++ c) a.length b.length = b := by
  rw [slice, List.append_assoc, List.drop_left, List.take_left]
  simp

theorem crcField_sound (a c : List Byte) (l : List Byte) (n : Nat) (hn : a.length = n)
    (h : a ++ leBytes 4 (crc32c (a ++ List.replicate 4 0 ++ c)) ++ c = l) : (fieldAt l n 4 != crc32c (zeroAt l n 4)) = false := by
  subst hn h
  generalize hv : crc32c (a ++ List.replicate 4 0 ++ c) = v
  have e : v < 2 ^ 32 := hv ▸ crc32c_lt _
  have h2 : (leBytes 4 v).length = 4 := leBytes_length ..
  have h := zeroAt_append a (leBytes 4 v) c
  have g := slice_append a (leBytes 4 v) c
  rw [h2] at h g
  rw [fieldAt, g, h, leVal_leBytes, show 8 * 4 = 32 from rfl, Nat.mod_eq_of_lt e, hv]
  exact bne_self_eq_false _

theorem ctxImage_sound (v : Nat) : (fieldAt (ctxImage v) 0x3C 4 != crc32c (zeroAt (ctxImage v) 0x3C 4)) = false :=
  crcField_sound (ctxPre v) ctxPost (ctxImage v) 0x3C rfl rfl

theorem upFrom_append (a m n : Nat) : upFrom a (m + n) = upFrom a m ++ upFrom (a + m) n := by
  induction m generalizing a with
  | zero => simp [upFrom]
  | succ m ih => rw [Nat.succ_add, upFrom, upFrom, ih]; simp [Nat.add_assoc, Nat.add_comm 1]

theorem le_of_mem_upFrom {a n x : Nat} (h : x ∈ upFrom a n) : a ≤ x := by
  induction n generalizing a with
  | zero => simp [upFrom] at h
  | succ n ih =>
    rcases List.mem_cons.1 h with rfl | h
    · exact Nat.le_refl _
    · exact Nat.le_of_succ_le (ih h)

theorem leVal_zeros (n : Nat) : leVal (List.replicate n 0) = 0 := by
  induction n with
  | zero => rfl
  | succ n ih => rw [List.replicate_succ, leVal, ih]; rfl

theorem namedCores_first (b : Byte) :
    namedCores (b :: List.replicate 1279 0) =
      (upFrom 0 8).filter fun n => bit (fieldAt (b :: List.replicate 1279 0) (n / 8) 1) (n % 8) := by
  rw [namedCores, show (10240 : Nat) = 8 + 10232 from rfl, upFrom_append, List.filter_append]
  refine (congrArg _ (List.filter_eq_nil_iff.2 fun n hn => ?_)).trans (List.append_nil _)
  have := le_of_mem_upFrom hn
  obtain ⟨m, hm⟩ : ∃ m, n / 8 = m + 1 := ⟨n / 8 - 1, by omega⟩
  have h : fieldAt (b :: List.replicate 1279 0) (n / 8) 1 = 0 := by
    rw [hm, fieldAt, slice]
    simp only [List.drop_succ_cons, List.drop_replicate, List.take_replicate]
    rw [List.replicate_append_replicate, leVal_zeros]
  rw [h]; simp [bit]

/-- The request names core 0; the image is at the bottom of the host window. -/
def ctxReq : Handover := rq (List.replicate 8 0 ++ leBytes 8 hostAt ++ [1] ++ List.replicate 1279 0)
def ctxState (v : Nat) (s : State) : State := (windowed s).writeBytes hostAt (ctxImage v)

theorem leVal_append_zeros (l : List Byte) (n : Nat) : leVal (l ++ List.replicate n 0) = leVal l := by
  induction l with
  | nil => exact leVal_zeros n
  | cons a l ih => rw [List.cons_append, leVal, leVal, ih]

theorem slice_append_zeros (a : List Byte) (n o k : Nat) : slice (a ++ List.replicate n 0) o k = slice a o k := by
  simp only [slice, List.drop_append, List.take_append, List.drop_replicate, List.take_replicate, List.append_assoc,
    List.replicate_append_replicate, List.length_append, List.length_replicate]
  congr 2
  simp only [List.length_take, List.length_drop]
  omega

theorem fieldAt_append_zeros (a : List Byte) (n o k : Nat) : fieldAt (a ++ List.replicate n 0) o k = fieldAt a o k := by
  rw [fieldAt, slice_append_zeros, ← fieldAt]

theorem ctxCore_length : ctxCore.length = 4992 := by
  rw [ctxCore, List.length_append, List.length_replicate]; rfl

theorem ctxImage_length (v : Nat) : (ctxImage v).length = 5120 := by
  rw [ctxImage, List.length_append, List.length_append, leBytes_length, ctxPost, List.length_append, ctxCore_length]; rfl

theorem slice_prefix (a b : List Byte) {o k : Nat} (h : o + k ≤ a.length) : slice (a ++ b) o k = slice a o k := by
  have h1 : o - a.length = 0 := by omega
  have h2 : k - (a.drop o).length = 0 := by simp only [List.length_drop]; omega
  simp only [slice, List.drop_append, List.take_append, h1, h2, List.drop_zero, List.take_zero, List.append_nil]

theorem ctxImage_slice (v : Nat) {o k : Nat} (h : o + k ≤ 0x3C) : slice (ctxImage v) o k = slice (ctxPre v) o k := by
  rw [ctxImage, List.append_assoc]
  exact slice_prefix _ _ h

theorem ctxImage_field (v : Nat) {o k : Nat} (h : o + k ≤ 0x3C) : fieldAt (ctxImage v) o k = fieldAt (ctxPre v) o k := by
  rw [fieldAt, ctxImage_slice v h, ← fieldAt]

theorem ctxPre_fields : ∀ v ∈ [1, 2],
    fieldAt (ctxPre v) 0 4 = 0x49585443 ∧ fieldAt (ctxPre v) 4 1 = 1 ∧ fieldAt (ctxPre v) 5 1 = v ∧ fieldAt (ctxPre v) 6 1 = 0x40 ∧
      fieldAt (ctxPre v) 7 1 = 1 ∧ fieldAt (ctxPre v) 8 4 = 1 ∧ fieldAt (ctxPre v) 0xC 4 = 1 ∧ fieldAt (ctxPre v) 0x10 8 = 5120 ∧
      fieldAt (ctxPre v) 0x20 2 = 0 ∧ fieldAt (ctxPre v) 0x22 1 = 0 ∧ slice (ctxPre v) 0x23 25 = List.replicate 25 0 := by decide +kernel

theorem ctxImage_cores {v : Nat} (hv : v ∈ [1, 2]) : imageCores (ctxImage v) = [ctxCore] := by
  have h1 : fieldAt (ctxImage v) 8 4 = 1 := (ctxImage_field v (by decide)).trans (ctxPre_fields v hv).2.2.2.2.2.1
  have h2 : fieldAt (ctxImage v) 0xC 4 = 1 := (ctxImage_field v (by decide)).trans (ctxPre_fields v hv).2.2.2.2.2.2.1
  have h3 : (ctxImage v).drop 128 = ctxCore := by
    rw [ctxImage, ctxPost, ← List.append_assoc]
    exact List.drop_left (l₁ := ctxPre v ++ leBytes 4 (ctxCrc v) ++ ctxClu)
  have h4 : fieldAt ctxCore 0x10 4 = 4992 := by rw [ctxCore, fieldAt_append_zeros]; decide +kernel
  have h5 : ctxCore.take 4992 = ctxCore := List.take_of_length_le (Nat.le_of_eq ctxCore_length)
  rw [imageCores, h1, h2]
  show cutRecords 1 ((ctxImage v).drop 128) = _
  rw [h3, cutRecords, cutRecords, h4, h5]

theorem ctxCore_sound : recordMalformed 1 ctxCore = false := by
  unfold recordMalformed
  simp only [CtxRecord.core?, CtxRecord.f, CtxRecord.vl, CtxRecord.vfmt, ctxCore_length]
  simp only [ctxCore, fieldAt_append_zeros, slice_append_zeros]
  decide +kernel

theorem ctxImage_clusters {v : Nat} (hv : v ∈ [1, 2]) : imageClusters (ctxImage v) = [ctxClu] := by
  have h2 : fieldAt (ctxImage v) 0xC 4 = 1 := (ctxImage_field v (by decide)).trans (ctxPre_fields v hv).2.2.2.2.2.2.1
  have h : slice (ctxImage v) 64 64 = ctxClu := by
    rw [ctxImage, ctxPost, ← List.append_assoc]
    exact slice_append (ctxPre v ++ leBytes 4 (ctxCrc v)) ctxClu ctxCore
  rw [imageClusters, h2]
  show [slice (ctxImage v) 64 64] = _
  rw [h]

theorem ctxClu_sound : clusterMalformed ctxClu = false := by decide +kernel

theorem ctxImage_whole {v : Nat} (hv : v ∈ [1, 2]) : imageBroken (ctxImage v) = false := by
  obtain ⟨a, b, -, -, -, c, d, e, f, g, i⟩ := ctxPre_fields v hv
  have z : allZero (List.replicate 25 0) = true := rfl
  unfold imageBroken
  dsimp only
  rw [ctxImage_sound, ctxImage_cores hv, ctxImage_clusters hv, ctxImage_length, ctxImage_slice v (show 0x23 + 25 ≤ 0x3C by decide), i, z]
  simp only [ctxImage_field v (show 0 + 4 ≤ 0x3C by decide), ctxImage_field v (show 4 + 1 ≤ 0x3C by decide),
    ctxImage_field v (show 8 + 4 ≤ 0x3C by decide), ctxImage_field v (show 0xC + 4 ≤ 0x3C by decide),
    ctxImage_field v (show 0x10 + 8 ≤ 0x3C by decide), ctxImage_field v (show 0x20 + 2 ≤ 0x3C by decide),
    ctxImage_field v (show 0x22 + 1 ≤ 0x3C by decide), a, b, c, d, e, f, g, List.any_cons, List.any_nil, List.map, ctxCore_length,
    ctxCore_sound, ctxClu_sound]
  decide

theorem ctxState_bytes (v : Nat) (s : State) : (ctxState v s).readBytes hostAt 5120 = ctxImage v :=
  ctxImage_length v ▸ State.readBytes_writeBytes (windowed s) hostAt (ctxImage v)

theorem readBytes_part (s : State) (a n o k : Nat) (h : o + k ≤ n) : s.readBytes (a + o) k = slice (s.readBytes a n) o k := by
  have hl : ∀ a n, (s.readBytes a n).length = n := fun a n => sgetMany_length ..
  rw [slice]
  simp only [List.length_take, List.length_drop, hl, show k - min k (n - o) = 0 by omega, List.replicate_zero, List.append_nil]
  refine List.ext_getElem (by simp only [List.length_take, List.length_drop, hl]; omega) fun i h1 h2 => ?_
  rw [List.getElem_take, List.getElem_drop]
  exact (sgetMany_getElem _ _ _ _ i h1).trans ((congrArg _ (Nat.add_assoc ..)).trans (sgetMany_getElem _ _ a n (o + i) _).symm)

theorem ctxState_size (v : Nat) (hv : v ∈ [1, 2]) (s : State) : (ctxState v s).rd (hostAt + 0x10) 8 = 5120 := by
  have h : (ctxState v s).readBytes (hostAt + 0x10) 8 = slice ((ctxState v s).readBytes hostAt 5120) 0x10 8 := readBytes_part _ _ _ _ _ (by decide)
  rw [State.rd, h, ctxState_bytes]
  exact (ctxImage_field v (by decide)).trans (ctxPre_fields v hv).2.2.2.2.2.2.2.1

/-- Core 0 with its record. -/
def ctxPair : CoreId × Option CtxRecord := (k0, some ⟨ctxCore⟩)

set_option maxRecDepth 100000 in
theorem ctxReq_names : slice (reqBytes ctxReq) 0x10 1280 = 1 :: List.replicate 1279 0 := by decide +kernel

theorem ctxReq_cores : namedCores (slice (reqBytes ctxReq) 0x10 1280) = [0] := by
  rw [ctxReq_names, namedCores_first]; decide +kernel

theorem ctxCore_core : (CtxRecord.mk ctxCore).core? = some k0 := by
  rw [CtxRecord.core?, CtxRecord.f, ctxCore, fieldAt_append_zeros]; decide +kernel

theorem ctxPairs : pairRecords [ctxCore] [0] = [ctxPair] := by
  have h : (some k0 == some (coreOfIdx 0)) = true := by decide +kernel
  simp only [pairRecords, List.map, List.find?, ctxCore_core, h]
  rfl

theorem ctxRestore_restores (s : State) (h : s.enabled (.cor k0) = false ∧ s.enabled (.cru c0) = false) :
    s.restoreBad (ctxImage 1) [ctxPair] = false := by
  have e : bit ((CtxRecord.mk ctxCore).f 4 4) 0 = true := by rw [CtxRecord.f, ctxCore, fieldAt_append_zeros]; decide +kernel
  have g : s.cruiserOn ctxClu = false := h.2
  simp only [State.restoreBad, ctxPair, List.any_cons, List.any_nil, h.1, e, ctxImage_clusters (v := 1) (by decide), g]
  rfl

theorem ctxRestore_version (s : State) (h : s.field .glb GLB_ARCH 8 4 = 1) : s.versionBad (ctxImage 1) [⟨ctxCore⟩] = false := by
  have e : (CtxRecord.mk ctxCore).vl = 0 := by rw [CtxRecord.vl, CtxRecord.f, ctxCore, fieldAt_append_zeros]; decide +kernel
  have f := ctxPre_fields 1 (by decide)
  simp only [State.versionBad, ctxImage_field 1 (show 4 + 1 ≤ 0x3C by decide), ctxImage_field 1 (show 7 + 1 ≤ 0x3C by decide), f, h, e,
    List.any_cons, List.any_nil, Nat.not_lt_zero]
  rfl

def withCore (s : State) : State := s.setReg (.cor k0) BLK_CTRL 1
def zero8 : List Byte := List.replicate 8 0
def snapReq : Handover := rq (leBytes 2 2 ++ List.replicate 6 0 ++ leBytes 4 (Blk.cor k0).base ++ leBytes 4 Blk.glb.base)
def readsReq : Handover := rq (leBytes 4 2 ++ List.replicate 4 0 ++ leBytes 4 ((Blk.cor k0).base + VEC_REG_DATA) ++ leBytes 4 (Blk.glb.base + GLB_ARCH))
def writesReq : Handover := rq (leBytes 4 1 ++ List.replicate 4 0 ++ leBytes 4 ((Blk.lnd 7).base + LND_CFG) ++ leBytes 4 1)
def syncReq : Handover := rq (leBytes 4 (Blk.cor k0).base ++ [47, 0, 0xFF, 0xFF])
def saveReq : Handover := rq ([2] ++ List.replicate 7 0 ++ leBytes 8 hostAt ++ [1] ++ List.replicate 1279 0)
def savable : State := windowed (debugging (stoppedSlot.setJob 15 { stoppedSlot.job 15 with clusters := [0] }))

theorem test_meets_MemoryDebugAndContextCommandsComplete_memory :
    (joined.BoxReady .memMap (mapReq rootTop) ∧ running15.BoxReady .memMap (mapReq rootTop) ∧ (joined.job 15).running = false ∧
      (running15.job 15).running = true ∧
      (let p := reqBytes (mapReq rootTop)
       onlyNamed p [(0, 1), (8, 8), (0x10, 80)] = true ∧ fieldAt p 0 1 = 15 ∧ fieldAt p 8 8 = rootTop ∧ rootTop % 4096 = 0 ∧
         rangeDram rootTop 8 = true ∧ namedClusters (slice p 0x10 80) = [639] ∧ joined.clusterTaken 15 639 = false ∧
         running15.clusterTaken 15 639 = false)) ∧
    (joined.BoxReady .memGrant grantReq ∧ allGranted.BoxReady .memGrant grantReq ∧
      (let p := reqBytes grantReq
       onlyNamed p [(0, 17)] = true ∧ fieldAt p 0 8 % 2 ^ 21 = 0 ∧ fieldAt p 8 8 = 2 ^ 21 ∧ fieldAt p 0x10 1 = 3 ∧ rangeDram 0 (2 ^ 21) = true) ∧
      grants32.find? (fun g => (joined.grant g).isNone) = some 0 ∧ grants32.find? (fun g => (allGranted.grant g).isNone) = none) ∧
    (granted.BoxReady .memRevoke (rq [31]) ∧ onlyNamed (reqBytes (rq [31])) [(0, 1)] = true ∧ fieldAt (reqBytes (rq [31])) 0 1 = 31 ∧
      (granted.grant 31).isSome = true) := by
  refine ⟨⟨boxReady_ready ?_, boxReady_ready ?_, ?_⟩, ⟨boxReady_ready ?_, boxReady_ready ?_, ?_⟩, boxReady_ready ?_,
    ?_⟩ <;> decide +kernel

theorem test_meets_MemoryDebugAndContextCommandsComplete_blaze :
    (joined.BoxReady .snapTrigger (rq zero8) ∧ fired.BoxReady .snapTrigger (rq zero8) ∧ joined.BoxReady .snapTrigger (rq (leBytes 8 1024)) ∧
      onlyNamed (reqBytes (rq (leBytes 8 1024))) [(0, 8)] = true ∧ onlyNamed (reqBytes (rq zero8)) [(0, 8)] = true ∧
      fieldAt (reqBytes (rq zero8)) 0 8 = 0 ∧ fieldAt (reqBytes (rq (leBytes 8 1024))) 0 8 = 1024 ∧ joined.beat + 1024 ≤ 1024 ∧
      joined.blazeFired = false ∧ fired.blazeFired = true) ∧
    (joined.BoxReady .snapRead snapReq ∧ onlyNamed (reqBytes snapReq) [(0, 2), (8, 4 * 2)] = true ∧ fieldAt (reqBytes snapReq) 0 2 = 2 ∧
      ((upFrom 0 2).map fun i => fieldAt (reqBytes snapReq) (8 + 4 * i) 4).all isBase = true) ∧
    (joined.BoxReady .snapRearm (rq []) ∧ onlyNamed (reqBytes (rq [])) [] = true) ∧
    (joined.BoxReady .logRead (rq [0, 0, 0, 0, 127, 0]) ∧ onlyNamed (reqBytes (rq [0, 0, 0, 0, 127, 0])) [(0, 6)] = true ∧
      fieldAt (reqBytes (rq [0, 0, 0, 0, 127, 0])) 4 2 = 127) ∧
    (joined.BoxReady .eventRead (rq []) ∧ joined.standbyOn = true) := by
  refine ⟨⟨boxReady_ready ?_, boxReady_ready ?_, boxReady_ready ?_, ?_⟩, ⟨boxReady_ready ?_, ?_⟩, ⟨boxReady_ready ?_,
    ?_⟩, ⟨boxReady_ready ?_, ?_⟩, boxReady_ready ?_, ?_⟩ <;> decide +kernel

theorem test_meets_MemoryDebugAndContextCommandsComplete_debug :
    ((withPolicy true).BoxReady .debugMode (rq [1]) ∧ (withPolicy false).BoxReady .debugMode (rq [1]) ∧
      onlyNamed (reqBytes (rq [1])) [(0, 1)] = true ∧ fieldAt (reqBytes (rq [1])) 0 1 = 1 ∧ (withPolicy true).debugAllowed = true ∧
      (withPolicy false).debugAllowed = false) ∧
    ((debugging joined).BoxReady .regRead readsReq ∧
      (let p := reqBytes readsReq
       onlyNamed p [(0, 4), (8, 4 * 2)] = true ∧ fieldAt p 0 4 = 2 ∧ ∀ i ∈ upFrom 0 2, (namedBlk (fieldAt p (8 + 4 * i) 4)).isSome = true)) ∧
    ((debugging joined).BoxReady .regWrite writesReq ∧
      (let p := reqBytes writesReq
       onlyNamed p [(0, 4), (8, 8 * 1)] = true ∧ fieldAt p 0 4 = 1 ∧ (namedBlk (fieldAt p 8 4)).isSome = true) ∧
      (debugging joined).foe.debug = true) ∧
    (let s := withCore (debugging running15)
     s.BoxReady .syncSet syncReq ∧ blkOfAddr (fieldAt (reqBytes syncReq) 0 4) = some (.cor k0, 0) ∧
       onlyNamed (reqBytes syncReq) [(0, 5), (6, 2)] = true ∧ fieldAt (reqBytes syncReq) 4 1 = 47 ∧ s.foe.debug = true ∧ s.Quiet k0) ∧
    (joined.BoxReady .calStatus (rq (leBytes 8 (2 ^ 48 - 1))) ∧ onlyNamed (reqBytes (rq (leBytes 8 (2 ^ 48 - 1)))) [(0, 8)] = true ∧
      fieldAt (reqBytes (rq (leBytes 8 (2 ^ 48 - 1)))) 0 8 < 2 ^ 48) ∧
    (let s := { joined with foe := { joined.foe with idOk := true } }
     joined.BoxReady .attest (rq []) ∧ s.BoxReady .attest (rq []) ∧ onlyNamed (reqBytes (rq [])) [(0, 0x22)] = true ∧
       joined.foe.idOk = false ∧ (s.quote (slice (reqBytes (rq [])) 0 32) 0).isSome = true) := by
  refine ⟨⟨boxReady_ready ?_, boxReady_ready ?_, ?_⟩, ⟨boxReady_ready ?_, ?_⟩, ⟨boxReady_ready ?_, ?_⟩,
    ⟨boxReady_ready ?_, ?_, ?_, ?_, ?_, by constructor <;> decide +kernel⟩, ⟨boxReady_ready ?_, ?_⟩, boxReady_ready
    ?_, boxReady_ready ?_, ?_, ?_, rfl⟩ <;> decide +kernel

set_option maxRecDepth 100000 in
theorem saveReq_names : slice (reqBytes saveReq) 0x10 1280 = 1 :: List.replicate 1279 0 := by decide +kernel

theorem saveReq_cores : namedCores (slice (reqBytes saveReq) 0x10 1280) = [0] := by
  rw [saveReq_names, namedCores_first]; decide +kernel

theorem ctxRestore_enabled (s : State) (h : s.enabled (.cor k0) = true) : s.restoreBad (ctxImage 1) [ctxPair] = true := by
  simp only [State.restoreBad, ctxPair, List.any_cons, h, Bool.true_or]

theorem test_meets_MemoryDebugAndContextCommandsComplete_context :
    (savable.BoxReady .ctxSave saveReq ∧ savable.oneSlot (namedCores (slice (reqBytes saveReq) 0x10 1280)) = some 15 ∧
      savable.allowed hostAt (savable.imageBytes 2 (namedCores (slice (reqBytes saveReq) 0x10 1280))) 1 = true ∧
      onlyNamed (reqBytes saveReq) [(0, 1), (8, 8), (0x10, 1280)] = true ∧ fieldAt (reqBytes saveReq) 0 1 = 2 ∧
      fieldAt (reqBytes saveReq) 8 8 = hostAt ∧ savable.foe.debug = true) ∧
    (∀ v ∈ [1, 2], ∀ s ∈ [joined, withCore joined],
      (ctxState v s).BoxReady .ctxRestore ctxReq ∧ onlyNamed (reqBytes ctxReq) [(8, 8), (0x10, 1280)] = true ∧
      fieldAt (reqBytes ctxReq) 8 8 = hostAt ∧ (ctxState v s).allowed hostAt 64 0 = true ∧ (ctxState v s).rd (hostAt + 0x10) 8 = 5120 ∧
      (ctxState v s).allowed hostAt 5120 0 = true ∧ imageBroken ((ctxState v s).readBytes hostAt 5120) = false) ∧
    fieldAt (ctxImage 2) 5 1 ≠ 1 ∧ fieldAt (ctxImage 1) 5 1 = 1 ∧ fieldAt (ctxImage 1) 4 1 ≠ 2 ∧
    pairRecords (imageCores (ctxImage 1)) (namedCores (slice (reqBytes ctxReq) 0x10 1280)) = [ctxPair] ∧
    (ctxState 1 joined).versionBad (ctxImage 1) [⟨ctxCore⟩] = false ∧ (ctxState 1 (withCore joined)).versionBad (ctxImage 1) [⟨ctxCore⟩] = false ∧
    (ctxState 1 joined).restoreBad (ctxImage 1) [ctxPair] = false ∧ (ctxState 1 (withCore joined)).restoreBad (ctxImage 1) [ctxPair] = true := by
  refine ⟨⟨boxReady_ready (by decide +kernel), ?_, ?_, by decide +kernel⟩, ?_, ?_, ?_,
    ?_, ?_, ctxRestore_version _ (by decide +kernel), ctxRestore_version _ (by decide +kernel),
    ctxRestore_restores _ (by decide +kernel), ctxRestore_enabled _ (by decide +kernel)⟩
  · rw [saveReq_cores]; decide +kernel
  · rw [saveReq_cores]; decide +kernel
  · intro v hv s hs
    have h : boxReady (ctxState v s) .ctxRestore ctxReq = true ∧ onlyNamed (reqBytes ctxReq) [(8, 8), (0x10, 1280)] = true ∧
        fieldAt (reqBytes ctxReq) 8 8 = hostAt ∧ (ctxState v s).allowed hostAt 64 0 = true ∧ (ctxState v s).allowed hostAt 5120 0 = true := by
      revert v s; decide +kernel
    exact ⟨boxReady_ready h.1, h.2.1, h.2.2.1, h.2.2.2.1, ctxState_size v hv s, h.2.2.2.2, by rw [ctxState_bytes]; exact ctxImage_whole hv⟩
  · rw [ctxImage_field 2 (by decide), (ctxPre_fields 2 (by decide)).2.2.1]; decide
  · rw [ctxImage_field 1 (by decide), (ctxPre_fields 1 (by decide)).2.2.1]
  · rw [ctxImage_field 1 (by decide), (ctxPre_fields 1 (by decide)).2.1]; decide
  · rw [ctxImage_cores (by decide), ctxReq_cores, ctxPairs]

/-! ## Power and Lookout -/

def inputs (volt : Nat) : SupplyInputs := ⟨100, false, volt, 160, 80, 40, 15⟩
def standby : State := { State.reset with standbyOn := true, foe := { State.reset.foe with romDone := true } }
def sensors (flow : W16) : Sensors := ⟨Vector.replicate 8 tile0, 20, 25, 20, 25, flow, 100, 4800, 1200, 100, 5⟩
/-- Tile 7's junction at its trip value. -/
def hot : State := on.setReg .pwr (GLB_TEMP_TILE 7) (on.field .pwr GLB_TRIP 0 8)
/-- The last LPDDR5X controller enabled, with its scrub. -/
def scrubbing : State := (on.setReg (.lpc 7 3) BLK_CTRL 1).setReg (.lpc 7 3) HBC_CFG 1
def idleImage (clk : Nat) : State := { imaged false 1 with clock := clk }

theorem test_meets_PowerResetsTripsAndSensors :
    (State.reset.standbyOn = false ∧ State.reset.chooseProv.1 = none) ∧
    (standby.standbyOn = true ∧ standby.foe.romDone = true ∧ standby.mainOn = false ∧ standby.foe.heldOff = false ∧
      inputsOk (inputs 4399) = false ∧ inputsOk (inputs 4400) = true ∧ inputsOk (inputs 5800) = true ∧ inputsOk (inputs 5801) = false ∧
      { inputs 4400 with held := 99 }.held < 100 ∧ { inputs 4400 with lost := true }.lost = true) ∧
    (let low (us : Nat) : SupplyWatch := ⟨4199, us, 1080, 0⟩
     let high (us : Nat) : SupplyWatch := ⟨6001, us, 1320, 0⟩
     (low 1000).main < 4200 ∧ 1000 ≤ (low 1000).mainFor ∧ ¬1000 ≤ (low 999).mainFor ∧ 6000 < (high 100).main ∧
       100 ≤ (high 100).mainFor ∧ ¬100 ≤ (high 99).mainFor ∧ ¬((low 0).standby < 1080 ∨ 1320 < (high 0).standby) ∧
       ({ low 1000 with standby := 1079, standbyFor := 1000 } : SupplyWatch).standby < 1080) ∧
    (standby.setReg .pwr (GLB_TEMP_TILE 7) (standby.field .pwr GLB_TRIP 0 8)).tripDue = true ∧
    (coolantBad (sensors 127) = true ∧ standby.pwr.warn = false ∧ standby.standbyOn = true) ∧
    (on.mainOn = true ∧ on.standbyOn = true ∧ on.tripDue = false ∧ hot.mainOn = true ∧ hot.tripDue = true) ∧
    (standby.mainOn = false ∧ coolantBad (sensors 127) = true ∧ coolantBad (sensors 128) = false ∧ on.pwr.warn = false ∧
      on.clockStep < (on.stepRequest (sensors 127)).1 ∧
      (let s := { on.setField .pwr GLB_PWR_STATE 1 2 3 with clock := 100 * beatsPerMs, pwr := { on.pwr with coolSince := some 0 } }
       (s.stepRequest (sensors 160)).1 < s.clockStep)) ∧
    (scrubbing.enabled (ctlBlk (.lp 7 3)) = true ∧ scrubbing.flag (ctlBlk (.lp 7 3)) HBC_CFG 0 = true ∧
      memCtl (BitVec.ofNat 48 (lpEnd - 1)).toNat = some (ctlBlk (.lp 7 3))) ∧
    ((idleImage 0).foe.image = some ⟨false, 1, [], 0, 0⟩ ∧ (idleImage 9999999999).clock < 0 + 10000000000 ∧
      0 + 10000000000 ≤ (idleImage 10000000000).clock) := by decide +kernel

/-- The link up; requests arrive with the nonce 16 × 0, and no operator key is bound. -/
def lko (s : State) : State := { s.setReg .lko LKO_STATE 1 with lko := { s.lko with nonce := List.replicate 16 0 } }
def ask (l : List Byte) : LkoMsg := { req with payload := l }
def lkoReady (s : State) (op : Nat) (m : LkoMsg) (trusted : Bool) : Bool :=
  s.lkoUp && (s.lkoHears m && isRequest m) && m.version == 1 && s.lko.kept.isNone &&
    (!trusted || !s.flag .rng RNG_STATE 1 && s.lko.forcing.isNone && s.authentic op m)

theorem lkoReady_ready {s : State} {op : Nat} {m : LkoMsg} {b : Bool} (e : lkoReady s op m b = true) : s.LkoReady op m := by
  simp only [lkoReady, Bool.and_eq_true, Option.isNone_iff_eq_none, beq_iff_eq] at e
  exact ⟨e.1.1.1.1, by simp only [e.1.1.1.2, Bool.and_self], e.1.1.2, fun k h => by rw [e.1.2] at h; cases h⟩

theorem lkoReady_trusted {s : State} {op : Nat} {m : LkoMsg} (e : lkoReady s op m true = true) : s.LkoTrusted op m := by
  simp only [lkoReady, Bool.and_eq_true, Bool.not_true, Bool.false_or, Bool.not_eq_true', Option.isNone_iff_eq_none] at e
  exact ⟨e.2.1.1, e.2.1.2, e.2.2⟩

def lkoOn : State := lko joined
def lkoOff : State := lko { standby with foe := { standby.foe with heldOff := true } }
def lkoRom : State := lko (inStage .rom)
def lkoImage (b : Bool) : State := lko (imaged b 1016)
def lkoRuns : State := lko running15
def snapAsk : LkoMsg := ask (leBytes 2 4 ++ List.replicate 6 0 ++ (List.replicate 4 (leBytes 4 Blk.pwr.base)).flatten)
def readAsk (a : Nat) : LkoMsg := ask (leBytes 4 1 ++ List.replicate 4 0 ++ leBytes 4 a)
def lkoChunk : LkoMsg := ask (leBytes 4 0 ++ leBytes 4 1016 ++ List.replicate 1016 7)

theorem test_meets_LookoutRequestsAreAnswered_reads :
    (lkoOn.LkoReady 0x0001 (ask []) ∧ lkoOn.LkoReady 0x0002 (ask []) ∧ noPayload (ask []) = true) ∧
    (lkoOn.LkoReady 0x0010 (ask [0, 0, 0, 0, 31]) ∧ onlyNamed (lkoReq (ask [0, 0, 0, 0, 31])) [(0, 6)] = true ∧
      fieldAt (lkoReq (ask [0, 0, 0, 0, 31])) 4 2 = 31) ∧
    (lkoOff.LkoReady 0x0011 snapAsk ∧ lkoOff.mainOn = false ∧ lkoOn.LkoReady 0x0011 snapAsk ∧ lkoOn.mainOn = true ∧
      fieldAt (lkoReq snapAsk) 0 2 = 4 ∧ onlyNamed (lkoReq snapAsk) [(0, 2), (8, 4 * 4)] = true ∧
      ((upFrom 0 4).map fun i => fieldAt (lkoReq snapAsk) (8 + 4 * i) 4).all isBase = true) ∧
    (lkoOff.LkoReady 0x0012 (readAsk Blk.pwr.base) ∧ namesMain (lkoReq (readAsk Blk.pwr.base)) = false ∧
      fieldAt (lkoReq (readAsk Blk.pwr.base)) 0 4 = 1 ∧ onlyNamed (lkoReq (readAsk Blk.pwr.base)) [(0, 4), (8, 4 * 1)] = true ∧
      (namedBlk (fieldAt (lkoReq (readAsk Blk.pwr.base)) 8 4)).any (fun p => !isDbg p) = true) ∧
    (lkoOn.LkoReady 0x0013 (ask []) ∧ onlyNamed (lkoReq (ask [])) [(0, 0x22)] = true ∧ lkoOn.foe.idOk = false ∧
      ({ lkoOn with foe := { lkoOn.foe with idOk := true } }.quote (slice (lkoReq (ask [])) 0 32) 0).isSome = true) ∧
    (lkoOn.LkoReady (0xFFFF : W16).toNat (ask []) ∧ (0xFFFF : W16).toNat ∉ lkoOpcodes) ∧
    (let m : LkoMsg := { ask [] with version := 2 }
     lkoOn.lkoUp = true ∧ lkoOn.lkoHears m = true ∧ isRequest m = true ∧ m.version ≠ 1 ∧ (ask []).version = 1 ∧
      (lkoOn.lkoHears { m with hopLimit := 254 } = false ∧ isRequest { m with kind := 2 } = false) ∧
      (let k : LkoKept := ⟨(ask []).src.toNat, 2, 3, 1, .ok, 0, []⟩
       let s := { lkoOn with lko := { lkoOn.lko with kept := some k } }
       s.lkoUp = true ∧ s.lkoHears (ask []) = true ∧ isRequest (ask []) = true ∧ s.lko.kept = some k ∧ k.isFor 0x0001 (ask []) = true)) ∧
    ((BitVec.ofNat 128 lkoOn.lkoAddress).toNat = lkoOn.lkoAddress ∧ (0 : BitVec 128).toNat ≠ lkoOn.lkoAddress) ∧
    State.standbyOn lkoOff = true := by
  refine ⟨⟨lkoReady_ready (b := false) ?_, lkoReady_ready (b := false) ?_, ?_⟩, ⟨lkoReady_ready (b := false) ?_, ?_⟩,
    ⟨lkoReady_ready (b := false) ?_, ?_, lkoReady_ready (b := false) ?_, ?_⟩, ⟨lkoReady_ready (b := false) ?_, ?_⟩,
    ⟨lkoReady_ready (b := false) ?_, ?_, ?_, rfl⟩, ⟨lkoReady_ready (b := false) ?_, ?_⟩, ?_, ?_, rfl⟩ <;> decide +kernel

/-- A privileged request with no operator key bound needs the nonce alone. -/
theorem test_meets_LookoutRequestsAreAnswered_acts :
    (let m := ask [0, 0x80]
     (lkoOn.LkoReady 0x0020 m ∧ lkoOn.LkoTrusted 0x0020 m) ∧ (lkoRuns.LkoReady 0x0020 m ∧ lkoRuns.LkoTrusted 0x0020 m) ∧
       onlyNamed (lkoReq m) [(0, 2)] = true ∧ lkoOn.runningOf (fieldAt (lkoReq m) 0 2) = [] ∧ lkoRuns.runningOf (fieldAt (lkoReq m) 0 2) = [15] ∧
       lkoOn.mainOn = true ∧ lkoRuns.mainOn = true) ∧
    (lkoOff.LkoReady 0x0021 (ask []) ∧ lkoOff.LkoTrusted 0x0021 (ask []) ∧ lkoOn.LkoReady 0x0021 (ask []) ∧ lkoOn.LkoTrusted 0x0021 (ask [])) ∧
    (lkoOff.LkoReady 0x0022 (ask []) ∧ lkoOff.LkoTrusted 0x0022 (ask []) ∧ lkoOff.mainOn = false ∧ inputsOk (inputs 4400) = true) ∧
    (lkoOn.LkoReady 0x0023 (ask []) ∧ lkoOn.LkoTrusted 0x0023 (ask [])) ∧
    (let m := ask [1]
     lkoOn.LkoReady 0x0024 m ∧ lkoOn.LkoTrusted 0x0024 m ∧ onlyNamed (lkoReq m) [(0, 1)] = true ∧ fieldAt (lkoReq m) 0 1 = 1) ∧
    (let m := ask (leBytes 4 16777216)
     (lkoRom.LkoReady 0x0030 m ∧ lkoRom.LkoTrusted 0x0030 m) ∧ ((lkoImage false).LkoReady 0x0030 m ∧ (lkoImage false).LkoTrusted 0x0030 m) ∧
       onlyNamed (lkoReq m) [(0, 4)] = true ∧ fieldAt (lkoReq m) 0 4 = 16777216 ∧ lkoRom.inRom = true ∧ (lkoImage false).inRom = true ∧
       lkoRom.foe.image = none ∧ (lkoImage false).foe.image = some ⟨false, 1016, [], 0, 0⟩) ∧
    ((lkoImage true).LkoReady 0x0031 lkoChunk ∧ (lkoImage true).LkoTrusted 0x0031 lkoChunk ∧
      onlyNamed (lkoReq lkoChunk) [(0, 8 + 1016)] = true ∧ fieldAt (lkoReq lkoChunk) 4 4 = 1016 ∧ fieldAt (lkoReq lkoChunk) 0 4 = 0 ∧
      (lkoImage true).foe.image = some ⟨true, 1016, [], 0, 0⟩ ∧ (lkoImage true).inRom = true) ∧
    ((lkoImage true).LkoReady 0x0032 (ask []) ∧ (lkoImage true).LkoTrusted 0x0032 (ask [])) := by
  refine ⟨⟨⟨lkoReady_ready (b := true) ?_, lkoReady_trusted ?_⟩, ⟨lkoReady_ready (b := true) ?_, lkoReady_trusted
    ?_⟩, ?_⟩, ⟨lkoReady_ready (b := true) ?_, lkoReady_trusted ?_, lkoReady_ready (b := true) ?_, lkoReady_trusted
    ?_⟩, ⟨lkoReady_ready (b := true) ?_, lkoReady_trusted ?_, ?_⟩, ⟨lkoReady_ready (b := true) ?_, lkoReady_trusted
    ?_⟩, ⟨lkoReady_ready (b := true) ?_, lkoReady_trusted ?_, ?_⟩, ⟨⟨lkoReady_ready (b := true) ?_, lkoReady_trusted
    ?_⟩, ⟨lkoReady_ready (b := true) ?_, lkoReady_trusted ?_⟩, ?_⟩, ⟨lkoReady_ready (b := true) ?_, lkoReady_trusted
    ?_, ?_⟩, lkoReady_ready (b := true) ?_, lkoReady_trusted ?_⟩ <;> decide +kernel

/-- A fence while the random source has failed, while a FORCE_STOP executes, and with an old nonce. -/
theorem test_meets_LookoutRequestsAreAnswered_turned_away :
    (let s := lko (on.setReg .rng RNG_STATE 3)
     s.LkoReady 0x0024 (ask []) ∧ s.flag .rng RNG_STATE 1 = true) ∧
    (let s := { lkoOn with lko := { lkoOn.lko with forcing := some ⟨1, 2, 2, [15]⟩ } }
     s.LkoReady 0x0024 (ask []) ∧ s.flag .rng RNG_STATE 1 = false ∧ s.lko.forcing.isSome = true) ∧
    (let m := { ask [] with nonce := List.replicate 16 1 }
     lkoOn.LkoReady 0x0024 m ∧ lkoOn.flag .rng RNG_STATE 1 = false ∧ lkoOn.lko.forcing = none ∧ lkoOn.authentic 0x0024 m = false) := by
  refine ⟨⟨lkoReady_ready (b := false) ?_, ?_⟩, ⟨lkoReady_ready (b := false) ?_, ?_⟩, lkoReady_ready (b := false) ?_,
    ?_⟩ <;> decide +kernel

/-- The STATUS response of R406: BEAT stands at 0x10, RUNNING at 0x20. -/
theorem test_lookout_status_layout :
    lkoOn.statusBytes.length = 0x22 ∧ fieldAt lkoOn.statusBytes 0x10 8 = lkoOn.beat ∧ fieldAt lkoOn.statusBytes 0x20 2 = lkoOn.runningMask := by
  decide +kernel

/-- Each privileged request in the three states that turn it away, and each request in a state where it is not legal. -/
theorem test_meets_LookoutRequestsAreAnswered_privileged :
    (∀ op ∈ [0x20, 0x21, 0x22, 0x23, 0x24, 0x30, 0x31, 0x32],
      let failed := lko (on.setReg .rng RNG_STATE 3)
      let busy := { lkoOn with lko := { lkoOn.lko with forcing := some ⟨1, 2, 2, [15]⟩ } }
      lkoReady failed op (ask []) false = true ∧ failed.flag .rng RNG_STATE 1 = true ∧ lkoReady busy op (ask []) false = true ∧
        busy.flag .rng RNG_STATE 1 = false ∧ busy.lko.forcing.isSome = true ∧ lkoReady lkoOn op { ask [] with nonce := List.replicate 16 1 } false = true ∧
        lkoOn.authentic op { ask [] with nonce := List.replicate 16 1 } = false) ∧
    (∀ op ∈ [0x20, 0x21, 0x23], lkoReady lkoOff op (ask []) true = true ∧ lkoOff.lkoLegal op (ask []) = false) ∧
    (∀ op ∈ [0x22, 0x30, 0x31, 0x32], lkoReady lkoOn op (ask []) true = true ∧ lkoOn.lkoLegal op (ask []) = false) ∧
    (lkoReady lkoOff 0x0011 (ask []) false = true ∧ lkoOff.lkoLegal 0x0011 (ask []) = false ∧
      lkoReady lkoOff 0x0012 (readAsk (Blk.cor k0).base) false = true ∧ lkoOff.lkoLegal 0x0012 (readAsk (Blk.cor k0).base) = false) := by
  decide +kernel

theorem test_meets_LookoutRequestsAreAnswered_requests :
    (LkoRequest 0x0001 (ask []) false (.lookoutStatus (ask [])) ∧ LkoRequest 0x0032 (ask []) true (.lookoutFwCommit (ask []) true)) ∧
    (let k : LkoKept := ⟨(ask []).src.toNat, 2, (ask []).seq.toNat, 0x0032, .ok, 0, []⟩
     k.isFor 0x0032 (ask []) = true ∧ k.isFor 0x0001 (ask []) = false) := ⟨⟨.status _, .fwCommit _ _⟩, by decide +kernel⟩

/-! ## Registers, configuration checks, Blaze and Tally -/

def addr (n : Nat) : W32 := BitVec.ofNat 32 n
def postedOn : State := on.setPending .ftb (some (FTB_CTRL, 1))
def regAt (b : Blk) (o : Nat) : Option (Access × Bool) := (b.row? o).map fun r => (r.acc, r.cfg)
def cluReady : State := checked on (.clu c0)
/-- Running with a reference that no longer matches. -/
def cluBad : State := (on.setReg (.clu c0) BLK_CTRL 1).setReg (.clu c0) BLK_CFG_CRC_REF (on.crcNow (.clu c0) + 1)
def pwrBad : State := (on.setReg .pwr BLK_CTRL 1).setReg .pwr BLK_CFG_CRC_REF (on.crcNow .pwr + 1)
def armed (b : Nat) : State := { on.setFlag .blz BLZ_STATE 1 with beat := b }
def entry : TallyEntry := ⟨0, 0, 0, 0x1012, 1, true, 0, [1, 0, 0], true, 0, true⟩
def tally (l r : List TallyEntry) (lost : Nat) : State := { on with tally := { on.tally with queue := l, ring := r, lostSince := lost } }

theorem crcRef_setRef (s : State) (b : Blk) (v : Nat) : (s.setReg b BLK_CFG_CRC_REF v).reg b BLK_CFG_CRC_REF = v % 2 ^ 32 :=
  State.reg_setReg ..

theorem test_meets_RegistersAreWrittenAndObserved_writes :
    ((addr 2).toNat % 4 ≠ 0 ∧ blkOfAddr (addr 0xFFFFFFFC).toNat = none) ∧
    (blkOfAddr (addr ((Blk.lnd 7).base + LND_CFG)).toNat = some (.lnd 7, LND_CFG) ∧ (addr ((Blk.lnd 7).base + LND_CFG)).toNat % 4 = 0 ∧
      on.powered (.lnd 7) = true ∧ 0x100 ≤ LND_CFG ∧ regAt (.lnd 7) LND_CFG = some (.rw, true) ∧ foresterOnly (.lnd 7) LND_CFG = false ∧
      (Blk.lnd 7).posted = false ∧ allOn.enabled (.lnd 7) = true ∧ on.enabled (.lnd 7) = false ∧ on.unitBusy (.lnd 7) = false) ∧
    (blkOfAddr (addr ((Blk.ftb).base + FTB_CTRL)).toNat = some (.ftb, FTB_CTRL) ∧ Blk.posted .ftb = true ∧ on.powered .ftb = true ∧
      on.pendingWrite .ftb = none ∧ postedOn.pendingWrite .ftb = some (FTB_CTRL, 1)) ∧
    (blkOfAddr (addr (Blk.clu c0).base).toNat = some (.clu c0, 0) ∧ on.powered (.clu c0) = true ∧ Blk.posted (.clu c0) = false) := by
  decide +kernel

theorem test_meets_RegistersAreWrittenAndObserved_checks :
    (cluReady.enabled (.clu c0) = false ∧ cluReady.crcNow (.clu c0) = cluReady.reg (.clu c0) BLK_CFG_CRC_REF) ∧
    (cluBad.enabled (.clu c0) = true ∧ cluBad.crcNow (.clu c0) ≠ cluBad.reg (.clu c0) BLK_CFG_CRC_REF ∧ Blk.alwaysOn (.clu c0) = false) ∧
    (pwrBad.enabled .pwr = true ∧ pwrBad.crcNow .pwr ≠ pwrBad.reg .pwr BLK_CFG_CRC_REF) := by
  refine ⟨⟨by decide +kernel, State.crcNow_checked on (.clu c0)⟩, by decide +kernel, ?_⟩
  decide +kernel

theorem test_meets_RegistersAreWrittenAndObserved_blaze :
    ((armed 5).flag .blz BLZ_STATE 1 = true ∧ (armed 5).pair .blz BLZ_MATCH_LO BLZ_MATCH_HI ≤ (armed 5).beat ∧
      (armed 5).blazeFired = false ∧
      (let s := (armed 5).setPair .blz BLZ_MATCH_LO BLZ_MATCH_HI 6
       s.flag .blz BLZ_STATE 1 = true ∧ s.beat < s.pair .blz BLZ_MATCH_LO BLZ_MATCH_HI)) := by decide +kernel

theorem test_meets_RegistersAreWrittenAndObserved_tally :
    ((tally [entry] [] 0).tally.queue = [entry] ∧ (tally [entry] [] 0).mergeAt entry = none ∧
      (tally [entry] [entry] 0).mergeAt entry = some 0 ∧ (tally [entry] [entry] 0).tally.ring[0]? = some entry) ∧
    ((tally [] [] 1).tally.queue = [] ∧ (tally [] [] 1).tally.lostSince ≠ 0) ∧
    (on.mainOn = true ∧ ({ on with clock := 1048575 } : State).clock < on.tally.rollAt + 1048576 ∧
      on.tally.rollAt + 1048576 ≤ ({ on with clock := 1048576 } : State).clock) := by decide +kernel

def data4 (v : Nat) : RegData := ⟨BitVec.ofNat 32 v, 4⟩
/-- Writes that reach a register, and the boundary values of the ranges. -/
theorem test_meets_RegistersAreWrittenAndObserved_ranges :
    (∀ p ∈ [((Blk.skd c0), SKD_BANK_CAP), (.sil c0, SIL_WAIT), (.cor k0, SYN_WDOG), (.clu c0, BAR_WDOG), (.lnd 7, LND_CFG),
        (.cor k0, COR_SLOT_CFG), (.cch c0, CCH_PF_CFG)],
      blkOfAddr (addr (p.1.base + p.2)).toNat = some p ∧ (addr (p.1.base + p.2)).toNat % 4 = 0 ∧ on.powered p.1 = true ∧
        Blk.posted p.1 = false ∧ on.enabled p.1 = false ∧ on.unitBusy p.1 = false) ∧
    (blkOfAddr (addr (Blk.pwr.base + GLB_PWR_CAP)).toNat = some (.pwr, GLB_PWR_CAP) ∧ Blk.posted .pwr = false ∧ on.powered .pwr = true ∧
      (data4 3999).bytes = 4 ∧ (data4 3999).value.toNat % 2 ^ 16 < 4000 ∧ 4000 ≤ (data4 4000).value.toNat % 2 ^ 16) := by decide +kernel

theorem test_meets_RegistersAreWrittenAndObserved_refusals :
    (blkOfAddr (addr ((Blk.clu c0).base + CLU_XLAT_LO)).toNat = some (.clu c0, CLU_XLAT_LO) ∧ foresterOnly (.clu c0) CLU_XLAT_LO = true ∧
      ((Blk.clu c0).row? CLU_XLAT_LO).isSome = true ∧ foresterOnly .pwr GLB_PWR_STATE = false ∧
      regAt .pwr GLB_PWR_STATE = some (.ro, false)) ∧
    (blkOfAddr (addr (Blk.pwr.base + GLB_THROTTLE)).toNat = some (.pwr, GLB_THROTTLE) ∧
      (let w := (data4 (100 + 90 * 2 ^ 8 + 100 * 2 ^ 16 + 90 * 2 ^ 24)).value.toNat
       let x := (data4 (100 + 100 * 2 ^ 8)).value.toNat
       bits w 8 8 < bits w 0 8 ∧ bits w 24 8 < bits w 16 8 ∧ bits w 0 8 ≤ on.field .pwr GLB_TRIP 0 8 ∧ bits w 16 8 ≤ on.field .pwr GLB_TRIP 8 8 ∧
         ¬bits x 8 8 < bits x 0 8)) ∧
    (blkOfAddr (addr ((Blk.cor k0).base + VEC_REG_DATA)).toNat = some (.cor k0, VEC_REG_DATA) ∧ (debugging on).foe.debug = true ∧
      (withCore (debugging on)).enabled (.cor k0) = true ∧ (debugging on).enabled (.cor k0) = false ∧ on.foe.debug = false ∧
      regAt (.cor k0) VEC_REG_DATA = some (.dbg, false)) := by decide +kernel

theorem test_meets_MemoryDebugAndContextCommandsComplete_log :
    ({ joined.setReg .tly TLY_HEAD 1 with tally := { joined.tally with ring := [entry] } } : State).logEntries 0 127 = [] ++ [entry] := by decide +kernel

/-! ## Results that the spec states -/

def ascii9 : List Byte := [0x31, 0x32, 0x33, 0x34, 0x35, 0x36, 0x37, 0x38, 0x39]
/-- The check values of chapters 21 and 14. -/
theorem test_crc32c_check_value : crc32c ascii9 = 0xE3069283 := by decide +kernel
theorem test_crc64_check_value : crc64 ascii9 = 0x6C40DF5F0B497347 := by decide +kernel

/-- The three results of R240. -/
theorem test_mix_vectors :
    mix 0 0 0 = ⟨0x54080C59, 0x9E50F4A4, 0xDEE1C095, 0x5A78F409⟩ ∧ mix 0 0 1 = ⟨0x11D4033B, 0x12C5B9BB, 0x1900B1BC, 0x5E2E2A0E⟩ ∧
      mix 1 1 0 = ⟨0x07E79179, 0x72D05827, 0x2B6D78F3, 0x66193FBC⟩ := by decide +kernel

/-- RFC 8439, 2.1.1, which R59 names. -/
theorem test_chacha_quarter_round :
    quarter 0x11111111 0x01020304 0x9B8D6F43 0x01234567 = (0xEA2A92F4, 0xCB1CF8CE, 0x4581472E, 0x5881C4BB) := by decide +kernel

/-- The records printed after R217. -/
theorem test_published_conversions :
    bf16.encode (fp32.decode 0x3F808000) = 0x3F80 ∧ bf16.encode (fp32.decode 0x3F818000) = 0x3F82 ∧
    NFmt.e4m3.convert (fp32.decode 0x43960000) 0 = ⟨0x79, false, false⟩ ∧
    NFmt.e4m3.convert (fp32.decode 0x43FA0000) 0 = ⟨0x7E, true, false⟩ ∧
    NFmt.e4m3.convert (fp32.decode 0x43FA0000) 1 = ⟨0x78, false, false⟩ ∧
    NFmt.e4m3.convert (fp32.decode 0x7F800000) 0 = ⟨0x7F, false, true⟩ ∧
    NFmt.e5m2.convert (fp32.decode 0x37800000) 0 = ⟨0x01, false, false⟩ ∧
    NFmt.e2m1.convert (fp32.decode 0x41700000) 1 = ⟨0x7, true, false⟩ ∧
    NFmt.e2m1.convert (fp32.decode 0x41700000) 2 = ⟨0x6, false, false⟩ := by decide +kernel
theorem test_published_stochastic_rounding :
    bf16.sround (fp32.decode 0x3F804000) 0xC000 = 0x3F81 ∧ bf16.sround (fp32.decode 0x3F804000) 0xBFFF = 0x3F80 := by decide +kernel
theorem test_published_arithmetic :
    f32max 0x80000000 0 = 0 ∧ f32add 0x7F800000 0xFF800000 = 0x7FC00000 ∧
      xm40.encode ((xm40.decode 0x3F80000000).add (xm40.decode 0x3080000000)) = 0x3F80000002 := by decide +kernel

/-- The coordinates and frame numbers of chapter 13: deadlines compare across the wrap of the frame number. -/
theorem test_frame_numbers_wrap : later32 1 0xFFFFFFFE = true ∧ later32 0xFFFFFFFE 1 = false := by decide +kernel

/-! ## Single commands -/

def next? (c : Instr) (s : State) : Option State :=
  match Machine.exec c s with
  | .next t => some t
  | _ => none
def withG1 (v : W32) : State := idle.setGpr k0 1 v

theorem test_add_wraps :
    (next? (.scalarAlu k0 (.op .add 2 1 (.imm 2))) (withG1 0xFFFFFFFF)).map (fun t => t.gpr k0 2) = some 1 := by decide +kernel
theorem test_sar_keeps_the_sign :
    (next? (.scalarAlu k0 (.op .sar 1 1 (.imm 4))) (withG1 0x80000000)).map (fun t => t.gpr k0 1) = some 0xF8000000 := by decide +kernel
theorem test_mulh_is_signed_mulhu_not :
    (next? (.scalarAlu k0 (.op .mulh 2 1 (.imm 2))) (withG1 0xFFFFFFFF)).map (fun t => t.gpr k0 2) = some 0xFFFFFFFF ∧
    (next? (.scalarAlu k0 (.op .mulhu 2 1 (.imm 2))) (withG1 0xFFFFFFFF)).map (fun t => t.gpr k0 2) = some 1 := by decide +kernel
theorem test_g0_stays_zero :
    (next? (.scalarAlu k0 (.op .add 0 1 (.imm 2))) (withG1 5)).map (fun t => t.gpr k0 0) = some 0 := by decide +kernel
/-- R146: a link register that is also the target register: the target is read first. -/
theorem test_jump_and_link_reads_first :
    (next? (.jumpAndLink k0 1 (.reg 1)) (withG1 0x40)).map (fun t => (t.pc k0, t.gpr k0 1)) = some (0x40, 4) := by decide +kernel
/-- Reset leaves only the reset of standby power behind: a handover finds no mailbox (R381). -/
theorem test_reset_has_no_mailbox : next? (.hello (rq [0, 0, 1, 9])) State.reset = some State.reset := by decide +kernel
set_option maxRecDepth 100000 in
/-- R375: both sides support 1.0 to 1.2 and 1.0 to 1.1. -/
theorem test_hello_takes_the_highest_common_version :
    (next? (.hello (rq [1, 0, 1, 1])) joined).map (fun t => t.foe.agreed) = some (some 0x101) := by decide +kernel

/-! ## A slice record that is accepted, and an image that is -/

/-- The header of a slice record: the master at coordinate 0 of a slice of one module, with the least of each limit. -/
def slicePre : List Byte :=
  leBytes 4 0x45434C53 ++ leBytes 1 1 ++ leBytes 1 0 ++ leBytes 2 5 ++ leBytes 4 0 ++ leBytes 4 0x010101 ++ leBytes 4 1 ++ leBytes 4 0 ++
    leBytes 4 8 ++ leBytes 4 8 ++ leBytes 8 0 ++ leBytes 4 0 ++ leBytes 4 4 ++ leBytes 4 1024 ++ leBytes 4 4096 ++ leBytes 4 1
/-- No port, and a route to coordinate 0 alone. -/
def sliceRoutes : List Byte := (List.replicate 396 0 ++ leBytes 4 1) ++ List.replicate 16368 0
/-- Each tile's two regions of 16 MiB. -/
def sliceTiles : List Byte :=
  tiles8.flatMap fun t => leBytes 8 (t.val * 2 ^ 25) ++ leBytes 4 16 ++ leBytes 4 16 ++ leBytes 8 (t.val * 2 ^ 25 + 2 ^ 24) ++ leBytes 8 0
def slicePost : List Byte := sliceRoutes ++ sliceTiles
def sliceCrc : Nat := crc32c (slicePre ++ List.replicate 4 0 ++ slicePost)
def sliceRec : List Byte := slicePre ++ leBytes 4 sliceCrc ++ slicePost

theorem sliceRec_sound : (fieldAt sliceRec 0x3C 4 != crc32c (zeroAt sliceRec 0x3C 4)) = false :=
  crcField_sound slicePre slicePost sliceRec 0x3C rfl rfl

theorem slice_skip (a b : List Byte) {m : Nat} (o n : Nat) (h : a.length = m) : slice (a ++ b) (m + o) n = slice b o n := by
  subst h
  simp only [slice, List.drop_append, List.drop_eq_nil_of_le (Nat.le_add_right a.length o), Nat.add_sub_cancel_left, List.nil_append]

theorem fieldAt_skip (a b : List Byte) {m : Nat} (o n : Nat) (h : a.length = m) : fieldAt (a ++ b) (m + o) n = fieldAt b o n :=
  congrArg leVal (slice_skip a b o n h)

theorem sliceHead_length : (slicePre ++ leBytes 4 sliceCrc).length = 0x40 := by
  rw [List.length_append, leBytes_length]; rfl

theorem sliceRoutes_length : sliceRoutes.length = 16768 := by
  simp only [sliceRoutes, List.length_append, List.length_replicate, leBytes_length]

theorem sliceRec_tile (t : Fin 8) (o n : Nat) : tileField sliceRec t o n = fieldAt sliceTiles (32 * t.val + o) n := by
  have h : (slicePre ++ leBytes 4 sliceCrc ++ sliceRoutes).length = 0x41C0 := by
    rw [List.length_append, sliceHead_length, sliceRoutes_length]
  rw [tileField, sliceRec, slicePost, ← List.append_assoc, Nat.add_assoc, fieldAt_skip _ _ _ _ h]

theorem slice_zeros (b : List Byte) {m o n : Nat} (h : o + n ≤ m) : slice (List.replicate m 0 ++ b) o n = List.replicate n 0 := by
  rw [slice_prefix _ _ (by rwa [List.length_replicate]), slice, List.drop_replicate, List.take_replicate, List.length_replicate,
    List.replicate_append_replicate]
  congr 1; omega

/-- Word `i` of the route table. -/
theorem sliceRec_route (i : Nat) (h : i < 4096) : fieldAt sliceRec (0x1C0 + 4 * i) 4 = if i = 3 then 1 else 0 := by
  have e : sliceRec = (slicePre ++ leBytes 4 sliceCrc) ++ ((List.replicate 396 0 ++ leBytes 4 1) ++ (List.replicate 16368 0 ++ sliceTiles)) := by
    simp only [sliceRec, slicePost, sliceRoutes, List.append_assoc]
  rw [e, show 0x1C0 + 4 * i = 0x40 + (384 + 4 * i) by omega, fieldAt_skip _ _ _ _ sliceHead_length]
  rcases Nat.lt_or_ge i 4 with h4 | h4
  · obtain rfl | rfl | rfl | rfl : i = 0 ∨ i = 1 ∨ i = 2 ∨ i = 3 := by omega
    all_goals rfl
  · have l : (List.replicate 396 (0 : Byte) ++ leBytes 4 1).length = 400 := by
      rw [List.length_append, List.length_replicate, leBytes_length]
    rw [show 384 + 4 * i = 400 + (4 * i - 16) by omega, fieldAt_skip _ _ _ _ l, fieldAt, slice_zeros _ (by omega), leVal_zeros,
      if_neg (by omega)]

theorem sliceRec_routes (e w : Nat) (he : e < 1024) (hw : w < 4) : routeEntry sliceRec e w = if 4 * e + w = 3 then 1 else 0 := by
  rw [routeEntry, show 0x1C0 + 16 * e + 4 * w = 0x1C0 + 4 * (4 * e + w) by omega, sliceRec_route _ (by omega)]

theorem mem_upFrom {a n x : Nat} (h : x ∈ upFrom a n) : x < a + n := by
  induction n generalizing a with
  | zero => simp [upFrom] at h
  | succ n ih =>
    rcases List.mem_cons.1 h with rfl | h
    · omega
    · have := ih h; omega

theorem any_upFrom {n : Nat} {q : Nat → Bool} (h : ∀ e < n, q e = false) : (upFrom 0 n).any q = false := by
  rw [List.any_eq_false]
  intro e he
  rw [h e (by have := mem_upFrom he; omega)]
  exact Bool.false_ne_true

theorem sliceRec_inForm : sliceMalformed sliceRec = false := by
  have r1 : ((upFrom 0 1024).any fun e => decide (1 < routeEntry sliceRec e 3)) = false :=
    any_upFrom fun e he => by rw [sliceRec_routes e 3 he (by decide)]; split <;> rfl
  have r2 : ((upFrom 0 1024).any fun e => bit (routeEntry sliceRec e 3) 0 && !insideShape (fieldAt sliceRec 0x0C 4) (coordOfIndex e)) = false :=
    any_upFrom fun e he => by
      rw [sliceRec_routes e 3 he (by decide)]
      by_cases h : 4 * e + 3 = 3
      · obtain rfl : e = 0 := by omega
        decide +kernel
      · rw [if_neg h]; rfl
  have t1 : (tiles8.any fun t => tileReserved sliceRec t) = false := by
    simp only [tileReserved, sliceRec_tile]; decide +kernel
  have t2 : anyOverlap (sliceRegions sliceRec) = false := by
    simp only [sliceRegions, sliceRec_tile]; decide +kernel
  simp only [sliceMalformed, sliceRec_sound, r1, r2, t1, t2, Bool.or_false]
  decide +kernel

/-! The routes that the record gives each tile are one word. -/

theorem serase_absent {V : Type} (m : SMap V) (k : Nat) (h : ∀ p ∈ m, p.1 ≠ k) : serase m k = m := by
  induction m with
  | nil => rfl
  | cons p m ih =>
    obtain ⟨a, v⟩ := p
    rw [serase, if_neg (h (a, v) (List.mem_cons_self ..)), ih fun p hp => h p (List.mem_cons_of_mem _ hp)]

/-- Every word of the route tables that is not zero is word 3 of an entry 0. -/
def OneRoute (s : State) : Prop := ∀ p ∈ s.routes, p.1 % 4096 = 3

theorem setRouteWord_zero {s : State} (h : OneRoute s) (t : Fin 8) (i : Nat) (hi : i < 4096) (h3 : i ≠ 3) : s.setRouteWord t i 0 = s := by
  have e : serase s.routes (4096 * t.val + i) = s.routes := serase_absent _ _ fun p hp => by have := h p hp; omega
  rw [State.setRouteWord, sset, if_pos (show BitVec.ofNat 32 0 = 0 from rfl), e]

theorem setRoutes_zero (t : Fin 8) (n : Nat) : ∀ (a : Nat) (s : State), OneRoute s → 4 ≤ a → a + n ≤ 4096 →
    (upFrom a n).foldl (fun s i => s.setRouteWord t i (routeEntry sliceRec (i / 4) (i % 4))) s = s := by
  induction n with
  | zero => intros; rfl
  | succ n ih =>
    intro a s h h4 hn
    rw [upFrom, List.foldl_cons, sliceRec_routes _ _ (by omega) (by omega), if_neg (by omega), setRouteWord_zero h t a (by omega) (by omega)]
    exact ih (a + 1) s h (by omega) (by omega)

theorem mem_sinsert {V : Type} {m : SMap V} {k : Nat} {v : V} {p : Nat × V} (h : p ∈ sinsert m k v) : p = (k, v) ∨ p ∈ m := by
  induction m with
  | nil => simpa [sinsert] using h
  | cons q m ih =>
    obtain ⟨a, w⟩ := q
    rw [sinsert] at h
    split at h
    · exact (List.mem_cons.1 h).imp id id
    · rcases List.mem_cons.1 h with rfl | h
      · exact .inr (List.mem_cons_self ..)
      · exact (ih h).imp id (List.mem_cons_of_mem _)

theorem mem_serase {V : Type} {m : SMap V} {k : Nat} {p : Nat × V} (h : p ∈ serase m k) : p ∈ m := by
  induction m with
  | nil => exact h
  | cons q m ih =>
    obtain ⟨a, w⟩ := q
    rw [serase] at h
    split at h
    · exact List.mem_cons_of_mem _ (ih h)
    · rcases List.mem_cons.1 h with rfl | h
      · exact List.mem_cons_self ..
      · exact List.mem_cons_of_mem _ (ih h)

theorem oneRoute_set {s : State} (h : OneRoute s) (t : Fin 8) : OneRoute (s.setRouteWord t 3 1) := by
  intro p hp
  rw [State.setRouteWord, sset, if_neg (by decide)] at hp
  rcases mem_sinsert hp with rfl | hp
  · show (4096 * t.val + 3) % 4096 = 3
    omega
  · exact h p (mem_serase hp)

theorem setRoutes_one {s : State} (h : OneRoute s) (t : Fin 8) :
    (upFrom 0 4096).foldl (fun s i => s.setRouteWord t i (routeEntry sliceRec (i / 4) (i % 4))) s = s.setRouteWord t 3 1 := by
  have z (i : Nat) (hi : i < 4096) (h3 : i ≠ 3) : s.setRouteWord t i (routeEntry sliceRec (i / 4) (i % 4)) = s := by
    rw [sliceRec_routes _ _ (by omega) (by omega), if_neg (by omega), setRouteWord_zero h t i hi h3]
  have e3 : routeEntry sliceRec (3 / 4) (3 % 4) = 1 := sliceRec_routes 0 3 (by decide) (by decide)
  rw [show (4096 : Nat) = 4 + 4092 from rfl, upFrom_append, List.foldl_append]
  show List.foldl _ (State.setRouteWord (State.setRouteWord (State.setRouteWord (State.setRouteWord s t 0 _) t 1 _) t 2 _) t 3 _) _ = _
  rw [z 0 (by decide) (by decide), z 1 (by decide) (by decide), z 2 (by decide) (by decide), e3]
  exact setRoutes_zero t 4092 4 _ (oneRoute_set h t) (by decide) (by decide)

/-- The registers and the route that the record gives one tile. -/
def tileRegs (s : State) (t : Fin 8) : State :=
  let b := Blk.til t
  let f o n := fieldAt sliceTiles (32 * t.val + o) n
  let s := (s.setReg b TIL_COORD 0).setReg b TIL_GEN 5
  let s := (s.setReg b TIL_CFG 4).setReg b TIL_GAP 1024
  let s := (s.setReg b TIL_ACK_TO 4096).setReg b TIL_RETRY 1
  let s := (s.setPair b TIL_RSB_LO TIL_RSB_HI (f 0 8)).setReg b TIL_RSB_CFG (f 8 4)
  (s.setPair b TIL_RX_LO TIL_RX_HI (f 0x10 8)).setReg b TIL_RX_CFG (f 0xC 4)
def tileOf (s : State) (t : Fin 8) : State := (tileRegs s t).setRouteWord t 3 1

theorem routes_setReg (s : State) (b : Blk) (o v : Nat) : (s.setReg b o v).routes = s.routes := rfl

theorem tileRegs_routes (s : State) (t : Fin 8) : (tileRegs s t).routes = s.routes := by
  simp only [tileRegs, State.setPair, routes_setReg]

theorem sliceTime_routes (s : State) : (s.writeSliceTime sliceRec).routes = s.routes := by
  simp only [State.writeSliceTime, State.setPair, routes_setReg]

theorem OneRoute.congr {s t : State} (h : OneRoute s) (e : t.routes = s.routes) : OneRoute t := fun p hp => h p (e ▸ hp)

theorem sliceRec_header :
    fieldAt sliceRec 8 4 = 0 ∧ fieldAt sliceRec 6 2 = 5 ∧ fieldAt sliceRec 0x2C 4 = 4 ∧ fieldAt sliceRec 0x30 4 = 1024 ∧
      fieldAt sliceRec 0x34 4 = 4096 ∧ fieldAt sliceRec 0x38 4 = 1 := by decide +kernel

theorem tileRegs_eq (s : State) (t : Fin 8) : s.writeSliceTile sliceRec t =
    (upFrom 0 4096).foldl (fun s i => s.setRouteWord t i (routeEntry sliceRec (i / 4) (i % 4))) (tileRegs s t) := by
  obtain ⟨a, b, c, d, e, f⟩ := sliceRec_header
  simp only [State.writeSliceTile, sliceRec_tile, a, b, c, d, e, f, tileRegs]

theorem writeTile_eq {s : State} (h : OneRoute s) (t : Fin 8) : s.writeSliceTile sliceRec t = tileOf s t :=
  (tileRegs_eq s t).trans (setRoutes_one (h.congr (tileRegs_routes s t)) t)

theorem writeTiles_eq (l : List (Fin 8)) : ∀ {s : State}, OneRoute s →
    l.foldl (fun s t => s.writeSliceTile sliceRec t) s = l.foldl tileOf s := by
  induction l with
  | nil => intros; rw [List.foldl_nil, List.foldl_nil]
  | cons t l ih =>
    intro s h
    rw [List.foldl_cons, List.foldl_cons, writeTile_eq h]
    exact ih (s := tileOf s t) (oneRoute_set (h.congr (tileRegs_routes s t)) t)

theorem writeSlice_eq {s : State} (h : OneRoute s) : s.writeSlice sliceRec = tiles8.foldl tileOf (s.writeSliceTime sliceRec) :=
  writeTiles_eq tiles8 (h.congr (sliceTime_routes s))

def toJoin : State := (windowed (inStage .ready)).writeBytes hostAt sliceRec

theorem toJoin_record : toJoin.readBytes hostAt sliceBytes = sliceRec := by
  have h : sliceRec.length = sliceBytes := by
    rw [sliceRec, slicePost, List.length_append, sliceHead_length, List.length_append, sliceRoutes_length]
    decide +kernel
  rw [← h]
  exact State.readBytes_writeBytes (windowed (inStage .ready)) hostAt sliceRec

theorem toJoin_routes : (toJoin.atWork .sliceJoin (rq (leBytes 8 hostAt))).routes = [] := by decide +kernel

/-- The record at the bottom of the host window is accepted. -/
theorem test_meets_BootSliceAndJobCommandsComplete_joined :
    toJoin.BoxReady .sliceJoin (rq (leBytes 8 hostAt)) ∧ toJoin.allowed hostAt sliceBytes 0 = true ∧
      (toJoin.atWork .sliceJoin (rq (leBytes 8 hostAt))).sliceRefused
        (toJoin.readBytes (fieldAt (reqBytes (rq (leBytes 8 hostAt))) 0 8) sliceBytes) = false := by
  refine ⟨boxReady_ready (by decide +kernel), by decide +kernel, ?_⟩
  rw [show fieldAt (reqBytes (rq (leBytes 8 hostAt))) 0 8 = hostAt by decide +kernel, toJoin_record, State.sliceRefused]
  rw [writeSlice_eq (fun p hp => by rw [toJoin_routes] at hp; cases hp), sliceRec_inForm]
  decide +kernel

/-- An image of 256 bytes under key 0, with no records. -/
def fwKey : List Byte := List.replicate 32 9
def fwSigned : List Byte :=
  leBytes 4 0x57465443 ++ leBytes 2 1 ++ leBytes 1 0 ++ leBytes 1 0 ++ leBytes 4 7 ++ leBytes 1 1 ++ List.replicate 3 0 ++ leBytes 4 256 ++
    leBytes 4 0x80 ++ leBytes 4 64 ++ leBytes 4 0 ++ leBytes 4 0 ++ leBytes 4 0 ++ List.replicate 24 0 ++ fwKey ++ List.replicate 32 0 ++
    List.replicate 64 1
def fwSig : List Byte := List.replicate 64 2
/-- A module whose copy 0 of the provenance record is in use, with the image received. -/
def committing : State :=
  let s := inStage .rom
  { s with flash := ssetMany flashDefault s.flash 0 (List.replicate 12 0 ++ leBytes 4 4096 ++ List.replicate 48 0),
           foe := { s.foe with active := some 0, image := some ⟨false, 256, ssetMany payloadZero [] 0 (fwSigned ++ fwSig), 256, 0⟩ } }

/-- The image ends OK wherever its key is the vendor's and its signature verifies; both are constants that the model leaves open. -/
theorem test_meets_BootSliceAndJobCommandsComplete_committed (hk : sha512 fwKey = Config.vendorKeyHash 0)
    (hs : signedBy fwKey fwSigned fwSig = true) :
    committing.BoxReady (.fwCommit true) (rq []) ∧ onlyNamed (reqBytes (rq [])) [] = true ∧
      ((committing.atWork (.fwCommit true) (rq [])).commitImage false true).2.1 = .ok := by
  refine ⟨boxReady_ready (by decide +kernel), by decide +kernel, ?_⟩
  generalize hu : committing.atWork (.fwCommit true) (rq []) = u
  have hi : u.foe.image = some ⟨false, 256, ssetMany payloadZero [] 0 (fwSigned ++ fwSig), 256, 0⟩ := by rw [← hu]; decide +kernel
  have hc : Image.content ⟨false, 256, ssetMany payloadZero [] 0 (fwSigned ++ fwSig), 256, 0⟩ = fwSigned ++ fwSig := by decide +kernel
  have ha : u.foe.active = some 0 := by rw [← hu]; decide +kernel
  have hp : u.provField 0x1C 1 = 0 ∧ u.provField 0x18 4 = 0 := by rw [← hu]; decide +kernel
  have hm : imageMalformed (fwSigned ++ fwSig) 256 = false ∧ fieldAt (fwSigned ++ fwSig) 0xC 1 = 1 ∧ fieldAt (fwSigned ++ fwSig) 6 1 = 0 ∧
      fieldAt (fwSigned ++ fwSig) 8 4 = 7 ∧ slice (fwSigned ++ fwSig) 0x40 32 = fwKey ∧ imageRecords (fwSigned ++ fwSig) = [] ∧
      (fwSigned ++ fwSig).take ((fwSigned ++ fwSig).length - 64) = fwSigned ∧
      slice (fwSigned ++ fwSig) ((fwSigned ++ fwSig).length - 64) 64 = fwSig := by decide +kernel
  obtain ⟨m1, m2, m3, m4, m5, m6, m7, m8⟩ := hm
  have hr : u.imageReason (fwSigned ++ fwSig) 256 = 0 := by
    simp only [State.imageReason, ha, m1, m2, m3, m4, m5, m6, m7, m8, hp.1, hp.2, hk, hs]
    simp [show bit 0 0 = false from rfl]
  have hl : u.applyRecords [] true = (u, true) := by
    simp only [State.applyRecords, State.prov, ha, Option.map, List.foldl, if_true]
  simp only [State.commitImage, hi, hc, hr, m6, hl, ne_eq, not_true_eq_false, if_false, if_true]
end Sys2Proof.Tests
end

section
/-! The control address map decodes every block's addresses (R430), and with it the register file right after reset (R9). -/
namespace Sys2Proof.Machine

/-! ## The address map within a tile -/

/-- The block and offset at `r` bytes from the base of tile `t`, if it lies in a block of R430. -/
def tileBlk (t : Fin 8) (r : Nat) : Option (Blk × Nat) :=
  let o := r % 0x10000
  if r < 0x100000 then some (.til t, r)
  else if r < 0x160000 then some (.opt ⟨t, Fin.ofNat 6 ((r - 0x100000) / 0x10000)⟩, o)
  else if 0x180000 ≤ r ∧ r < 0x190000 then some (.lnd t, o)
  else if 0x400000 ≤ r ∧ r < 0x430000 then some (.hbc t (Fin.ofNat 3 ((r - 0x400000) / 0x10000)), o)
  else if 0x500000 ≤ r ∧ r < 0x540000 then some (.lpc t (Fin.ofNat 4 ((r - 0x500000) / 0x10000)), o)
  else if 0x1000000 ≤ r ∧ r < 0x1500000 ∧ o < 0xC000 then
    some (clusterBlk ⟨t, Fin.ofNat 80 ((r - 0x1000000) / 0x10000)⟩ o)
  else none

theorem blkOfAddr_tileBase_add (t : Fin 8) {r : Nat} (hr : r < 0x02000000) : blkOfAddr (tileBase t + r) = tileBlk t r := by
  have ht := t.isLt
  have hlo : ¬ tileBase t + r < 0x10000000 := by unfold tileBase; omega
  have hhi : tileBase t + r < 0x20000000 := by unfold tileBase; omega
  have hrest : (tileBase t + r - 0x10000000) % 0x02000000 = r := by unfold tileBase; omega
  have htile : Fin.ofNat 8 ((tileBase t + r - 0x10000000) / 0x02000000) = t := by
    apply Fin.ext
    simp only [tileBase, Fin.ofNat]
    omega
  have hoff : (tileBase t + r) % 0x10000 = r % 0x10000 := by unfold tileBase; omega
  have hstandby (m : Nat) (hm : m ≤ 0xC0000) : ¬ tileBase t + r < m := by omega
  simp only [blkOfAddr, hlo, hhi, hrest, htile, hoff, hstandby, if_false, if_true, Nat.reduceLeDiff, tileBlk]

/-- Slot `i` of a row of `n` blocks of 64 KiB each, from an address within the slot. -/
theorem slot_ofNat {n : Nat} [NeZero n] (i : Fin n) (m : Nat) {o : Nat} (ho : o < 0x10000) :
    Fin.ofNat n ((m + 0x10000 * i.val + o - m) / 0x10000) = i := by
  have hdiv : (m + 0x10000 * i.val + o - m) / 0x10000 = i.val := by omega
  rw [hdiv, Fin.ofNat_val_eq_self]

theorem tileBlk_til (t : Fin 8) {o : Nat} (ho : o < 0x100000) : tileBlk t o = some (.til t, o) := by
  simp only [tileBlk, ho, if_true]

theorem tileBlk_opt (q : PortId) {o : Nat} (ho : o < 0x10000) :
    tileBlk q.tile (0x100000 + 0x10000 * q.p.val + o) = some (.opt q, o) := by
  have hp := q.p.isLt
  have hm : (0x100000 + 0x10000 * q.p.val + o) % 0x10000 = o := by omega
  unfold tileBlk
  rw [if_neg (by omega), if_pos (by omega), slot_ofNat q.p _ ho, hm]

theorem tileBlk_lnd (t : Fin 8) {o : Nat} (ho : o < 0x10000) : tileBlk t (0x180000 + o) = some (.lnd t, o) := by
  have hm : (0x180000 + o) % 0x10000 = o := by omega
  unfold tileBlk
  rw [if_neg (by omega), if_neg (by omega), if_pos (by omega), hm]

theorem tileBlk_hbc (t : Fin 8) (i : Fin 3) {o : Nat} (ho : o < 0x10000) :
    tileBlk t (0x400000 + 0x10000 * i.val + o) = some (.hbc t i, o) := by
  have hi := i.isLt
  have hm : (0x400000 + 0x10000 * i.val + o) % 0x10000 = o := by omega
  unfold tileBlk
  rw [if_neg (by omega), if_neg (by omega), if_neg (by omega), if_pos (by omega), slot_ofNat i _ ho, hm]

theorem tileBlk_lpc (t : Fin 8) (i : Fin 4) {o : Nat} (ho : o < 0x10000) :
    tileBlk t (0x500000 + 0x10000 * i.val + o) = some (.lpc t i, o) := by
  have hi := i.isLt
  have hm : (0x500000 + 0x10000 * i.val + o) % 0x10000 = o := by omega
  unfold tileBlk
  rw [if_neg (by omega), if_neg (by omega), if_neg (by omega), if_neg (by omega), if_pos (by omega), slot_ofNat i _ ho, hm]

theorem tileBlk_cluster (c : ClusterId) {o : Nat} (ho : o < 0xC000) :
    tileBlk c.tile (0x1000000 + 0x10000 * c.idx.val + o) = some (clusterBlk c o) := by
  have hi := c.idx.isLt
  have hm : (0x1000000 + 0x10000 * c.idx.val + o) % 0x10000 = o := by omega
  unfold tileBlk
  rw [if_neg (by omega), if_neg (by omega), if_neg (by omega), if_neg (by omega), if_neg (by omega), if_pos (by omega),
    slot_ofNat c.idx _ (by omega), hm]

/-- An offset from a cluster's base decodes within that cluster. -/
theorem blkOfAddr_clusterBase_add (c : ClusterId) {o : Nat} (ho : o < 0xC000) :
    blkOfAddr (clusterBase c + o) = some (clusterBlk c o) := by
  have hi := c.idx.isLt
  rw [show clusterBase c + o = tileBase c.tile + (0x1000000 + 0x10000 * c.idx.val + o) by unfold clusterBase; omega,
    blkOfAddr_tileBase_add _ (by omega), tileBlk_cluster c ho]

theorem clusterBlk_cor (k : CoreId) {o : Nat} (ho : o < 0x400) :
    clusterBlk ⟨k.tile, k.idx⟩ (0x8000 + 0x400 * k.core.val + o) = (.cor k, o) := by
  have hdiv : (0x8000 + 0x400 * k.core.val + o - 0x8000) / 0x400 = k.core.val := by omega
  have hm : (0x8000 + 0x400 * k.core.val + o - 0x8000) % 0x400 = o := by omega
  unfold clusterBlk
  rw [if_neg (by omega), if_neg (by omega), if_neg (by omega), if_neg (by omega), if_neg (by omega), hdiv, hm,
    Fin.ofNat_val_eq_self]

/-! ## Every block's addresses -/

theorem blkOfAddr_base_add (b : Blk) {o : Nat} (ho : o < b.span) : blkOfAddr (b.base + o) = some (b, o) := by
  cases b <;> simp only [Blk.span] at ho
  case til t => rw [Blk.base, blkOfAddr_tileBase_add t (by omega), tileBlk_til t ho]
  case opt q =>
    have hp := q.p.isLt
    rw [Blk.base, show 0x100000 + (tileBase q.tile + 0x10000 * q.p.val) + o = tileBase q.tile + (0x100000 + 0x10000 * q.p.val + o) by omega,
      blkOfAddr_tileBase_add _ (by omega), tileBlk_opt q ho]
  case lnd t =>
    rw [Blk.base, show 0x180000 + tileBase t + o = tileBase t + (0x180000 + o) by omega, blkOfAddr_tileBase_add t (by omega),
      tileBlk_lnd t ho]
  case hbc t i =>
    have hi := i.isLt
    rw [Blk.base, show 0x400000 + (tileBase t + 0x10000 * i.val) + o = tileBase t + (0x400000 + 0x10000 * i.val + o) by omega,
      blkOfAddr_tileBase_add t (by omega), tileBlk_hbc t i ho]
  case lpc t i =>
    have hi := i.isLt
    rw [Blk.base, show 0x500000 + (tileBase t + 0x10000 * i.val) + o = tileBase t + (0x500000 + 0x10000 * i.val + o) by omega,
      blkOfAddr_tileBase_add t (by omega), tileBlk_lpc t i ho]
  case clu c => rw [Blk.base, blkOfAddr_clusterBase_add c (by omega), clusterBlk, if_pos ho]
  case cor k =>
    have hk := k.core.isLt
    rw [Blk.base, show 0x8000 + (clusterBase ⟨k.tile, k.idx⟩ + 0x400 * k.core.val) + o =
        clusterBase ⟨k.tile, k.idx⟩ + (0x8000 + 0x400 * k.core.val + o) by omega,
      blkOfAddr_clusterBase_add _ (by omega), clusterBlk_cor k ho]
  case cru c | skd c | sil c | cch c =>
    rw [Blk.base, Nat.add_right_comm, Nat.add_comm, blkOfAddr_clusterBase_add c (by omega), clusterBlk]
    repeat rw [if_neg (by omega)]
    rw [if_pos (by omega), Nat.add_sub_cancel_left]
  case mbx => rw [Blk.base, blkOfAddr, if_neg (by omega), if_neg (by omega), if_pos (by omega), Nat.add_sub_cancel_left]
  case glb | ftb | fo | lko | blz | tly | rng | pwr =>
    rw [Blk.base, blkOfAddr]
    repeat rw [if_neg (by omega)]
    rw [if_pos (by omega)]
    congr 2
    omega

/-! ## The register file right after reset -/

/-- Within a block's span every register holds the reset value of its table row. -/
theorem State.reg_reset (b : Blk) {o : Nat} (ho : o < b.span) : State.reset.reg b o = b.resetOf o % 2 ^ 32 := by
  have hdec := blkOfAddr_base_add b ho
  change (resetAt (b.base + o)).toNat = _
  simp only [resetAt, hdec, BitVec.toNat_ofNat]

theorem State.not_coreRunning_reset (k : CoreId) : State.reset.coreRunning k = false := by
  have hstate : State.reset.reg (.cor k) COR_STATE = 0 := (State.reg_reset (.cor k) (by decide : COR_STATE < 0x400)).trans rfl
  simp [State.coreRunning, State.flag, hstate, bit]

/-- Settles O7: the reset state lists no register and no job, so a register reads the reset value of the row that its address
decodes to and every slot is empty; with standby power off no block is powered. -/
theorem resetStateIsStandbyOff : Obligations.ResetStateIsStandbyOff := by
  refine ⟨rfl, rfl, rfl, rfl, rfl, rfl, fun _ => rfl, fun _ => rfl, fun _ => ⟨rfl, rfl⟩, ?trip, ?throttle, fun t i => ?cfg,
    fun k => ?wdog, State.not_coreRunning_reset⟩
  case trip => exact (State.reg_reset .pwr (by decide)).trans rfl
  case throttle => exact (State.reg_reset .pwr (by decide)).trans rfl
  case cfg => exact (State.reg_reset (.hbc t i) (by decide : HBC_CFG < 0x10000)).trans rfl
  case wdog => exact (State.reg_reset (.cor k) (by decide : SYN_WDOG < 0x400)).trans rfl

end Sys2Proof.Machine
end

section
/-! The numbering of a haul's groups (R85, R86): each key has one group, null and invalid entries have group 0. -/
namespace Sys2Proof.Machine

/-! ## Searching with a running index -/

theorem findIdx?_eq_some {α : Type} {p : α → Bool} {l : List α} {i g : Nat} {x : α} (h : findIdx? p l i = some (g, x)) :
    i ≤ g ∧ l[g - i]? = some x ∧ p x = true := by
  induction l generalizing i with
  | nil => simp [findIdx?] at h
  | cons y t ih =>
    by_cases hy : p y = true
    · simp only [findIdx?, hy, if_true, Option.some.injEq, Prod.mk.injEq] at h
      obtain ⟨rfl, rfl⟩ := h
      simp [hy]
    · simp only [findIdx?, hy] at h
      obtain ⟨hle, hget, hp⟩ := ih h
      refine ⟨by omega, ?_, hp⟩
      rwa [show g - i = g - (i + 1) + 1 by omega, List.getElem?_cons_succ]

theorem findIdx?_eq_none {α : Type} {p : α → Bool} {l : List α} {i : Nat} (h : findIdx? p l i = none) : ∀ x ∈ l, p x = false := by
  induction l generalizing i with
  | nil => simp
  | cons y t ih =>
    by_cases hy : p y = true
    · simp [findIdx?, hy] at h
    · simp only [findIdx?, hy] at h
      simpa [hy] using ih h

/-! ## What a numbering holds of the entries it has taken -/

/-- Is a source entry invalid (R85)? -/
def Entry.isBad : Entry → Bool
  | .bad _ => true
  | _ => false

/-- `g` is the number of an entry: the place of its key among the keys, counted from 1; 0 for one without a key. -/
def Numbering.Names (n : Numbering) (e : Entry) (g : Nat) : Prop :=
  match e with
  | .key k _ _ _ _ => 1 ≤ g ∧ n.keys[g - 1]? = some k
  | _ => g = 0

/-- The numbering after the entries `f` of the indices `d`. -/
structure Numbering.Numbers (rows : Nat) (f : Nat → Entry) (d : List Nat) (n : Numbering) : Prop where
  groups : n.keys.length = n.groups.length
  bound : n.keys.length < rows
  nodup : n.keys.Nodup
  count : n.sentinel + n.beyond = d.countP fun i => (f i).isBad
  length : d.length = n.map.length
  names : ∀ p ∈ d.zip n.map, n.Names (f p.1) p.2

section Numbered
variable {rows : Nat} {f : Nat → Entry} {d : List Nat} {n m : Numbering}

/-- A number once given stays the entry's number while keys are appended. -/
theorem Numbering.Names.append {e : Entry} {g : Nat} (h : n.Names e g) {t : List Nat} (hk : m.keys = n.keys ++ t) : m.Names e g := by
  cases e with
  | null | bad => exact h
  | key k =>
    obtain ⟨hg, hget⟩ := h
    refine ⟨hg, ?_⟩
    rw [hk, List.getElem?_append_left (List.getElem?_eq_some_iff.mp hget).1, hget]

/-- The entries of a list and their numbers, one more of each. -/
theorem Numbering.names_snoc (hl : d.length = n.map.length) {e : Nat → Entry} {i g : Nat}
    (h : ∀ p ∈ d.zip n.map, m.Names (e p.1) p.2) (hg : m.Names (e i) g) :
    ∀ p ∈ (d ++ [i]).zip (n.map ++ [g]), m.Names (e p.1) p.2 := by
  intro p hp
  rw [List.zip_append hl, List.mem_append] at hp
  obtain hp | hp := hp
  · exact h p hp
  · obtain rfl := List.mem_singleton.mp hp
    exact hg

/-- An entry that needs no new key takes a number. -/
theorem Numbering.Numbers.snoc_same (h : n.Numbers rows f d) {i g a b : Nat}
    (hc : a + b = n.sentinel + n.beyond + if (f i).isBad then 1 else 0) (hg : n.Names (f i) g) :
    Numbering.Numbers rows f (d ++ [i]) { n with map := n.map ++ [g], sentinel := a, beyond := b } where
  groups := h.groups
  bound := h.bound
  nodup := h.nodup
  count := by simp only [hc, h.count, List.countP_append, List.countP_singleton]
  length := by simp only [List.length_append, List.length_singleton, h.length]
  names := Numbering.names_snoc h.length h.names hg

/-- An entry with a key not seen before takes the next number. -/
theorem Numbering.Numbers.snoc_new (h : n.Numbers rows f d) {i k : Nat} {mine : Bool} {o j r : Nat} {x : SkdGroup}
    (he : f i = .key k mine o j r) (hk : k ∉ n.keys) (hr : n.keys.length + 1 ≠ rows) :
    Numbering.Numbers rows f (d ++ [i])
      { n with map := n.map ++ [n.keys.length + 1], keys := n.keys ++ [k], groups := n.groups ++ [x] } where
  groups := by simp [h.groups]
  bound := by
    have := h.bound
    simp only [List.length_append, List.length_singleton]
    omega
  nodup := List.nodup_append.mpr ⟨h.nodup, List.pairwise_singleton .., fun a ha b hb hab =>
    hk (List.mem_singleton.mp hb ▸ hab ▸ ha)⟩
  count := by simp [h.count, List.countP_append, he, Entry.isBad]
  length := by simp only [List.length_append, List.length_singleton, h.length]
  names := by
    refine Numbering.names_snoc h.length (fun p hp => (h.names p hp).append rfl) ?_
    rw [he]
    exact ⟨Nat.le_add_left .., List.getElem?_concat_length⟩

/-- Each entry that takes its group keeps what the numbering holds. -/
theorem Numbering.Numbers.add (h : n.Numbers rows f d) {i : Nat} (ha : n.add rows i (f i) = some m) :
    m.Numbers rows f (d ++ [i]) := by
  cases he : f i with
  | null =>
    simp only [he, Numbering.add, Option.some.injEq] at ha
    subst ha
    exact h.snoc_same (by simp [he, Entry.isBad]) (by simp [he, Numbering.Names])
  | bad why =>
    cases why <;> simp only [he, Numbering.add, Option.some.injEq] at ha <;> subst ha <;>
      exact h.snoc_same (by simp only [he, Entry.isBad, if_true]; omega) (by simp [he, Numbering.Names])
  | key k mine o j r =>
    simp only [he, Numbering.add] at ha
    cases hf : findIdx? (· == k) n.keys 1 with
    | some p =>
      obtain ⟨g, y⟩ := p
      obtain ⟨hg, hget, hy⟩ := findIdx?_eq_some hf
      simp only [hf, Option.some.injEq] at ha
      subst ha
      refine h.snoc_same (by simp [he, Entry.isBad]) ?_
      rw [he]
      exact ⟨hg, by rw [hget, beq_iff_eq.mp hy]⟩
    | none =>
      have hk : k ∉ n.keys := fun hmem => by simpa using findIdx?_eq_none hf k hmem
      by_cases hr : n.keys.length + 1 = rows
      · simp [hf, hr] at ha
      · simp only [hf, hr, if_false, Option.some.injEq] at ha
        subst ha
        exact h.snoc_new he hk hr

theorem Numbering.Numbers.addAll {l : List Nat} (h : n.Numbers rows f d) (ha : Numbering.addAll rows f l n = (m, false)) :
    m.Numbers rows f (d ++ l) := by
  induction l generalizing d n with
  | nil =>
    simp only [Numbering.addAll, Prod.mk.injEq, and_true] at ha
    simpa [← ha] using h
  | cons i t ih =>
    cases hm : n.add rows i (f i) with
    | none => simp [Numbering.addAll, hm] at ha
    | some p =>
      simp only [Numbering.addAll, hm] at ha
      simpa using ih (h.add hm) ha

theorem Numbering.numbers_empty (hr : 1 ≤ rows) (f : Nat → Entry) : Numbering.Numbers rows f [] ⟨[], [], [], 0, 0⟩ :=
  ⟨rfl, hr, .nil, rfl, rfl, nofun⟩

/-! ## Reading the numbers -/

theorem Numbering.Numbers.names_at (h : n.Numbers rows f d) {i x g : Nat} (hx : d[i]? = some x) (hg : n.map[i]? = some g) :
    n.Names (f x) g := by
  have hz : (d.zip n.map)[i]? = some (x, g) := List.getElem?_zip_eq_some.mpr ⟨hx, hg⟩
  exact h.names (x, g) (List.mem_of_getElem? hz)

/-- Among keys without repeats two numbers agree exactly if the keys they name agree. -/
theorem Numbering.Names.eq_iff {g h k k' : Nat} {a a' : Bool} {o o' j j' r r' : Nat} (hn : n.keys.Nodup)
    (hg : n.Names (.key k a o j r) g) (hh : n.Names (.key k' a' o' j' r') h) : g = h ↔ k = k' := by
  obtain ⟨hg1, hgk⟩ := hg
  obtain ⟨hh1, hhk⟩ := hh
  constructor
  · rintro rfl
    exact Option.some.inj (hgk.symm.trans hhk)
  · rintro rfl
    have hlt := (List.getElem?_eq_some_iff.mp hgk).1
    have := (List.getElem?_inj hlt hn).mp (hgk.trans hhk.symm)
    omega

end Numbered

/-- Settles O40: what `Numbering.Numbers` says holds of the empty numbering and each entry keeps it. -/
theorem haulNumberingGivesEachKeyOneGroup : Obligations.HaulNumberingGivesEachKeyOneGroup := by
  intro rows f l n hr ha
  have h : n.Numbers rows f l := (Numbering.numbers_empty hr f).addAll ha
  refine ⟨h.length.symm, h.groups, h.groups ▸ h.bound, ?count, fun i x g hx hg => ?number⟩
  case count =>
    rw [h.count]
    refine List.countP_congr fun i _ => ?_
    cases f i <;> rfl
  case number =>
    have hn := h.names_at hx hg
    cases he : f x with
    | null | bad => simpa [he, Numbering.Names] using hn
    | key k mine o j r =>
      rw [he] at hn
      have ⟨hg1, hgk⟩ : 1 ≤ g ∧ n.keys[g - 1]? = some k := hn
      have hlt : g - 1 < n.keys.length := (List.getElem?_eq_some_iff.mp hgk).1
      refine ⟨hg1, by have := h.groups; omega, hgk, fun i' y g' k' _ _ _ _ hy hfy hg' => ?_⟩
      exact Numbering.Names.eq_iff h.nodup hn (hfy ▸ h.names_at hy hg')

end Sys2Proof.Machine
end

section
/-! What logging, faults and the reads of a unit leave alone (R153, R423, R444). -/
namespace Sys2Proof.Machine

/-! ## Registers of different blocks -/

theorem Blk.base_add_ne {b c : Blk} (h : b ≠ c) {o p : Nat} (ho : o < b.span) (hp : p < c.span) : b.base + o ≠ c.base + p := by
  intro he
  have hd : some (b, o) = some (c, p) := by rw [← blkOfAddr_base_add b ho, he, blkOfAddr_base_add c hp]
  simp only [Option.some.injEq, Prod.mk.injEq] at hd
  exact h hd.1

/-! ## Logging and job faults -/

/-- Logging an event changes Tally, its count of lost entries and the free values taken. -/
theorem State.log_eq (s : State) (b : Blk) (code level : Nat) (args : List Nat) :
    s.log b code level args = { s with regs := (s.log b code level args).regs, tally := (s.log b code level args).tally,
                                       freeCount := s.freeCount + 1 } := by
  simp only [State.log, State.logAs]
  split <;> rfl

@[simp] theorem State.log_mem (s : State) (b : Blk) (code level : Nat) (args : List Nat) : (s.log b code level args).mem = s.mem := by
  rw [State.log_eq]

theorem State.reg_log_other (s : State) {b : Blk} (hb : b ≠ .tly) {o : Nat} (ho : o < b.span) (src : Blk) (code level : Nat)
    (args : List Nat) : (s.log src code level args).reg b o = s.reg b o := by
  simp only [State.log, State.logAs]
  split
  · rfl
  · exact State.reg_setReg_other _ _ (Blk.base_add_ne hb ho (by decide))

/-- A job fault of a cluster changes the job slots alone. -/
theorem State.faultCluster_eq (s : State) (c : ClusterId) (code src : Nat) (blazed : Bool) :
    s.faultCluster c code src blazed = { s with jobs := (s.faultCluster c code src blazed).jobs } := by
  simp only [State.faultCluster, State.faultSlot]
  repeat' split
  all_goals rfl

/-! ## The units' own states -/

/-- `t` has the mailrooms, Cruisers, Skidders and Sillages of `s`. -/
structure UnitsKept (s t : State) : Prop where
  mailrooms : t.mailrooms = s.mailrooms
  cruisers : t.cruisers = s.cruisers
  skidders : t.skidders = s.skidders
  sillages : t.sillages = s.sillages

section Kept
variable {s t : State}

theorem UnitsKept.refl (s : State) : UnitsKept s s := ⟨rfl, rfl, rfl, rfl⟩

theorem UnitsKept.mailroom (h : UnitsKept s t) (c : ClusterId) : t.mailroom c = s.mailroom c := by
  simp only [State.mailroom, h.mailrooms]

theorem UnitsKept.skidder (h : UnitsKept s t) (c : ClusterId) : t.skidder c = s.skidder c := by
  simp only [State.skidder, h.skidders]

theorem UnitsKept.sillage (h : UnitsKept s t) (c : ClusterId) : t.sillage c = s.sillage c := by
  simp only [State.sillage, h.sillages]

theorem UnitsKept.setReg (h : UnitsKept s t) (b : Blk) (o v : Nat) : UnitsKept s (t.setReg b o v) := { h with }
theorem UnitsKept.setCluster (h : UnitsKept s t) (c : ClusterId) (v : Cluster) : UnitsKept s (t.setCluster c v) := { h with }
theorem UnitsKept.writeBytes (h : UnitsKept s t) (a : Nat) (l : List Byte) : UnitsKept s (t.writeBytes a l) := { h with }

theorem UnitsKept.log (h : UnitsKept s t) (b : Blk) (code level : Nat) (args : List Nat) :
    UnitsKept s (t.log b code level args) := by
  rw [State.log_eq]
  exact { h with }

theorem UnitsKept.faultCluster (h : UnitsKept s t) (c : ClusterId) (code src : Nat) (blazed : Bool) :
    UnitsKept s (t.faultCluster c code src blazed) := by
  rw [State.faultCluster_eq]
  exact { h with }

theorem UnitsKept.freeBytes (h : UnitsKept s t) (n : Nat) : UnitsKept s (State.freeBytes n t).2 := by
  induction n generalizing t with
  | zero => exact h
  | succ n ih => exact ih { h with }

theorem UnitsKept.dramCorrected (h : UnitsKept s t) (a : Nat) : UnitsKept s (t.dramCorrected a) := by
  unfold State.dramCorrected
  split
  · exact h.setReg ..
  · exact h

theorem UnitsKept.dramUncorrectable (h : UnitsKept s t) (a arg : Nat) : UnitsKept s (t.dramUncorrectable a arg) := by
  unfold State.dramUncorrectable
  split
  · exact (((h.setReg ..).setReg ..).setReg ..).log ..
  · exact h

/-- What the memory path finds on a read changes no unit. -/
theorem UnitsKept.lineError (h : UnitsKept s t) (c : ClusterId) (a : Nat) (e : LineErr) : UnitsKept s (t.lineError c a e).1 := by
  unfold State.lineError
  split
  · exact h
  cases e with
  | none => exact h
  | dramCorrected =>
    dsimp only
    split
    · exact h
    · exact h.dramCorrected _
  | dramUncorrectable =>
    dsimp only
    split
    · exact h
    · exact (h.dramUncorrectable ..).setCluster ..
  | cacheSingle =>
    dsimp only
    split
    · exact (h.setReg ..).setReg ..
    · exact h
  | cacheDouble =>
    dsimp only
    split
    · exact h
    split
    · exact (h.setReg ..).setReg ..
    · exact ((((((h.setReg ..).log ..).faultCluster ..).freeBytes _).writeBytes ..).setCluster ..)

theorem UnitsKept.windowEcc (h : UnitsKept s t) (l : List (Nat × Nat)) (e : Ecc) : UnitsKept s (t.windowEcc l e).1 := by
  unfold State.windowEcc
  split
  · exact h.setReg ..
  · exact h

/-- What protection finds in the reads of a unit changes no unit. -/
theorem UnitsKept.unitRead (h : UnitsKept s t) (b : Blk) (c : ClusterId) (l : List (Nat × Nat)) (e : Ecc) :
    UnitsKept s (t.unitRead b c l e).1 := by
  unfold State.unitRead
  split
  · exact (h.log ..).faultCluster ..
  split
  · exact h.faultCluster ..
  split
  · split
    · dsimp only
      split
      · exact (h.lineError ..).faultCluster ..
      · exact h.lineError ..
    · exact h
  · exact h.windowEcc ..

/-- Whether the Skidder may dequeue depends on the Skidder and its trails alone. -/
theorem UnitsKept.skdFree (h : UnitsKept s t) (c : ClusterId) : t.skdFree c = s.skdFree c := by
  simp only [State.skdFree, State.trailWaits, State.trail?, h.skidder, h.sillage]

end Kept

/-! ## The reads of a unit -/

section Reads
variable {s : State} {l : List (Nat × Nat)}

theorem State.unitRead_ok (h : s.lostIn l = false) (b : Blk) (c : ClusterId) : s.unitRead b c l .ok = (s, false) := by
  simp [State.unitRead, State.windowEcc, eccLost, eccMended, h]

theorem State.unitRead_lost (h : s.lostIn l = true) (b : Blk) (c : ClusterId) :
    s.unitRead b c l .ok = (s.faultCluster c 0x4012 b.base false, true) := by
  simp [State.unitRead, eccLost, h]

theorem Cluster.dirtyLine_eq_false {v : Cluster} {a : Nat} (h : v.hasLine a = false) : v.dirtyLine a = false := by
  simp only [Cluster.hasLine, Cluster.dirtyLine, List.any_eq_false, Bool.and_eq_true] at h ⊢
  exact fun x hx hd => h x hx hd.1

/-- The reader of an uncorrectable beat of DRAM receives an error, whichever cluster lost a copy of the line (R160, R444). -/
theorem State.lineError_dramUncorrectable {c : ClusterId} {a : Nat} (hm : (memCtl a).isSome = true)
    (hl : (s.cluster c).hasLine a = false) : (s.lineError c a .dramUncorrectable).2 = true := by
  unfold State.lineError
  split
  · rfl
  · simp [Cluster.dirtyLine_eq_false hl, hm]

theorem State.unitRead_uncorrectable {c : ClusterId} {n a : Nat} (h : s.lostIn l = false) (ha : lineAt l n = some a)
    (hm : (memCtl a).isSome = true) (hl : (s.cluster c).hasLine a = false) (b : Blk) :
    s.unitRead b c l (.line n .dramUncorrectable) =
      ((s.lineError c a .dramUncorrectable).1.faultCluster c 0x4002 b.base false, true) := by
  simp [State.unitRead, eccLost, h, ha, State.lineError_dramUncorrectable hm hl]

end Reads

end Sys2Proof.Machine
end

section
/-! The Skidder's commands (R83 to R104). -/
namespace Sys2Proof.Machine
section Commands
variable {s : State} {c : ClusterId}

/-! ## HAUL_DESCRIPTOR_START (R79, R83) -/

theorem State.unreported_iff (d : SkdDesc) : State.unreported d = true ↔
    d.report % 64 ≠ 0 ∨ 2 ^ 48 ≤ d.report ∨ rangeBacked d.report (64 + 4 * d.count) = false := by
  simp [State.unreported, or_assoc]

/-- The descriptor's reads come first: with an error among them nothing starts. -/
theorem exec_haulDescriptorStart (s : State) (c : ClusterId) (f : Ecc) :
    exec (.haulDescriptorStart ⟨c, f⟩) s =
      let x := s.unitRead (.skd c) c (s.skdReads c) f
      .next (if x.2 then x.1 else x.1.skdStart c) := rfl

theorem exec_haulDescriptorStart_error {f : Ecc} (hx : (s.unitRead (.skd c) c (s.skdReads c) f).2 = true) :
    exec (.haulDescriptorStart ⟨c, f⟩) s = .next (s.unitRead (.skd c) c (s.skdReads c) f).1 := by
  simp [exec_haulDescriptorStart, hx]

theorem exec_haulDescriptorStart_read {f : Ecc} (hx : (s.unitRead (.skd c) c (s.skdReads c) f).2 = false) :
    exec (.haulDescriptorStart ⟨c, f⟩) s = .next ((s.unitRead (.skd c) c (s.skdReads c) f).1.skdStart c) := by
  simp [exec_haulDescriptorStart, hx]

/-- The state in which the Skidder has read its first descriptor and taken it from its queue, which leaves `l`. -/
def State.skdTaken (s : State) (c : ClusterId) (l : List Nat) : State :=
  (s.readRanges c (s.skdReads c)).setSkidder c { s.skidder c with queue := l }

/-- A descriptor opens its trail if it asks for one. -/
def State.skdOpened (s : State) (c : ClusterId) (d : SkdDesc) : State × Option Nat :=
  if d.trail && !d.prefetch then s.openTrail c d else (s, none)

/-- The last descriptor of a step closes the step's hauls. -/
def State.skdClosed (s : State) (c : ClusterId) (d : SkdDesc) : State :=
  if d.last && !d.prefetch then s.closeHauls c d.step else s

section Start
variable {a : Nat} {l : List Nat} {d : SkdDesc} {o : State × Option Nat}

/-- A descriptor without a usable report address gives its trail back and faults the job. -/
theorem State.skdStart_unreported (hq : (s.skidder c).queue = a :: l) (hf : s.skdFree c = true)
    (hd : d = (s.skdTaken c l).skdDesc a) (ho : o = (s.skdTaken c l).skdOpened c d) (hu : State.unreported d = true) :
    s.skdStart c =
      (((o.2.map fun i => ((o.1.setFlag (.skd c) SKD_STATUS 1).log (.skd c) 0x2103 3 (lohi a)).releaseTrail c i).getD
          ((o.1.setFlag (.skd c) SKD_STATUS 1).log (.skd c) 0x2103 3 (lohi a))).faultCluster c 0x2103 (Blk.skd c).base
            false |>.skdClosed c d).skdKick c := by
  obtain ⟨r, t⟩ := o
  simp only [State.skdTaken, State.skdOpened] at hd ho
  simp only [State.skdStart, hq, hf, ← hd, ← ho, hu, State.skdClosed]
  cases t <;> rfl

theorem State.skdStart_checked {n : Nat} {t : Table} {p : Option SkdPool} (hq : (s.skidder c).queue = a :: l)
    (hf : s.skdFree c = true) (hd : d = (s.skdTaken c l).skdDesc a) (ho : o = (s.skdTaken c l).skdOpened c d)
    (hu : State.unreported d = false) (hc : o.1.haulCheck c d = (n, t, p)) :
    s.skdStart c = ((if n = 0 then o.1.beginHaul c d t p o.2 else o.1.skdRefuse c d n o.2).skdClosed c d).skdKick c := by
  simp only [State.skdTaken, State.skdOpened] at hd ho
  simp only [State.skdStart, hq, hf, ← hd, ← ho, hu, hc, State.skdClosed]
  cases n <;> rfl

end Start

/-! ## PAGE_ACCESS_DONE (R90) -/

section Page
variable {a : Nat} {i : Fin 1024} {e found : Ecc}

theorem exec_pageAccessDone (ha : (s.skidder c).running[i.val]? = some a) :
    exec (.pageAccessDone c i found e) s =
      let x := s.unitRead (.skd c) c ((s.skidder c).pageReads a) found
      .next (if x.2 then x.1 else x.1.pageDone c i.val a e) := by
  change execPageAccessDone c i found e s = _
  simp only [execPageAccessDone, ha]

theorem exec_pageAccessDone_error (ha : (s.skidder c).running[i.val]? = some a)
    (hx : (s.unitRead (.skd c) c ((s.skidder c).pageReads a) found).2 = true) :
    exec (.pageAccessDone c i found e) s = .next (s.unitRead (.skd c) c ((s.skidder c).pageReads a) found).1 := by
  simp [exec_pageAccessDone ha, hx]

theorem exec_pageAccessDone_ok (ha : (s.skidder c).running[i.val]? = some a)
    (hl : s.lostIn ((s.skidder c).pageReads a) = false) :
    exec (.pageAccessDone c i .ok e) s = .next (s.pageDone c i.val a e) := by
  simp [exec_pageAccessDone ha, State.unitRead_ok hl]

end Page

/-! ## ROW_READ_RESTART, TRAIL_SPACE_ALLOCATE, TRAIL_SPACE_TIMEOUT (R104, R132) -/

theorem exec_rowReadRestart (s : State) (c : ClusterId) (i : Nat) : exec (.rowReadRestart c i) s = .next (s.rowRestart c i) := rfl

theorem State.rowRestart_stale {i : Nat} {x : RowRead} (hx : (s.skidder c).reads[i]? = some x) (ho : s.stale x = true) :
    s.rowRestart c i =
      ((s.setSkidder c { s.skidder c with reads := (s.skidder c).reads.eraseIdx i }).restartRead c x).skdKick c := by
  simp [State.rowRestart, hx, ho]

theorem State.rowRestart_current {i : Nat} {x : RowRead} (hx : (s.skidder c).reads[i]? = some x) (ho : s.stale x = false) :
    s.rowRestart c i = s := by
  simp [State.rowRestart, hx, ho]

section Trails
variable {x : Trail}

theorem exec_trailSpaceAllocate_waiting (hx : (s.sillage c).trails.find? (·.waiting) = some x) :
    exec (.trailSpaceAllocate c) s = .next ((s.allocTrail c x).skdKick c) := by
  change execTrailSpaceAllocate c s = _
  simp [execTrailSpaceAllocate, hx]

theorem exec_trailSpaceTimeout_over (hx : (s.sillage c).trails.find? (·.waiting) = some x)
    (ho : x.since + s.field (.sil c) SIL_WAIT 0 20 * 1000 < s.clock) :
    exec (.trailSpaceTimeout c) s = .next (((s.releaseTrail c x.id).countLost c x.key).skdKick c) := by
  change execTrailSpaceTimeout c s = _
  simp [execTrailSpaceTimeout, hx, beatsPerUs, ho]

theorem exec_trailSpaceTimeout_within (hx : (s.sillage c).trails.find? (·.waiting) = some x)
    (ho : s.clock ≤ x.since + s.field (.sil c) SIL_WAIT 0 20 * 1000) : exec (.trailSpaceTimeout c) s = .next s := by
  change execTrailSpaceTimeout c s = _
  simp [execTrailSpaceTimeout, hx, beatsPerUs, Nat.not_lt.mpr ho]

end Trails

/-! ## Hauls received (R94) -/

/-- A message at the head of the inbox that the unit looks for is the one it takes. -/
theorem State.takeMsg_head {m : InMsg} {l : List InMsg} (hi : (s.mailroom c).inbox = m :: l) {p : InMsg → Bool} (hp : p m = true) :
    s.takeMsg c p = some (m, s.setMailroom c { s.mailroom c with inbox := l }) := by
  simp [State.takeMsg, hi, hp, dropFirst]

@[simp] theorem State.field_setMailroom (v : Mailroom) (b : Blk) (o lo len : Nat) :
    (s.setMailroom c v).field b o lo len = s.field b o lo len := rfl

@[simp] theorem State.enabled_setMailroom (v : Mailroom) (b : Blk) : (s.setMailroom c v).enabled b = s.enabled b := rfl

theorem exec_haulReceive (s : State) (c : ClusterId) : exec (.haulReceive c) s = .next (s.haulReceive c) := rfl

/-- A haul discarded in form is flagged, counted and logged. -/
theorem State.skdDiscard_false (s : State) (c : ClusterId) (row : Nat) :
    s.skdDiscard c row false = ((s.bump (.skd c) SKD_CNT_HAUL_DISCARD).setFlag (.skd c) SKD_STATUS 3).log (.skd c) 0x2105 2
      [row % 2 ^ 32, row / 2 ^ 32, 0] := rfl

theorem UnitsKept.skdDiscard (s : State) (c : ClusterId) (row : Nat) : UnitsKept s (s.skdDiscard c row false) :=
  (((UnitsKept.refl s).setReg ..).setReg ..).log ..

theorem State.mem_skdDiscard (s : State) (c : ClusterId) (row : Nat) : (s.skdDiscard c row false).mem = s.mem := by
  rw [State.skdDiscard_false, State.log_mem, State.setFlag, State.setField, State.setReg_mem, State.bump, State.setReg_mem]

theorem State.flag_skdDiscard (s : State) (c : ClusterId) (row : Nat) :
    (s.skdDiscard c row false).flag (.skd c) SKD_STATUS 3 = true := by
  rw [State.skdDiscard_false, State.flag, State.reg_log_other _ (by simp) (show SKD_STATUS < 0x1000 by decide)]
  exact State.flag_setFlag _ _ _ (by decide)

theorem State.count_skdDiscard (s : State) (c : ClusterId) (row : Nat) :
    (s.skdDiscard c row false).reg (.skd c) SKD_CNT_HAUL_DISCARD = (s.reg (.skd c) SKD_CNT_HAUL_DISCARD + 1) % 2 ^ 32 := by
  rw [State.skdDiscard_false, State.reg_log_other _ (by simp) (show SKD_CNT_HAUL_DISCARD < 0x1000 by decide), State.setFlag,
    State.reg_setField_off _ _ (by decide), State.reg_bump]

section Receive
variable {m : InMsg} {l : List InMsg}

theorem State.haulReceive_discard (hi : (s.mailroom c).inbox = m :: l) (hu : m.dunit = 1) (h2 : fieldAt m.body 0 1 ≠ 2)
    (h4 : fieldAt m.body 0 1 ≠ 4)
    (h : m.job ≠ s.field (.skd c) SKD_JOB 0 12 ∨ (fieldAt m.body 0 1 = 1 ∨ fieldAt m.body 0 1 = 3) ∧ s.enabled (.skd c) = false) :
    s.haulReceive c =
      (s.setMailroom c { s.mailroom c with inbox := l }).skdDiscard c (fieldAt m.body 48 5) false := by
  rw [State.haulReceive, State.takeMsg_head hi (by simp [hu, h2, h4])]
  by_cases hj : m.job = s.field (.skd c) SKD_JOB 0 12
  · obtain hn | ⟨hk, he⟩ := h
    · exact absurd hj hn
    · have hk' : ¬(fieldAt m.body 0 1 ≠ 1 ∧ fieldAt m.body 0 1 ≠ 3) := by omega
      simp [hj, hk', he]
  · simp [hj]

theorem State.haulReceive_fault (hi : (s.mailroom c).inbox = m :: l) (hu : m.dunit = 1) (h2 : fieldAt m.body 0 1 ≠ 2)
    (h4 : fieldAt m.body 0 1 ≠ 4) (hj : m.job = s.field (.skd c) SKD_JOB 0 12)
    (h : fieldAt m.body 0 1 ≠ 1 ∧ fieldAt m.body 0 1 ≠ 3 ∨ s.enabled (.skd c) = true ∧ requestForm m.body = none) :
    s.haulReceive c =
      (s.setMailroom c { s.mailroom c with inbox := l }).skdDiscard c (fieldAt m.body 48 5) true := by
  rw [State.haulReceive, State.takeMsg_head hi (by simp [hu, h2, h4])]
  by_cases hk : fieldAt m.body 0 1 ≠ 1 ∧ fieldAt m.body 0 1 ≠ 3
  · simp [hj, hk]
  · obtain ⟨he, hr⟩ := h.resolve_left hk
    simp [hj, hk, he, hr]

theorem State.haulReceive_serve (hi : (s.mailroom c).inbox = m :: l) (hu : m.dunit = 1)
    (hk : fieldAt m.body 0 1 = 1 ∨ fieldAt m.body 0 1 = 3) (hj : m.job = s.field (.skd c) SKD_JOB 0 12)
    (he : s.enabled (.skd c) = true) {x : List ((Nat × Nat × Nat) × Nat)} (hr : requestForm m.body = some x) :
    s.haulReceive c = (s.setMailroom c { s.mailroom c with inbox := l }).serveHaul c m x := by
  rw [State.haulReceive, State.takeMsg_head hi (by rcases hk with hk | hk <;> simp [hu, hk])]
  have hk' : ¬(fieldAt m.body 0 1 ≠ 1 ∧ fieldAt m.body 0 1 ≠ 3) := by omega
  simp [hj, hk', he, hr]

/-! ## Replies (R94, R96, R98) -/

/-- The request that a reply answers is outstanding no more. -/
def State.dropSent (s : State) (c : ClusterId) (x : SkdSent) : State :=
  s.setSkidder c { s.skidder c with sent := dropFirst (fun y => y == x) (s.skidder c).sent }

theorem State.rrcOn_dropSent (s : State) (c : ClusterId) (x : SkdSent) : (s.dropSent c x).rrcOn c = s.rrcOn c := rfl

theorem exec_haulReplyReceive (s : State) (c : ClusterId) : exec (.haulReplyReceive c) s = .next (s.haulReplyReceive c) := rfl

theorem State.haulReplyReceive_foreign (hi : (s.mailroom c).inbox = m :: l) (hu : m.dunit = 1)
    (hk : fieldAt m.body 0 1 = 2 ∨ fieldAt m.body 0 1 = 4) (hj : m.job ≠ s.field (.skd c) SKD_JOB 0 12) :
    s.haulReplyReceive c =
      (s.setMailroom c { s.mailroom c with inbox := l }).skdDiscard c (fieldAt m.body 48 5) false := by
  rw [State.haulReplyReceive, State.takeMsg_head hi (by simp [hu, hk])]
  simp [hj]

theorem State.haulReplyReceive_malformed {r : State} (hi : (s.mailroom c).inbox = m :: l) (hu : m.dunit = 1)
    (hk : fieldAt m.body 0 1 = 2) (hj : m.job = s.field (.skd c) SKD_JOB 0 12)
    (hr : r = s.setMailroom c { s.mailroom c with inbox := l })
    (h : ∀ x, r.sentFor c m false = some x → replyForm m.body x = none) :
    s.haulReplyReceive c = r.skdDiscard c (fieldAt m.body 48 5) true := by
  rw [State.haulReplyReceive, State.takeMsg_head hi (by simp [hu, hk]), ← hr]
  have hj' : m.job = r.field (.skd c) SKD_JOB 0 12 := by rw [hr, hj, State.field_setMailroom]
  cases hs : r.sentFor c m false with
  | none => simp [hj', hk, hs]
  | some x => simp [hj', hk, hs, h x hs]

section Reply
variable {r : State} {x : SkdSent} {q : List (SkdAsk × Nat × Nat × List Byte)}

/-- The rows that the unit holds already are taken before the request is dropped, the others after it. -/
theorem State.haulReplyReceive_rows (hi : (s.mailroom c).inbox = m :: l) (hu : m.dunit = 1)
    (hk : fieldAt m.body 0 1 = 2) (hj : m.job = s.field (.skd c) SKD_JOB 0 12)
    (hr : r = s.setMailroom c { s.mailroom c with inbox := l }) (hs : r.sentFor c m false = some x)
    (hq : replyForm m.body x = some q) :
    s.haulReplyReceive c = ((q.filter fun y => y.2.1 != 2).foldl (fun z y => z.takeRecord c y)
      (((q.filter fun y => y.2.1 == 2).foldl (fun z y => z.takeRecord c y) r).dropSent c x)).skdKick c := by
  rw [State.haulReplyReceive, State.takeMsg_head hi (by simp [hu, hk]), ← hr]
  have hj' : m.job = r.field (.skd c) SKD_JOB 0 12 := by rw [hr, hj, State.field_setMailroom]
  simp [hj', hk, hs, hq, State.dropSent]

/-- The answer to a prefetch, before the window of its step opens, fills the row cache alone. -/
theorem State.haulReplyReceive_prefetch (hi : (s.mailroom c).inbox = m :: l) (hu : m.dunit = 1)
    (hk : fieldAt m.body 0 1 = 4) (hj : m.job = s.field (.skd c) SKD_JOB 0 12)
    (hr : r = s.setMailroom c { s.mailroom c with inbox := l }) (hs : r.sentFor c m true = some x)
    (hq : replyForm m.body x = some q) (hon : r.rrcOn c = true)
    (hw : r.haulWindowOpen c.tile m.job (fieldAt m.body 4 4) = false) :
    s.haulReplyReceive c = q.foldl (fun z y =>
      if y.2.1 = 0 then z.rrcFill c y.1.units y.1.ownerIdx y.1.slot y.1.row y.2.2.1 y.2.2.2 else z) (r.dropSent c x) := by
  rw [State.haulReplyReceive, State.takeMsg_head hi (by simp [hu, hk]), ← hr]
  have hj' : m.job = r.field (.skd c) SKD_JOB 0 12 := by rw [hr, hj, State.field_setMailroom]
  have hon' : (r.dropSent c x).rrcOn c = true := by rw [State.rrcOn_dropSent, hon]
  simp only [State.dropSent] at hon'
  simp [← hj', hk, hs, hq, hw, hon', State.dropSent]

end Reply
end Receive
end Commands

/-! ## The obligation -/

/-- Settles O41: command by command, by what each start, access and message does. -/
theorem skidderCommandsRunTheirWork : Obligations.SkidderCommandsRunTheirWork := by
  refine ⟨fun s c f a l hq hf => ?start, fun s c i e a ha => ?page, fun s c i x hx => ?restart, fun s c x hx => ?trail,
    fun s c m l hi hu => ?message⟩
  case start =>
    have hkept := (UnitsKept.refl s).unitRead (.skd c) c (s.skdReads c) f
    rw [← hkept.skidder c] at hq
    rw [← hkept.skdFree c] at hf
    refine ⟨fun hx => exec_haulDescriptorStart_error hx, fun hx => ?read⟩
    rw [exec_haulDescriptorStart_read hx]
    refine ⟨fun hout => congrArg _ (State.skdStart_unreported hq hf rfl rfl ?out),
      fun n t p hout hc => congrArg _ (State.skdStart_checked hq hf rfl rfl ?usable hc)⟩
    case out => exact (State.unreported_iff _).mpr hout
    case usable => exact Bool.eq_false_iff.mpr (mt (State.unreported_iff _).mp hout)
  case page =>
    refine ⟨fun hl => exec_pageAccessDone_ok ha hl, fun hl => ?lost, fun n x hl hn hm hv => ?uncorrectable⟩
    case lost =>
      have hr := State.unitRead_lost hl (.skd c) c
      exact (exec_pageAccessDone_error ha (by rw [hr])).trans (by rw [hr])
    case uncorrectable =>
      have hr := State.unitRead_uncorrectable hl hn hm hv (.skd c)
      refine ⟨_, exec_pageAccessDone_error ha (by rw [hr]), by rw [hr], ?_⟩
      exact ((UnitsKept.refl s).unitRead ..).skidder c
  case restart =>
    rw [exec_rowReadRestart]
    exact ⟨fun ho => by rw [State.rowRestart_stale hx ho], fun ho => by rw [State.rowRestart_current hx ho]⟩
  case trail =>
    exact ⟨exec_trailSpaceAllocate_waiting hx, fun ho => exec_trailSpaceTimeout_over hx ho,
      fun ho => exec_trailSpaceTimeout_within hx ho⟩
  case message =>
    rw [exec_haulReceive, exec_haulReplyReceive]
    refine ⟨fun h2 h4 h => ?discard, fun h2 h4 hj h => by rw [State.haulReceive_fault hi hu h2 h4 hj h],
      fun hk hj he x hr => by rw [State.haulReceive_serve hi hu hk hj he hr],
      fun hk hj => by rw [State.haulReplyReceive_foreign hi hu hk hj],
      fun hk hj h => by rw [State.haulReplyReceive_malformed hi hu hk hj rfl h],
      fun _ hj x q hs hq => ⟨fun hk => ?rows, fun hk hon hw => ?prefetch⟩⟩
    case discard =>
      refine ⟨_, (exec_haulReceive s c).trans (congrArg Host.Outcome.next (State.haulReceive_discard hi hu h2 h4 h)), ?_,
        State.flag_skdDiscard .., State.count_skdDiscard .., (UnitsKept.skdDiscard ..).skidder c, State.mem_skdDiscard ..⟩
      rw [(UnitsKept.skdDiscard ..).mailroom, State.mailroom_setMailroom]
    case rows =>
      rw [hk] at hs
      exact congrArg _ (State.haulReplyReceive_rows hi hu hk hj rfl hs hq)
    case prefetch =>
      rw [hk] at hs
      exact congrArg _ (State.haulReplyReceive_prefetch hi hu hk hj rfl hs hq hon hw)

end Sys2Proof.Machine
end

section
/-! Two contributions to one row in either order of arrival (R117), where the number of their table slot is not one of the eight. -/
namespace Sys2Proof.Machine

/-- A number past the eight table slots, whose SKD_APPLIED would be where its cluster's SIL_STATUS is. -/
def slotAtStatus : Nat := 1003

theorem applied_slotAtStatus (c : ClusterId) : (Blk.skd c).base + SKD_APPLIED slotAtStatus = (Blk.sil c).base + SIL_STATUS := by
  simp only [Blk.base, SKD_APPLIED, SIL_STATUS, slotAtStatus]
  omega

/-- What the home cluster of row 0 reads as the applied step of this slot is its SIL_STATUS. -/
theorem State.reg_applied_slotAtStatus (s : State) (c : ClusterId) :
    s.reg (.skd c) (SKD_APPLIED slotAtStatus) = s.reg (.sil c) SIL_STATUS := by
  rw [State.reg, applied_slotAtStatus, State.reg]

/-- The unit of cluster 0 is enabled with one apply record, for that slot, whose table has room for no row. -/
def noRoomAtStatus : State :=
  let c := homeCluster 0
  ({ State.reset with standbyOn := true, mainOn := true }.setReg (.sil c) BLK_CTRL 1).setSillage c
    { Sillage.reset with applies := [⟨slotAtStatus, 0, 0, 1, 0, 0⟩] }

/-- A contribution of `v` to row 0, in a step that the word 0 holds handed off, read as SKD_APPLIED, and the word 16 does not. -/
def addAtStatus (v : Int) : SilAdd := ⟨⟨2 ^ 31 + 2, slotAtStatus, 0, 1⟩, 0, [v], false, false⟩

theorem stepReady_noRoomAtStatus : noRoomAtStatus.stepReady (homeCluster 0) slotAtStatus (2 ^ 31 + 2) = true := by
  rw [State.stepReady, State.reg_applied_slotAtStatus]
  decide +kernel

/-- The first contribution overflows the table and sets bit 4 of SIL_STATUS; the second one is then early, and held. -/
theorem held_noRoomAtStatus :
    (((noRoomAtStatus.addContribution (addAtStatus 1)).addContribution (addAtStatus 2)).sillage (homeCluster 0)).held =
        [addAtStatus 2] ∧
      (((noRoomAtStatus.addContribution (addAtStatus 2)).addContribution (addAtStatus 1)).sillage (homeCluster 0)).held =
        [addAtStatus 1] := by
  decide +kernel

/-- Refutes O43: the statement bounds no slot number, and the register read as SKD_APPLIED of slot 1003 is SIL_STATUS, in which
the overflow that the first contribution meets sets a flag. Whichever contribution comes second is the one that is held. -/
theorem not_returnSumsDoNotDependOnOrder : ¬ Obligations.ReturnSumsDoNotDependOnOrder := by
  intro ⟨hswap, _⟩
  have hst : (noRoomAtStatus.addContribution (addAtStatus 1)).addContribution (addAtStatus 2) =
      (noRoomAtStatus.addContribution (addAtStatus 2)).addContribution (addAtStatus 1) :=
    hswap _ _ _ rfl rfl (by simp [addAtStatus]) (by simp [addAtStatus]) stepReady_noRoomAtStatus
  obtain ⟨hheld, hheld'⟩ := held_noRoomAtStatus
  rw [hst, hheld'] at hheld
  exact absurd hheld (by decide)

end Sys2Proof.Machine
end

section
/-! What the caches' work and the reads of a unit leave alone (R153, R159, R160), and what a logged event is (R423). -/
namespace Sys2Proof.Machine

/-! ## The work of the cluster caches (R159, R160) -/

/-- `t` comes from `s` by work of the cluster caches: what they hold and the registers of the caches alone may differ. -/
structure CacheMoved (s t : State) : Prop where
  rest : t = { s with regs := t.regs, clusters := t.clusters }
  reg : ∀ (b : Blk) (o : Nat), (∀ c, b ≠ .cch c) → o < b.span → t.reg b o = s.reg b o

section Moved
variable {s t : State}

theorem CacheMoved.refl (s : State) : CacheMoved s s := ⟨rfl, fun _ _ _ _ => rfl⟩

theorem CacheMoved.bump (h : CacheMoved s t) (c : ClusterId) {o : Nat} (ho : o < 0x4000) (n : Nat) :
    CacheMoved s (t.bump (.cch c) o n) where
  rest := congrArg (fun u : State => { u with regs := (t.bump (.cch c) o n).regs, clusters := t.clusters }) h.rest
  reg b p hb hp := (State.reg_setReg_other _ _ (Blk.base_add_ne (hb c) hp ho)).trans (h.reg b p hb hp)

theorem CacheMoved.setCluster (h : CacheMoved s t) (c : ClusterId) (v : Cluster) : CacheMoved s (t.setCluster c v) where
  rest := congrArg (fun u : State => { u with regs := t.regs, clusters := (t.setCluster c v).clusters }) h.rest
  reg := h.reg

theorem CacheMoved.cacheInsert (h : CacheMoved s t) (c : ClusterId) (a : Nat) (x : CacheLine) :
    CacheMoved s (t.cacheInsert c a x) := by
  unfold State.cacheInsert
  dsimp only
  split
  · exact (h.setCluster ..).bump c (by decide) _
  · exact h.setCluster ..

theorem CacheMoved.touch (h : CacheMoved s t) (c : ClusterId) (a : Nat) (write : Bool) : CacheMoved s (t.touch c a write).1 := by
  have hits := h.bump c (show CCH_CNT_HITS < 0x4000 by decide) 1
  unfold State.touch
  split
  · exact h
  split
  · dsimp only
    split
    · exact (hits.bump c (by decide) _).cacheInsert ..
    · exact hits.cacheInsert ..
  · exact (h.bump c (by decide) _).cacheInsert ..

theorem CacheMoved.touchRange (h : CacheMoved s t) (c : ClusterId) (a n : Nat) (write : Bool) :
    CacheMoved s (t.touchRange c a n write) :=
  List.foldlRecOn (motive := CacheMoved s) _ _ h fun _ hu _ _ => hu.touch ..

theorem CacheMoved.readRanges (h : CacheMoved s t) (c : ClusterId) (l : List (Nat × Nat)) : CacheMoved s (t.readRanges c l) :=
  List.foldlRecOn (motive := CacheMoved s) _ _ h fun _ hu _ _ => hu.touchRange ..

theorem CacheMoved.dropLine (h : CacheMoved s t) (c : ClusterId) (a : Nat) : CacheMoved s (t.dropLine c a) := by
  unfold State.dropLine
  dsimp only
  split
  · split
    · exact ((h.setCluster ..).bump c (by decide) _).bump c (by decide) _
    · exact (h.setCluster ..).bump c (by decide) _
  · exact h

theorem CacheMoved.invalidateLine (h : CacheMoved s t) (keep : Option ClusterId) (a : Nat) :
    CacheMoved s (t.invalidateLine keep a) :=
  List.foldlRecOn (motive := CacheMoved s) _ _ h fun _ hu _ _ => by
    split
    · exact hu
    · exact hu.dropLine ..

/-- A write of a unit sets the bytes; the rest is work of the caches. -/
theorem CacheMoved.clusterWrite (s : State) (c : ClusterId) (a : Nat) (l : List Byte) :
    CacheMoved (s.writeBytes a l) (s.clusterWrite c a l) :=
  List.foldlRecOn (motive := CacheMoved _) _ _ ((CacheMoved.refl _).touchRange ..) fun _ hu _ _ => hu.invalidateLine ..

theorem CacheMoved.mem (h : CacheMoved s t) : t.mem = s.mem := by rw [h.rest]

theorem CacheMoved.rd (h : CacheMoved s t) (a n : Nat) : t.rd a n = s.rd a n := by
  rw [State.rd, State.rd, State.readBytes_congr h.mem]

theorem UnitsKept.cacheMoved {u : State} (hk : UnitsKept s t) (h : CacheMoved t u) : UnitsKept s u := by
  rw [h.rest]
  exact { hk with }

/-- The bytes of a backed range are those written, and no other byte changes. -/
theorem State.mem_unitWrite {a : Nat} {l : List Byte} (hb : rangeBacked a l.length = true) (c : ClusterId) :
    (s.unitWrite c a l).mem = ssetMany memDefault s.mem a l := by
  rw [State.unitWrite, if_pos hb, (CacheMoved.clusterWrite ..).mem, State.mem_writeBytes]

end Moved

/-! ## The registers of a Sillage unit -/

/-- `t` is powered as `s` and has the registers of Sillage unit `c` as they are in `s`. -/
structure SilKept (c : ClusterId) (s t : State) : Prop where
  standbyOn : t.standbyOn = s.standbyOn
  mainOn : t.mainOn = s.mainOn
  reg : ∀ o < 0x1000, t.reg (.sil c) o = s.reg (.sil c) o

/-- A memory controller is no Sillage unit. -/
theorem memCtl_span {a : Nat} {b : Blk} (h : memCtl a = some b) : b.span = 0x10000 ∧ ∀ c, Blk.sil c ≠ b := by
  unfold memCtl at h
  split at h
  · cases h
    exact ⟨rfl, nofun⟩
  split at h
  · cases h
    exact ⟨rfl, nofun⟩
  · cases h

section Kept
variable {c : ClusterId} {s t : State}

theorem SilKept.refl (c : ClusterId) (s : State) : SilKept c s s := ⟨rfl, rfl, fun _ _ => rfl⟩

theorem SilKept.enabled (h : SilKept c s t) : t.enabled (.sil c) = s.enabled (.sil c) := by
  simp only [State.enabled, State.powered, State.flag, h.standbyOn, h.mainOn, h.reg BLK_CTRL (by decide)]

theorem SilKept.field (h : SilKept c s t) {o : Nat} (ho : o < 0x1000) (lo len : Nat) :
    t.field (.sil c) o lo len = s.field (.sil c) o lo len := by
  rw [State.field, State.field, h.reg o ho]

theorem SilKept.cacheMoved {u : State} (hk : SilKept c s t) (h : CacheMoved t u) : SilKept c s u where
  standbyOn := by rw [h.rest]; exact hk.standbyOn
  mainOn := by rw [h.rest]; exact hk.mainOn
  reg o ho := (h.reg (.sil c) o (by simp) ho).trans (hk.reg o ho)

theorem SilKept.setReg (h : SilKept c s t) {b : Blk} (hb : .sil c ≠ b) {o : Nat} (ho : o < b.span) (v : Nat) :
    SilKept c s (t.setReg b o v) :=
  { h with reg := fun p hp => (State.reg_setReg_other _ _ (Blk.base_add_ne hb hp ho)).trans (h.reg p hp) }

theorem SilKept.setCluster (h : SilKept c s t) (d : ClusterId) (v : Cluster) : SilKept c s (t.setCluster d v) := { h with }
theorem SilKept.writeBytes (h : SilKept c s t) (a : Nat) (l : List Byte) : SilKept c s (t.writeBytes a l) := { h with }

theorem SilKept.log (h : SilKept c s t) (b : Blk) (code level : Nat) (args : List Nat) :
    SilKept c s (t.log b code level args) where
  standbyOn := by rw [State.log_eq]; exact h.standbyOn
  mainOn := by rw [State.log_eq]; exact h.mainOn
  reg o ho := (State.reg_log_other _ (by simp) ho ..).trans (h.reg o ho)

theorem SilKept.faultCluster (h : SilKept c s t) (d : ClusterId) (code src : Nat) (blazed : Bool) :
    SilKept c s (t.faultCluster d code src blazed) := by
  rw [State.faultCluster_eq]
  exact { h with }

theorem SilKept.freeBytes (h : SilKept c s t) (n : Nat) : SilKept c s (State.freeBytes n t).2 := by
  induction n generalizing t with
  | zero => exact h
  | succ n ih => exact ih { h with }

theorem SilKept.dramCorrected (h : SilKept c s t) (a : Nat) : SilKept c s (t.dramCorrected a) := by
  unfold State.dramCorrected
  split
  next b hb =>
    obtain ⟨hspan, hsil⟩ := memCtl_span hb
    exact h.setReg (hsil c) (by rw [hspan]; decide) _
  · exact h

theorem SilKept.dramUncorrectable (h : SilKept c s t) (a arg : Nat) : SilKept c s (t.dramUncorrectable a arg) := by
  unfold State.dramUncorrectable
  split
  next b hb =>
    obtain ⟨hspan, hsil⟩ := memCtl_span hb
    have hlo := h.setReg (hsil c) (show HBC_ERR_LO < b.span by rw [hspan]; decide) (a / 32 * 32)
    have hhi := hlo.setReg (hsil c) (show HBC_ERR_HI < b.span by rw [hspan]; decide) (a / 32 * 32 / 2 ^ 32 % 2 ^ 16 + 2 ^ 16)
    exact (hhi.setReg (hsil c) (by rw [hspan]; decide) _).log ..
  · exact h

/-- What the memory path finds on a read changes no register of the Sillage unit. -/
theorem SilKept.lineError (h : SilKept c s t) (d : ClusterId) (a : Nat) (e : LineErr) : SilKept c s (t.lineError d a e).1 := by
  have hcch (t : State) (ht : SilKept c s t) (o v : Nat) (ho : o < 0x4000) : SilKept c s (t.setReg (.cch d) o v) :=
    ht.setReg (by simp) ho v
  unfold State.lineError
  split
  · exact h
  cases e with
  | none => exact h
  | dramCorrected =>
    dsimp only
    split
    · exact h
    · exact h.dramCorrected _
  | dramUncorrectable =>
    dsimp only
    split
    · exact h
    · exact (h.dramUncorrectable ..).setCluster ..
  | cacheSingle =>
    dsimp only
    split
    · exact hcch _ (hcch _ h _ _ (by decide)) _ _ (by decide)
    · exact h
  | cacheDouble =>
    dsimp only
    split
    · exact h
    split
    · exact hcch _ (hcch _ h _ _ (by decide)) _ _ (by decide)
    · have hflag : SilKept c s (t.setFlag (.cch d) CCH_STATUS 2) := hcch _ h _ _ (by decide)
      exact ((((hflag.log ..).faultCluster ..).freeBytes _).writeBytes ..).setCluster ..

/-- What protection finds in the reads of a unit changes no register of the Sillage unit. -/
theorem SilKept.unitRead (h : SilKept c s t) (b : Blk) (d : ClusterId) (l : List (Nat × Nat)) (e : Ecc) :
    SilKept c s (t.unitRead b d l e).1 := by
  unfold State.unitRead
  split
  · exact (h.log ..).faultCluster ..
  split
  · exact h.faultCluster ..
  split
  · split
    · dsimp only
      split
      · exact (h.lineError ..).faultCluster ..
      · exact h.lineError ..
    · exact h
  · unfold State.windowEcc
    split
    · exact h.setReg (by simp) (show COR_CNT_SCRATCH_CE < 0x400 by decide) _
    · exact h

end Kept

/-- Where nothing is read there is nothing to find. -/
theorem State.unitRead_nil (s : State) (b : Blk) (c : ClusterId) (e : Ecc) : s.unitRead b c [] e = (s, false) := by
  cases e <;> simp [State.unitRead, State.windowEcc, State.lostIn, eccLost, eccMended, wordAt, lineAt]

/-! ## Logged events -/

theorem length_tallyArrive (e : TallyEntry) (l : List TallyEntry) : (tallyArrive e l).length = l.length + 1 := by
  induction l with
  | nil => rfl
  | cons x l ih =>
    unfold tallyArrive
    split
    · rfl
    · simp [ih]

/-- The entry that block `b` sends to Tally when it logs an event. -/
def State.logEntry (s : State) (b : Blk) (code level : Nat) (args : List Nat) : TallyEntry :=
  { beat := s.beat, cycle := s.free % 2 ^ 32, source := b.base, code := code, level := level, untimed := s.lock != lockLocked,
    repeats := 0, args := (args.map (· % 2 ^ 32) ++ [0, 0, 0]).take 3, inFrame := s.era.1, era := s.era.2, mergeable := false }

theorem State.log_tally (s : State) (b : Blk) (code level : Nat) (args : List Nat) :
    (s.log b code level args).tally =
      { s.tally with queue := (tallyArrive (s.logEntry b code level args) s.tally.queue).take 64,
                     lostSince := s.tally.lostSince + if s.tally.queue.length < 64 then 0 else 1 } := by
  have hlen := length_tallyArrive (s.logEntry b code level args) s.tally.queue
  by_cases h : s.tally.queue.length < 64
  · have hq : (tallyArrive (s.logEntry b code level args) s.tally.queue).length ≤ 64 := by omega
    rw [if_pos h, List.take_of_length_le hq]
    exact congrArg State.tally (if_pos hq)
  · have hq : ¬(tallyArrive (s.logEntry b code level args) s.tally.queue).length ≤ 64 := by omega
    rw [if_neg h]
    exact congrArg State.tally (if_neg hq)

theorem State.logged_log (s : State) (b : Blk) (code level : Nat) (args : List Nat) :
    Logged b code level args s (s.log b code level args) := by
  refine ⟨s.logEntry b code level args, rfl, rfl, rfl, rfl, rfl, ?_⟩
  rw [State.log_tally]
  exact ⟨rfl, rfl⟩

/-- A logged event depends on the state before it by the beat and Tally alone. -/
theorem Logged.congr {b : Blk} {code level : Nat} {args : List Nat} {s r t : State} (h : Logged b code level args r t)
    (hb : r.beat = s.beat) (ht : r.tally = s.tally) : Logged b code level args s t := by
  rw [Logged, hb, ht] at h
  exact h

end Sys2Proof.Machine
end

section
/-! The Sillage unit's commands (R108 to R120). -/
namespace Sys2Proof.Machine
section Commands
variable {s : State} {c : ClusterId}

/-! ## RETRACE_START (R109, R111) -/

theorem Retrace.unreported_iff (d : Retrace) :
    d.unreported = true ↔ d.result % 64 ≠ 0 ∨ 2 ^ 48 ≤ d.result ∨ rangeBacked d.result 64 = false := by
  simp [Retrace.unreported, or_assoc]

/-- The retrace's reads come first: with an error among them nothing starts. -/
theorem exec_retraceStart (s : State) (c : ClusterId) (e : Ecc) :
    exec (.retraceStart c e) s =
      let x := s.unitRead (.sil c) c (s.retraceReads c) e
      .next (if x.2 then x.1 else x.1.retraceStart c) := rfl

theorem exec_retraceStart_error {e : Ecc} (hx : (s.unitRead (.sil c) c (s.retraceReads c) e).2 = true) :
    exec (.retraceStart c e) s = .next (s.unitRead (.sil c) c (s.retraceReads c) e).1 := by
  simp [exec_retraceStart, hx]

theorem exec_retraceStart_read {e : Ecc} (hx : (s.unitRead (.sil c) c (s.retraceReads c) e).2 = false) :
    exec (.retraceStart c e) s = .next ((s.unitRead (.sil c) c (s.retraceReads c) e).1.retraceStart c) := by
  simp [exec_retraceStart, hx]

/-- The state in which the unit has read its first retrace and taken it from its queue, which leaves `l`. -/
def State.retraceTaken (s : State) (c : ClusterId) (l : List Nat) : State :=
  (s.readRanges c (s.retraceReads c)).setSillage c { s.sillage c with queue := l }

section Retraces
variable {a n : Nat} {l : List Nat} {d : Retrace} {r : State}

theorem State.retraceStart_unreported (hq : (s.sillage c).queue = a :: l) (hr : r = s.retraceTaken c l) (hd : d = r.retrace a)
    (hu : d.unreported = true) : s.retraceStart c = (r.refuseRetrace c d 1 false).settleDrop c := by
  rw [State.retraceTaken] at hr
  rw [State.retraceStart, hq]
  dsimp only
  rw [← hr, ← hd, if_pos hu]

theorem State.retraceStart_run {x : Trail} (hq : (s.sillage c).queue = a :: l) (hr : r = s.retraceTaken c l)
    (hd : d = r.retrace a) (hu : d.unreported = false) (hc : r.retraceCheck c d = (0, some x)) :
    s.retraceStart c = (r.runRetrace c d x).settleDrop c := by
  rw [State.retraceTaken] at hr
  rw [State.retraceStart, hq]
  dsimp only
  rw [← hr, ← hd, hu, if_neg Bool.false_ne_true, hc]
  rfl

theorem State.retraceStart_refused {x : Option Trail} (hq : (s.sillage c).queue = a :: l) (hr : r = s.retraceTaken c l)
    (hd : d = r.retrace a) (hu : d.unreported = false) (hn : n ≠ 0) (hc : r.retraceCheck c d = (n, x)) :
    s.retraceStart c = (r.refuseRetrace c d n true).settleDrop c := by
  obtain ⟨m, rfl⟩ := Nat.exists_eq_succ_of_ne_zero hn
  rw [State.retraceTaken] at hr
  rw [State.retraceStart, hq]
  dsimp only
  rw [← hr, ← hd, hu, if_neg Bool.false_ne_true, hc]
  rfl

end Retraces

/-! ## RETURN_BATCH_RECEIVE (R115, R116) -/

theorem exec_returnBatchReceive (s : State) (c : ClusterId) :
    exec (.returnBatchReceive c) s = .next (s.batchReceive c) := rfl

/-- A batch discarded in form is flagged, counted and logged. -/
theorem State.silDiscard_false (s : State) (c : ClusterId) (row : Nat) :
    s.silDiscard c row false = ((s.bump (.sil c) SIL_CNT_DISCARD).setFlag (.sil c) SIL_STATUS 3).log (.sil c) 0x2204 2
      [row % 2 ^ 32, row / 2 ^ 32, 0] := rfl

theorem UnitsKept.silDiscard (s : State) (c : ClusterId) (row : Nat) : UnitsKept s (s.silDiscard c row false) :=
  (((UnitsKept.refl s).setReg ..).setReg ..).log ..

theorem State.mem_silDiscard (s : State) (c : ClusterId) (row : Nat) : (s.silDiscard c row false).mem = s.mem := by
  rw [State.silDiscard_false, State.log_mem, State.setFlag, State.setField, State.setReg_mem, State.bump, State.setReg_mem]

theorem State.flag_log_sil (s : State) (c : ClusterId) {o : Nat} (ho : o < 0x1000) (i code level : Nat) (args : List Nat) :
    (s.log (.sil c) code level args).flag (.sil c) o i = s.flag (.sil c) o i := by
  rw [State.flag, State.flag, State.reg_log_other _ (by simp) ho]

theorem State.flag_silDiscard (s : State) (c : ClusterId) (row : Nat) :
    (s.silDiscard c row false).flag (.sil c) SIL_STATUS 3 = true := by
  rw [State.silDiscard_false, State.flag_log_sil _ _ (by decide)]
  exact State.flag_setFlag _ _ _ (by decide)

theorem State.count_silDiscard (s : State) (c : ClusterId) (row : Nat) :
    (s.silDiscard c row false).reg (.sil c) SIL_CNT_DISCARD = (s.reg (.sil c) SIL_CNT_DISCARD + 1) % 2 ^ 32 := by
  rw [State.silDiscard_false, State.reg_log_other _ (by simp) (show SIL_CNT_DISCARD < 0x1000 by decide), State.setFlag,
    State.reg_setField_off _ _ (by decide), State.reg_bump]

section Receive
variable {m : InMsg} {l : List InMsg}

theorem State.batchReceive_discard (hi : (s.mailroom c).inbox = m :: l) (hu : m.dunit = 2)
    (h : m.job ≠ s.field (.sil c) SIL_JOB 0 12 ∨ s.enabled (.sil c) = false) :
    s.batchReceive c = (s.setMailroom c { s.mailroom c with inbox := l }).silDiscard c (fieldAt m.body 48 5) false := by
  rw [State.batchReceive, State.takeMsg_head hi (by simp [hu])]
  have hd : m.job ≠ s.field (.sil c) SIL_JOB 0 12 ∨ (!s.enabled (.sil c)) = true := by simpa using h
  exact if_pos hd

theorem State.batchReceive_malformed (hi : (s.mailroom c).inbox = m :: l) (hu : m.dunit = 2)
    (hj : m.job = s.field (.sil c) SIL_JOB 0 12) (he : s.enabled (.sil c) = true) (hf : batchForm m.body = none) :
    s.batchReceive c = (s.setMailroom c { s.mailroom c with inbox := l }).silDiscard c (fieldAt m.body 48 5) true := by
  rw [State.batchReceive, State.takeMsg_head hi (by simp [hu])]
  simp [hj, he, hf]

theorem State.batchReceive_forward {x : List (SilSection × Nat × Nat)} {z : State} (hi : (s.mailroom c).inbox = m :: l)
    (hu : m.dunit = 2) (hj : m.job = s.field (.sil c) SIL_JOB 0 12) (he : s.enabled (.sil c) = true)
    (hf : batchForm m.body = some x)
    (hz : z = ((s.setMailroom c { s.mailroom c with inbox := l }).bump (.sil c) SIL_CNT_RECEIVED).forwardBatch m.body x) :
    s.batchReceive c =
      z.setSillage c { z.sillage c with received := (fieldAt m.body 4 4, m.src) :: (z.sillage c).received } := by
  rw [State.batchReceive, State.takeMsg_head hi (by simp [hu])]
  simp [hj, he, hf, hz]

end Receive

/-! ## STEP_CLOSE (R117, R118) -/

theorem exec_stepClose (s : State) (job : BitVec 12) (n : W32) :
    exec (.stepClose job n) s = .next (s.stepClose job.toNat n.toNat) := rfl

theorem State.stepClose_open {job n : Nat} (h : ((s.jobUnits job).any fun c => !s.unitClosed c n) = true) :
    s.stepClose job n = s := by
  have hall : ((s.jobUnits job).all fun c => s.unitClosed c n) = false := by simpa using h
  rw [State.stepClose]
  exact if_pos (Or.inr hall)

theorem State.stepClose_closed {job n : Nat} (hne : s.jobUnits job ≠ []) (h : ∀ c ∈ s.jobUnits job, s.unitClosed c n = true) :
    s.stepClose job n =
      let l := s.jobUnits job
      let u := l.foldl (fun u c => u.takeHeld c n) s
      l.foldl (fun v c => v.handoff c n (u.unapplied l n)) u := by
  rw [State.stepClose]
  exact if_neg (by simpa [hne] using h)

theorem mem_upFrom_iff {x a n : Nat} : x ∈ upFrom a n ↔ a ≤ x ∧ x < a + n := by
  induction n generalizing a with
  | zero => simp [upFrom]
  | succ n ih =>
    rw [upFrom, List.mem_cons, ih]
    omega

/-- Nothing of a step is applied for a table slot where a unit's table of the step overflowed, or refused a contribution. -/
theorem State.mem_unapplied (l : List ClusterId) (n : Nat) {slot : Nat} (hs : slot < 8) :
    slot ∈ s.unapplied l n ↔ ∃ c, c ∈ l ∧
      (n ∈ (s.sillage c).overfull ∨ ∃ a, a ∈ (s.sillage c).acc ∧ a.step = n ∧ a.bad = true ∧ a.slot = slot) := by
  unfold State.unapplied
  split
  next h =>
    obtain ⟨c, hc, hn⟩ : ∃ c ∈ l, n ∈ (s.sillage c).overfull := by simpa using h
    exact ⟨fun _ => ⟨c, hc, .inl hn⟩, fun _ => mem_upFrom_iff.mpr (by omega)⟩
  next h =>
    have hn : ∀ c ∈ l, n ∉ (s.sillage c).overfull := by simpa using h
    simp only [List.mem_flatMap, List.mem_map, List.mem_filter, Bool.and_eq_true, beq_iff_eq]
    refine exists_congr fun c => and_congr_right fun hc => ?_
    simp [hn c hc, and_assoc]

theorem State.handoffSlot_skip {n : Nat} {skip : List Nat} {r : ApplyRec} (h : r.slot ∈ skip) : s.handoffSlot c n skip r = s := by
  rw [State.handoffSlot]
  exact if_pos (List.contains_iff_mem.mpr h)

/-! ## SIL_APPLY_DONE_WRITE (R119) -/

theorem exec_silApplyDoneWrite (hp : s.powered (.sil c) = true) (i : Fin 8) (v : W32) :
    exec (.silApplyDoneWrite c i v) s = .next (s.applyDone c i.val v.toNat) := by
  change execSilApplyDoneWrite c i v s = _
  simp [execSilApplyDoneWrite, hp]

/-- A register of a Sillage unit does not move the register at another offset of any Sillage unit. -/
theorem State.reg_setReg_sil {o p : Nat} (ho : o < 0x1000) (hp : p < 0x1000) (hne : p ≠ o) (k : ClusterId) (v : Nat) :
    (s.setReg (.sil c) o v).reg (.sil k) p = s.reg (.sil k) p := by
  by_cases hk : k = c
  · rw [hk, State.reg_setReg_off _ _ hne]
  · exact State.reg_setReg_other _ _ (Blk.base_add_ne (by simpa using hk) hp ho)

/-- Which units belong to a job depends on the registers BLK_CTRL and SIL_JOB of the units. -/
theorem State.jobUnits_setReg {o : Nat} (ho : o < 0x1000) (hc : BLK_CTRL ≠ o) (hj : SIL_JOB ≠ o) (v job : Nat) :
    (s.setReg (.sil c) o v).jobUnits job = s.jobUnits job := by
  have henabled (k : ClusterId) : (s.setReg (.sil c) o v).enabled (.sil k) = s.enabled (.sil k) := by
    rw [State.enabled, State.flag, State.reg_setReg_sil ho (by decide) hc]
    rfl
  simp only [State.jobUnits, henabled, State.field, State.reg_setReg_sil ho (show SIL_JOB < 0x1000 by decide) hj]

theorem atLeast32_self (n : Nat) : atLeast32 n n = true := by
  rw [atLeast32, decide_eq_true_iff]
  omega

/-- The Skidder has nothing to do where no haul, read or request waits. -/
theorem State.skdKick_idle (h : s.SkdIdle c) : s.skdKick c = s.setSkidder c (s.skidder c) := by
  obtain ⟨hhauls, hwaits, hown, hserved, hserves⟩ := h
  have hbegin : s.beginReads c = s.setSkidder c (s.skidder c) := by
    simp only [State.beginReads, hwaits, List.filter_nil, List.foldl_nil]
    rw [← hwaits]
  have hmore : (s.setSkidder c (s.skidder c)).morePages c = s.setSkidder c (s.skidder c) := by
    simp [State.morePages, State.issuePages, hown, hserved, Skidder.ready]
  rw [State.skdKick, hbegin, hmore, State.finishHauls, State.skidder_setSkidder, hhauls, List.foldl_nil, State.sendHaulReplies,
    State.skidder_setSkidder, hserves, List.filter_nil, List.foldl_nil]

/-- SIL_APPLY_DONE of the only unit of a job. -/
theorem State.applyDone_only {i v : Nat} (hi : i < 8) (hv : v < 2 ^ 32) (hl : s.jobUnits (s.field (.sil c) SIL_JOB 0 12) = [c]) :
    s.applyDone c i v =
      let r := s.setReg (.sil c) (SIL_APPLY_DONE i) v
      if atLeast32 (r.reg (.skd c) (SKD_APPLIED i)) v then r else (r.setReg (.skd c) (SKD_APPLIED i) v).skdKick c := by
  have ho : SIL_APPLY_DONE i < 0x1000 := by simp only [SIL_APPLY_DONE]; omega
  have hc : BLK_CTRL ≠ SIL_APPLY_DONE i := by simp only [BLK_CTRL, SIL_APPLY_DONE]; omega
  have hj : SIL_JOB ≠ SIL_APPLY_DONE i := by simp only [SIL_JOB, SIL_APPLY_DONE]; omega
  have hunits : (s.setReg (.sil c) (SIL_APPLY_DONE i) v).jobUnits
      ((s.setReg (.sil c) (SIL_APPLY_DONE i) v).field (.sil c) SIL_JOB 0 12) = [c] := by
    rw [State.field, State.reg_setReg_off _ _ hj, State.jobUnits_setReg ho hc hj]
    exact hl
  simp only [State.applyDone, hunits, List.map_cons, List.map_nil, State.reg_setReg, Nat.mod_eq_of_lt hv, List.find?_cons,
    List.all_cons, List.all_nil, atLeast32_self, Bool.and_self, List.foldl_cons, List.foldl_nil]

/-- The Skidder of the only unit of a job follows SIL_APPLY_DONE, unless it has that step applied already. -/
theorem State.applyDone_idle {i v : Nat} (hi : i < 8) (hv : v < 2 ^ 32) (hl : s.jobUnits (s.field (.sil c) SIL_JOB 0 12) = [c])
    (hidle : s.SkdIdle c) :
    (s.applyDone c i v).reg (.sil c) (SIL_APPLY_DONE i) = v ∧
      (s.applyDone c i v).reg (.skd c) (SKD_APPLIED i) = (if atLeast32 (s.reg (.skd c) (SKD_APPLIED i)) v then
        s.reg (.skd c) (SKD_APPLIED i) else v) ∧
      RegsOnly [(Blk.sil c).base + SIL_APPLY_DONE i, (Blk.skd c).base + SKD_APPLIED i] s (s.applyDone c i v) ∧
      (s.applyDone c i v).mem = s.mem := by
  have hne : (Blk.skd c).base + SKD_APPLIED i ≠ (Blk.sil c).base + SIL_APPLY_DONE i :=
    Blk.base_add_ne (by simp) (show SKD_APPLIED i < 0x1000 by simp only [SKD_APPLIED]; omega)
      (show SIL_APPLY_DONE i < 0x1000 by simp only [SIL_APPLY_DONE]; omega)
  have hdone : (s.setReg (.sil c) (SIL_APPLY_DONE i) v).reg (.sil c) (SIL_APPLY_DONE i) = v := by
    rw [State.reg_setReg, Nat.mod_eq_of_lt hv]
  have hregs : RegsOnly [(Blk.sil c).base + SIL_APPLY_DONE i, (Blk.skd c).base + SKD_APPLIED i] s
      (s.setReg (.sil c) (SIL_APPLY_DONE i) v) := fun a ha =>
    State.regs_setReg_other _ _ fun he => ha (by simp [he])
  rw [State.applyDone_only hi hv hl]
  dsimp only
  rw [State.reg_setReg_other _ _ hne]
  by_cases ha : atLeast32 (s.reg (.skd c) (SKD_APPLIED i)) v = true
  · rw [if_pos ha, if_pos ha]
    exact ⟨hdone, State.reg_setReg_other _ _ hne, hregs, rfl⟩
  · have hkick := State.skdKick_idle (s := (s.setReg (.sil c) (SIL_APPLY_DONE i) v).setReg (.skd c) (SKD_APPLIED i) v) (c := c)
      ⟨hidle.hauls, hidle.waits, hidle.ownQ, hidle.servedQ, hidle.serves⟩
    rw [if_neg ha, if_neg ha, hkick]
    refine ⟨(State.reg_setReg_other _ _ hne.symm).trans hdone, (State.reg_setReg ..).trans (Nat.mod_eq_of_lt hv),
      fun a hl => ?_, rfl⟩
    exact (State.regs_setReg_other _ _ fun he => hl (by simp [he])).trans (hregs a hl)

/-- A refused park or adoption raises its bit of SIL_STATUS and is logged; the unit and memory stay as they are. -/
theorem State.refusal_logged {r : State} (hm : CacheMoved s r) {i : Nat} (hi : i < 32) (args : List Nat) :
    let t := (r.setFlag (.sil c) SIL_STATUS i).log (.sil c) 0x2208 2 args
    t.flag (.sil c) SIL_STATUS i = true ∧ t.sillage c = s.sillage c ∧ Logged (.sil c) 0x2208 2 args s t ∧ t.mem = s.mem := by
  refine ⟨?_, ((((UnitsKept.refl s).cacheMoved hm).setReg ..).log ..).sillage c,
    (State.logged_log ..).congr (by rw [hm.rest]; rfl) (by rw [hm.rest]; rfl), (State.log_mem ..).trans hm.mem⟩
  rw [State.flag_log_sil _ _ (by decide)]
  exact State.flag_setFlag _ _ _ hi

/-! ## SIL_PARK_HI_WRITE (R108) -/

theorem exec_silParkHiWrite (hp : s.powered (.sil c) = true) (v : W32) (e : Ecc) :
    exec (.silParkHiWrite c ⟨v, e⟩) s =
      let x := s.unitRead (.sil c) c (s.parkReads c) e
      .next (if x.2 then x.1 else x.1.park c v.toNat) := by
  change execSilParkHiWrite c ⟨v, e⟩ s = _
  simp [execSilParkHiWrite, hp]

theorem exec_silParkHiWrite_error (hp : s.powered (.sil c) = true) (v : W32) {e : Ecc}
    (hx : (s.unitRead (.sil c) c (s.parkReads c) e).2 = true) :
    exec (.silParkHiWrite c ⟨v, e⟩) s = .next (s.unitRead (.sil c) c (s.parkReads c) e).1 := by
  simp [exec_silParkHiWrite hp, hx]

theorem exec_silParkHiWrite_read (hp : s.powered (.sil c) = true) (v : W32) {e : Ecc}
    (hx : (s.unitRead (.sil c) c (s.parkReads c) e).2 = false) :
    exec (.silParkHiWrite c ⟨v, e⟩) s = .next ((s.unitRead (.sil c) c (s.parkReads c) e).1.park c v.toNat) := by
  simp [exec_silParkHiWrite hp, hx]

theorem State.powered_of_enabled {b : Blk} (h : s.enabled b = true) : s.powered b = true := by
  rw [State.enabled, Bool.and_eq_true] at h
  exact h.1

theorem State.mayPark_kept {t : State} (hk : UnitsKept s t) (hr : SilKept c s t) : t.mayPark c = s.mayPark c := by
  simp only [State.mayPark, hr.enabled, hk.sillage, hk.skidder]

theorem State.park_done {v : Nat} (h : s.mayPark c = true) :
    s.park c v =
      ((s.readRanges c (s.parkReads c)).unitWrite c (queueAddr (s.reg (.sil c) SIL_PARK_LO) v) (s.parkImage c)).setSillage c
        { s.sillage c with trails := (s.sillage c).trails.map fun t => { t with parked := true } } := if_pos h

theorem State.park_refused {v : Nat} (h : s.mayPark c = false) :
    s.park c v =
      (s.setFlag (.sil c) SIL_STATUS 5).log (.sil c) 0x2208 2 (lohi (queueAddr (s.reg (.sil c) SIL_PARK_LO) v)) :=
  if_neg (by simp [h])

/-- A park that is done writes the image, where its range is backed, and nothing else. -/
theorem State.park_mem {a v : Nat} (h : s.mayPark c = true) (ha : a = queueAddr (s.reg (.sil c) SIL_PARK_LO) v)
    (hb : rangeBacked a (s.parkImage c).length = true) :
    (s.park c v).mem = ssetMany memDefault s.mem a (s.parkImage c) := by
  have hm : CacheMoved s (s.readRanges c (s.parkReads c)) := (CacheMoved.refl s).readRanges ..
  rw [State.park_done h, ← ha, ← hm.mem]
  exact State.mem_unitWrite hb c

/-- Nothing is read for a park that is refused. -/
theorem exec_silParkHiWrite_refused (hp : s.powered (.sil c) = true) (h : s.mayPark c = false) (v : W32) (e : Ecc) :
    exec (.silParkHiWrite c ⟨v, e⟩) s = .next ((s.setFlag (.sil c) SIL_STATUS 5).log (.sil c) 0x2208 2
      (lohi (queueAddr (s.reg (.sil c) SIL_PARK_LO) v.toNat))) := by
  have hreads : s.parkReads c = [] := if_neg (by simp [h])
  have hread : s.unitRead (.sil c) c (s.parkReads c) e = (s, false) := by rw [hreads, State.unitRead_nil]
  rw [exec_silParkHiWrite_read hp v (by rw [hread]), hread, State.park_refused h]

/-! ## SIL_ADOPT_HI_WRITE (R108) -/

theorem exec_silAdoptHiWrite (hp : s.powered (.sil c) = true) {v : W32} (hl : s.lostIn (s.adoptReads c v.toNat) = false) :
    exec (.silAdoptHiWrite c ⟨v, .ok⟩) s = .next (s.adopt c v.toNat) := by
  change execSilAdoptHiWrite c ⟨v, .ok⟩ s = _
  simp [execSilAdoptHiWrite, hp, State.unitRead_ok hl]

/-- A park image of this unit's job lies at `a` (R108). -/
def State.imageAt (s : State) (c : ClusterId) (a : Nat) : Prop :=
  let n := s.rd (a + 8) 4
  s.enabled (.sil c) = true ∧ s.rd a 4 = 0x4B524150 ∧ s.rd (a + 4) 1 = 1 ∧ s.rd (a + 6) 2 = s.field (.sil c) SIL_JOB 0 12 ∧
    64 ≤ n ∧ s.rd (a + 0x3C) 4 = crc32c (s.readBytes a 0x3C ++ List.replicate 4 0 ++ s.readBytes (a + 64) (n - 64))

/-- What an adoption looks at before it reopens trails, once it has read the image, is the image as it lies in memory. -/
theorem State.imageAt_iff {r : State} (hm : CacheMoved s r) (a : Nat) :
    (r.enabled (.sil c) && r.rd a 4 == 0x4B524150 && r.rd (a + 4) 1 == 1 && r.rd (a + 6) 2 == r.field (.sil c) SIL_JOB 0 12 &&
        decide (64 ≤ s.rd (a + 8) 4) && r.rd (a + 0x3C) 4 ==
          crc32c (r.readBytes a 0x3C ++ List.replicate 4 0 ++ r.readBytes (a + 64) (s.rd (a + 8) 4 - 64))) = true ↔
      s.imageAt c a := by
  have hk := (SilKept.refl c s).cacheMoved hm
  simp only [hk.enabled, hm.rd, hk.field (show SIL_JOB < 0x1000 by decide), State.readBytes_congr hm.mem, State.imageAt,
    Bool.and_eq_true, beq_iff_eq, decide_eq_true_eq, and_assoc]

section Adopt
variable {a v : Nat} {r : State}

theorem State.adopt_taken {u : State} (ha : a = queueAddr (s.reg (.sil c) SIL_ADOPT_LO) v)
    (hr : r = s.readRanges c (s.adoptReads c v)) (hi : s.imageAt c a)
    (hu : State.adoptTrails c a (upFrom 0 (s.rd (a + 5) 1)) r = some u) : s.adopt c v = u := by
  have hm : CacheMoved s r := hr ▸ (CacheMoved.refl s).readRanges ..
  simp only [State.adopt, ← ha, ← hr, if_pos ((State.imageAt_iff hm a).mpr hi), hm.rd (a + 5), hu]

theorem State.adopt_refused (ha : a = queueAddr (s.reg (.sil c) SIL_ADOPT_LO) v) (hr : r = s.readRanges c (s.adoptReads c v))
    (h : ¬s.imageAt c a ∨ State.adoptTrails c a (upFrom 0 (s.rd (a + 5) 1)) r = none) :
    s.adopt c v = (r.setFlag (.sil c) SIL_STATUS 6).log (.sil c) 0x2208 2 (lohi a) := by
  have hm : CacheMoved s r := hr ▸ (CacheMoved.refl s).readRanges ..
  by_cases hi : s.imageAt c a
  · simp only [State.adopt, ← ha, ← hr, if_pos ((State.imageAt_iff hm a).mpr hi), hm.rd (a + 5),
      h.resolve_left (not_not_intro hi)]
  · simp only [State.adopt, ← ha, ← hr, if_neg (mt (State.imageAt_iff hm a).mp hi)]

end Adopt
end Commands

/-! ## The obligation -/

/-- Settles O42: command by command, by what each start, message, close and write does. -/
theorem sillageCommandsRunTheirWork : Obligations.SillageCommandsRunTheirWork := by
  refine ⟨fun s c e a l hq => ?retrace, fun s c m l hi hu => ?message,
    fun s job n h => (exec_stepClose ..).trans (congrArg _ (State.stepClose_open h)),
    fun s job n hne h => (exec_stepClose ..).trans (congrArg _ (State.stepClose_closed hne h)),
    fun s l n slot hs => State.mem_unapplied l n hs, fun s c n skip r h => State.handoffSlot_skip h,
    fun s c i v hp hl hi => ?applied, fun s c v e he ht hh => ?park, fun s c v e hp hm => ?unparked,
    fun s c v hp hl => ⟨fun h => ?unadopted, fun u hi hu => ?adopted⟩⟩
  case retrace =>
    rw [← ((UnitsKept.refl s).unitRead (.sil c) c (s.retraceReads c) e).sillage c] at hq
    refine ⟨fun hx => exec_retraceStart_error hx, fun hx => ?read⟩
    rw [exec_retraceStart_read hx]
    refine ⟨fun hout => congrArg _ (State.retraceStart_unreported hq rfl rfl ?out),
      fun x hout hc => congrArg _ (State.retraceStart_run hq rfl rfl ?usable hc),
      fun n x hout hn hc => congrArg _ (State.retraceStart_refused hq rfl rfl ?usable' hn hc)⟩
    case out => exact (Retrace.unreported_iff _).mpr hout
    case usable | usable' => exact Bool.eq_false_iff.mpr (mt (Retrace.unreported_iff _).mp hout)
  case message =>
    refine ⟨fun h => ?discard,
      fun hj he hf => (exec_returnBatchReceive s c).trans (congrArg _ (State.batchReceive_malformed hi hu hj he hf)),
      fun hj he x hf =>
        (exec_returnBatchReceive s c).trans (congrArg _ (State.batchReceive_forward hi hu hj he hf rfl))⟩
    refine ⟨_, (exec_returnBatchReceive s c).trans (congrArg Host.Outcome.next (State.batchReceive_discard hi hu h)), ?_,
      State.flag_silDiscard .., State.count_silDiscard .., (UnitsKept.silDiscard ..).sillage c, State.mem_silDiscard ..⟩
    rw [(UnitsKept.silDiscard ..).mailroom, State.mailroom_setMailroom]
  case applied => exact ⟨_, exec_silApplyDoneWrite hp i v, State.applyDone_idle i.isLt v.isLt hl hi⟩
  case park =>
    have hkept := (UnitsKept.refl s).unitRead (.sil c) c (s.parkReads c) e
    have hregs := (SilKept.refl c s).unitRead (.sil c) c (s.parkReads c) e
    have hlo := hregs.reg SIL_PARK_LO (by decide)
    have hmay : s.mayPark c = true := by simp [State.mayPark, he, ht, hh]
    have hp := State.powered_of_enabled he
    rw [← State.mayPark_kept hkept hregs] at hmay
    refine ⟨fun hx => exec_silParkHiWrite_error hp v hx, fun hx => ⟨_, exec_silParkHiWrite_read hp v hx, ?_, fun hb => ?_⟩⟩
    · rw [State.park_done hmay, State.sillage_setSillage, hkept.sillage]
    · have hmem := State.park_mem (v := v.toNat) hmay (by rw [hlo]) hb
      refine ⟨?_, fun x hx => ?_⟩
      · rw [State.readBytes, hmem]
        exact sgetMany_ssetMany ..
      · rw [State.readByte, hmem]
        exact sget_ssetMany_other _ _ _ hx
  case unparked =>
    exact ⟨_, exec_silParkHiWrite_refused hp hm v e, State.refusal_logged (CacheMoved.refl s) (by decide) _⟩
  case unadopted =>
    exact ⟨_, (exec_silAdoptHiWrite hp hl).trans (congrArg _ (State.adopt_refused rfl rfl h)),
      State.refusal_logged ((CacheMoved.refl s).readRanges ..) (by decide) _⟩
  case adopted => exact (exec_silAdoptHiWrite hp hl).trans (congrArg _ (State.adopt_taken rfl rfl hi hu))

end Sys2Proof.Machine
end
